-- ==== Sys2Proof/Word.lean ====
section
/-! DEFINITION. The word types of the device and their plainest arithmetic: the 32-bit word of the scan engine and
of every register (R14, R36), the byte of its memories, and the little-endian reading of bytes (R13). -/

namespace Sys2Proof

/-- A byte of any memory of the device. -/
abbrev Byte := BitVec 8

/-- A 32-bit word: WA, WB, an image word, a register. -/
abbrev Word := BitVec 32

/-- A word constant of an instruction, 24 bits, as R40 sign-extends it. -/
def Word.ofConst (k : BitVec 24) : Word := k.signExtend 32

/-- The most negative word, −2³¹. -/
def Word.minInt : Word := 0x80000000#32

/-- One bit as a number: 1 for true. -/
def bit (b : Bool) : Nat := if b then 1 else 0

/-- Addition that stays at the largest value of a counter of `w` bits (R77: counters that reach their maximum stay there). -/
def satAdd (w a b : Nat) : Nat := min (a + b) (2 ^ w - 1)

/-- Division rounding up; a division by zero gives 0. -/
def ceilDiv (a b : Nat) : Nat := if b = 0 then 0 else (a + b - 1) / b

/-- The distance of two numbers. -/
def absDiff (a b : Nat) : Nat := if a ≤ b then b - a else a - b

end Sys2Proof
end

