-- ==== Sys2Proof/Syntax.lean ====
section
/-! DEFINITION. The commands of the block: one constructor of `Instr` for each row of the opcode table, with the
operands that the spec's text gives the row, or, where the row is an event of the outside world, what the world
decides (log 1). -/

namespace Sys2Proof

/-- The three lanes LA, LB and LC (R19). -/
inductive Lane where
  | la | lb | lc
  deriving DecidableEq, Repr

/-- A lane's place in every register that holds one field per lane. -/
def Lane.idx : Lane → Nat
  | .la => 0 | .lb => 1 | .lc => 2

/-- A lane's code where 0 means none (LN_ASSAY.LANE, the source byte of an event). -/
def Lane.code (l : Lane) : Nat := l.idx + 1

/-- The lanes in letter order. -/
def Lane.all : List Lane := [.la, .lb, .lc]

/-- The two other lanes, in letter order. -/
def Lane.others : Lane → List Lane
  | .la => [.lb, .lc] | .lb => [.la, .lc] | .lc => [.la, .lb]

/-- The lane of a code 1, 2 or 3. -/
def Lane.ofCode : Nat → Option Lane
  | 1 => some .la | 2 => some .lb | 3 => some .lc | _ => none

/-! ### Operands of the scan engine (R39, R40, R42) -/

/-- The operand spaces that address bytes: input image I, output image Q, data memory M (R39). -/
inductive Space where
  | I | Q | M
  deriving DecidableEq, Repr

/-- A bit of I, Q or M: byte address and bit number (R40). -/
structure BitRef where
  sp : Space
  byte : Nat
  num : Nat
  deriving DecidableEq, Repr

/-- A bit operand: a bit of memory or a bit constant. -/
inductive BitOp where
  | at (r : BitRef)
  | k (b : Bool)
  deriving DecidableEq, Repr

/-- A word of I, Q or M by its byte address (R40). -/
structure WordRef where
  sp : Space
  addr : Nat
  deriving DecidableEq, Repr

/-- A word operand: a word of memory or a 24-bit constant. -/
inductive WordOp where
  | at (r : WordRef)
  | k (v : BitVec 24)
  deriving DecidableEq, Repr

/-- The flag that LDF reads (R42). -/
inductive FlagSel where
  | CY | OV | DZ
  deriving DecidableEq, Repr

/-- The counter opcodes CTU, CTD and CTUD (R54). -/
inductive CtrKind where
  | ctu | ctd | ctud
  deriving DecidableEq, Repr

/-- What a balance unit reports of a balance: the outcome as BAL_LAST codes it, the attributed lane and the signature of the
voted slice (R90, R117). -/
structure Verdict where
  outcome : Nat
  named : Option Lane
  sig : Word
  deriving DecidableEq, Repr

/-! ### Operands of events of the outside world -/

/-- An accepted edge of a speed sensor (R160, R161): phase A (or B), rising, the grain at which the level began, the
level of the other pin, and whether both pins changed in that grain. -/
structure SpeedEdge where
  phaseA : Bool
  rising : Bool
  at_ : Nat
  other : Bool
  both : Bool
  deriving DecidableEq, Repr


/-- An Ethernet frame as a port carries it (R207): addresses, EtherType, the data field, and whether its FCS is right. -/
structure NetFrame where
  dst : Nat
  src : Nat
  etype : Nat
  data : List (BitVec 8)
  fcsOk : Bool
  deriving DecidableEq, Repr

/-- A CAN frame as a controller sends or receives it (R266, R268). -/
structure CanFrame where
  ide : Bool
  id : Nat
  fdf : Bool
  brs : Bool
  esi : Bool
  data : List (BitVec 8)
  deriving DecidableEq, Repr

/-- A CAN error as ISO 11898-1:2015 classes it: the code of CN_STATUS.LASTERR, its phase, whether this controller was
sending, whether it is a bit error in the data field after arbitration was won, whether a receiver counts 8 for it, and
whether an acknowledgement error saw no dominant bit in the passive error flag (R283, R285). -/
structure CanError where
  code : Nat
  dataPhase : Bool
  sending : Bool
  dataField : Bool
  eight : Bool
  silent : Bool
  deriving DecidableEq, Repr

/-- A companion-link packet (R334): type, operation tag, sequence and acknowledged sequence, inbound address, length, the
type-specific bytes and the payload. -/
structure ClPacket where
  kind : Nat
  tag : Nat
  seq : Nat
  ack : Nat
  addr : Nat
  len : Nat
  spec : Nat
  data : List (BitVec 8)
  deriving DecidableEq, Repr

/-- What a TRAIN packet says of its sender (R336). -/
structure ClIdent where
  devid : Nat
  role : Nat
  side : Nat
  setid : Nat
  furlong : Nat
  size : Nat
  deriving DecidableEq, Repr

/-- The commands, one constructor for each row of the opcode table. -/
inductive Instr where
  /-- NOP: Scan instruction that does nothing. (R42) -/
  | nop (l : Lane)
  /-- LD: Loads a bit operand into BA. (R42) -/
  | ld (l : Lane) (o : BitOp)
  /-- LDN: Loads the inverse of a bit operand into BA. (R42) -/
  | ldn (l : Lane) (o : BitOp)
  /-- AND: ANDs a bit operand into BA. (R42) -/
  | andBit (l : Lane) (o : BitOp)
  /-- ANDN: ANDs the inverse of a bit operand into BA. (R42) -/
  | andn (l : Lane) (o : BitOp)
  /-- OR: ORs a bit operand into BA. (R42) -/
  | orBit (l : Lane) (o : BitOp)
  /-- ORN: ORs the inverse of a bit operand into BA. (R42) -/
  | orn (l : Lane) (o : BitOp)
  /-- XOR: XORs a bit operand into BA. (R42) -/
  | xorBit (l : Lane) (o : BitOp)
  /-- NOT: Inverts BA. (R42) -/
  | notBit (l : Lane)
  /-- ST: Stores BA into a bit of Q or M. (R42) -/
  | st (l : Lane) (r : BitRef)
  /-- STN: Stores the inverse of BA into a bit of Q or M. (R42) -/
  | stn (l : Lane) (r : BitRef)
  /-- SET: Sets a bit of Q or M when BA is 1. (R42) -/
  | set (l : Lane) (r : BitRef)
  /-- RST: Clears a bit of Q or M when BA is 1. (R42) -/
  | rst (l : Lane) (r : BitRef)
  /-- AND_OPEN: Pushes BA with pending AND onto the nesting stack and loads the operand. (R42) -/
  | andOpen (l : Lane) (o : BitOp)
  /-- OR_OPEN: Pushes BA with pending OR onto the nesting stack and loads the operand. (R42) -/
  | orOpen (l : Lane) (o : BitOp)
  /-- XOR_OPEN: Pushes BA with pending XOR onto the nesting stack and loads the operand. (R42) -/
  | xorOpen (l : Lane) (o : BitOp)
  /-- CLOSE: Pops the nesting stack and combines the saved value with BA. (R42) -/
  | close (l : Lane)
  /-- EDGR: Detects a rising edge of BA against an edge bit. (R56) -/
  | edgr (l : Lane) (e : Nat)
  /-- EDGF: Detects a falling edge of BA against an edge bit. (R56) -/
  | edgf (l : Lane) (e : Nat)
  /-- LDW: Loads a word operand into WA. (R42) -/
  | ldw (l : Lane) (o : WordOp)
  /-- STW: Stores WA into a word of Q or M. (R42) -/
  | stw (l : Lane) (r : WordRef)
  /-- LDWB: Loads a word operand into WB. (R42) -/
  | ldwb (l : Lane) (o : WordOp)
  /-- ADD: Adds a word to WA, setting CY and OV. (R45) -/
  | add (l : Lane) (o : WordOp)
  /-- SUB: Subtracts a word from WA, setting CY and OV. (R45) -/
  | sub (l : Lane) (o : WordOp)
  /-- MUL: Multiplies WA by a word keeping the low 32 bits, setting OV. (R45) -/
  | mul (l : Lane) (o : WordOp)
  /-- DIV: Divides WA by a word, remainder to WB, handling divide by zero. (R45) -/
  | div (l : Lane) (o : WordOp)
  /-- WOP_AND: WA := WA AND WB. (R46) -/
  | wopAnd (l : Lane)
  /-- WOP_OR: WA := WA OR WB. (R46) -/
  | wopOr (l : Lane)
  /-- WOP_XOR: WA := WA XOR WB. (R46) -/
  | wopXor (l : Lane)
  /-- INV: Inverts WA. (R46) -/
  | inv (l : Lane)
  /-- NEG: Negates WA, setting OV for the most negative value. (R46) -/
  | neg (l : Lane)
  /-- ABS: Takes the absolute value of WA, setting OV for the most negative value. (R46) -/
  | abs (l : Lane)
  /-- MOD: WA := WA rem WB, with divide-by-zero handling. (R46) -/
  | mod (l : Lane)
  /-- SWAP: Exchanges WA and WB. (R46) -/
  | swap (l : Lane)
  /-- TOB: Copies WA to WB. (R46) -/
  | tob (l : Lane)
  /-- FROMB: Copies WB to WA. (R46) -/
  | fromb (l : Lane)
  /-- BTST: Loads into BA the bit of WA selected by WB. (R46) -/
  | btst (l : Lane)
  /-- BTOW: Sets WA to 1 or 0 from BA. (R46) -/
  | btow (l : Lane)
  /-- CEQ: BA := WA equals the operand. (R42) -/
  | ceq (l : Lane) (o : WordOp)
  /-- CNE: BA := WA differs from the operand. (R42) -/
  | cne (l : Lane) (o : WordOp)
  /-- CGT: BA := WA greater than the operand, signed. (R42) -/
  | cgt (l : Lane) (o : WordOp)
  /-- CGE: BA := WA greater than or equal to the operand, signed. (R42) -/
  | cge (l : Lane) (o : WordOp)
  /-- CLT: BA := WA less than the operand, signed. (R42) -/
  | clt (l : Lane) (o : WordOp)
  /-- CLE: BA := WA less than or equal to the operand, signed. (R42) -/
  | cle (l : Lane) (o : WordOp)
  /-- SHL: Shifts WA left by a count, CY from the last bit out. (R47) -/
  | shl (l : Lane) (o : WordOp)
  /-- SHR: Shifts WA right logically by a count. (R47) -/
  | shr (l : Lane) (o : WordOp)
  /-- SAR: Shifts WA right arithmetically by a count. (R47) -/
  | sar (l : Lane) (o : WordOp)
  /-- ROL: Rotates WA left by the count mod 32. (R47) -/
  | rol (l : Lane) (o : WordOp)
  /-- MIN: WA := signed minimum of WA and the operand. (R42) -/
  | min (l : Lane) (o : WordOp)
  /-- MAX: WA := signed maximum of WA and the operand. (R42) -/
  | max (l : Lane) (o : WordOp)
  /-- LIMIT: Limits WA between WB and the operand. (R47) -/
  | limit (l : Lane) (o : WordOp)
  /-- SEL: Loads the operand into WA when BA is 1. (R42) -/
  | sel (l : Lane) (o : WordOp)
  /-- LDX: Loads WA from base plus WB with an index check. (R48) -/
  | ldx (l : Lane) (r : WordRef)
  /-- STX: Stores WA at base plus WB with an index check. (R48) -/
  | stx (l : Lane) (r : WordRef)
  /-- LDF: Loads CY, OV or DZ into BA and optionally clears it. (R42) -/
  | ldf (l : Lane) (f : FlagSel) (clear : Bool)
  /-- JMP: Jumps forward to a target index. (R42) -/
  | jmp (l : Lane) (target : Nat)
  /-- JMPC: Jumps when BA is 1. (R42) -/
  | jmpc (l : Lane) (target : Nat)
  /-- JMPCN: Jumps when BA is 0. (R42) -/
  | jmpcn (l : Lane) (target : Nat)
  /-- CALL: Pushes the return index and nesting depth and enters a POU. (R49) -/
  | call (l : Lane) (pou : Nat)
  /-- CALLC: Calls a POU when BA is 1. (R42) -/
  | callc (l : Lane) (pou : Nat)
  /-- CALLCN: Calls a POU when BA is 0. (R42) -/
  | callcn (l : Lane) (pou : Nat)
  /-- RET: Returns from a POU, or ends the scan with an empty call stack. (R49) -/
  | ret (l : Lane)
  /-- RETC: Returns when BA is 1. (R49) -/
  | retc (l : Lane)
  /-- TON: Evaluates an on-delay timer instance once per scan. (R51) -/
  | ton (l : Lane) (n : Nat)
  /-- TOF: Evaluates an off-delay timer instance. (R51) -/
  | tof (l : Lane) (n : Nat)
  /-- TP: Evaluates a pulse timer instance. (R51) -/
  | tp (l : Lane) (n : Nat)
  /-- CU: Counter port that latches BA as the count-up input. (R54) -/
  | cu (l : Lane) (k : CtrKind) (n : Nat)
  /-- CD: Counter port that latches BA as the count-down input. (R54) -/
  | cd (l : Lane) (k : CtrKind) (n : Nat)
  /-- COUNTER_R: Counter port that latches BA as the reset input. (R54) -/
  | counterR (l : Lane) (k : CtrKind) (n : Nat)
  /-- COUNTER_LD: Counter port that latches BA as the load input. (R54) -/
  | counterLd (l : Lane) (k : CtrKind) (n : Nat)
  /-- QD: Counter port that returns QD of the last evaluation. (R54) -/
  | qd (l : Lane) (k : CtrKind) (n : Nat)
  /-- EVAL: Evaluates a CTU, CTD or CTUD counter with preset from WA. (R55) -/
  | eval (l : Lane) (k : CtrKind) (n : Nat)
  /-- RECEIVE_AGE: FLOW function returning a flow's latched receive age in WA. (R60) -/
  | receiveAge (l : Lane) (f : Nat)
  /-- SENDER_AGE: FLOW function returning a flow's latched sender age in WA. (R60) -/
  | senderAge (l : Lane) (f : Nat)
  /-- STALE: FLOW function returning a flow's latched stale state in BA. (R60) -/
  | stale (l : Lane) (f : Nat)
  /-- REPEAT: FLOW function returning the repeat flag of the last accepted frame in BA. (R60) -/
  | repeatFlag (l : Lane) (f : Nat)
  /-- LANES: SYS function returning lanes in the vote, in assay and retired. (R61) -/
  | lanes (l : Lane)
  /-- SYNC: SYS function returning the latched network synchronisation state. (R61) -/
  | sync (l : Lane)
  /-- LEASE: SYS function returning twin role, ACTIVE, SOLO and periods to lease expiry. (R61) -/
  | lease (l : Lane)
  /-- LANE: SYS function returning the lane of a SINGLE task. (R61) -/
  | lane (l : Lane)
  /-- PERIOD: SYS function returning the task period in µs. (R61) -/
  | period (l : Lane)
  /-- FIRST: SYS function reporting the first scan after a restart and its kind. (R61) -/
  | first (l : Lane)
  /-- POWER: SYS function presenting a power-state request and returning the forwarding result. (R62) -/
  | power (l : Lane)
  /-- FURLONG: SYS function returning the furlong number at the action instant. (R61) -/
  | furlong (l : Lane)
  /-- LDH: Loads a 16-bit value into the high half of WA. (R42) -/
  | ldh (l : Lane) (v : BitVec 16)
  /-- END: Ends the scan and presents the output slice to the balance. (R49) -/
  | endScan (l : Lane)
  /-- ILLEGAL_WORD: A lane decodes an illegal word, abandons the scan and presents illegal or trips a SINGLE task. (R75) -/
  | illegalWord (l : Lane) (w : Word)
  /-- PRESENTATION: A lane's presentation reaches a balance unit and is voted. (R87) -/
  | presentation (t : Nat) (l : Lane) (missing : List Lane)
  /-- LATE_WINDOW_CLOSE: At the close of the late window a missing third lane is a late lane. (R32) -/
  | lateWindowClose (t : Nat)
  /-- VERDICT: A balance unit's verdict arrives and is compared with the others. (R90) -/
  | verdict (t : Nat) (l : Lane) (v : Verdict)
  /-- LANE_ENABLE_MINORITY: A pad minority detector reports a lane enable in the minority. (R93) -/
  | laneEnableMinority (l : Lane) (c side grains : Nat) (atLaunch : Bool)
  /-- EXCHANGE_HANDSHAKE_TIMEOUT: An exchange handshake incomplete within 20 µs is a protocol error against a lane. (R100) -/
  | exchangeHandshakeTimeout (link : Nat) (blamed : Option Lane)
  /-- WRONG_LENGTH_TRANSFER: An exchange transfer of the wrong length is a protocol error against a lane. (R100) -/
  | wrongLengthTransfer (link : Nat) (blamed : Option Lane)
  /-- EXCHANGE_KEEPALIVE: An exchange keep-alive with another lane keeps SAFEOK eligible. (R107) -/
  | exchangeKeepalive (l m : Lane)
  /-- SAFEOK_TOGGLE: Every 125,000 grains each SAFEOK output toggles or is driven low. (R107) -/
  | safeokToggle (l : Lane)
  /-- TIME_CHECK_WINDOW: Each 1 ms window compares the time-check oscillator with the timebase. (R113) -/
  | timeCheckWindow (l : Lane) (count : Nat)
  /-- PACE_COMPARISON: After each reference period LN_PACE values are compared against the median. (R94) -/
  | paceComparison (busyA busyB busyC : Nat)
  /-- ASSAY_STEP_END: An assay step completes and the next starts, ending in readmission or retirement. (R101) -/
  | assayStepEnd (l : Lane) (pass : Bool)
  /-- ASSAY_TIMEOUT: An assay not done in 30 ms retires the lane. (R99) -/
  | assayTimeout (l : Lane)
  /-- SEED_COPY: A task's state is copied to the seeding lane after its balance completes. (R102) -/
  | seedCopy (l : Lane) (t : Nat)
  /-- SEED_COPY_DONE: A finished seed copy joins the lane to the task's vote. (R102) -/
  | seedCopyDone (l : Lane) (t : Nat)
  /-- PROBATION_COMPLETE: Sixteen agreeing periods of every TRIPLE task return the lane to VOTE. (R104) -/
  | probationComplete (l : Lane)
  /-- MODE_REQUEST: LN_MODEREQ GO submits a TRIPLE/SINGLE hand-over request. (R108) -/
  | modeRequest (t mode : Nat)
  /-- MODE_HAND_OVER: At the hand-over instant the task's cells and sampling change mode. (R109) -/
  | modeHandOver (t : Nat)
  /-- STATE_COPY_COMPLETE: The SINGLE task's state copy to the other lanes completes. (R110) -/
  | stateCopyComplete (t : Nat)
  /-- UN_RETIRE: LN_MAINT write clears a lane's retired state from the next start-up. (R105) -/
  | unRetire (a b c : Bool)
  /-- PAD_CELL_FAULT_CLEAR: BAL_PADCLR with the maintenance permit clears pad cell fault latches. (R96) -/
  | padCellFaultClear
  /-- TSK_MAXCLR: TSK_CLR resets TSK_MAX_N and TSK_MARGIN. (R77) -/
  | tskMaxclr (t : Nat)
  /-- DEBOUNCE_END: A pin's debounced level changes after DEB × 4000 differing grains. (R149) -/
  | debounceEnd (l : Lane) (c : Nat) (a b : Bool)
  /-- DISCREPANCY_TIMEOUT: The discrepancy timer expiring latches the discrepancy fault. (R151) -/
  | discrepancyTimeout (l : Lane) (c : Nat)
  /-- SD_WINDOW_COMPLETE: A sinc3 decimation window completes and yields a result. (R157) -/
  | sdWindowComplete (l : Lane) (c j sum edge loop : Nat)
  /-- SD_CLOCK_FAULT: No returned edge for 4 SDCLK periods or delay out of range is an SD clock fault. (R159) -/
  | sdClockFault (l : Lane) (c cause : Nat)
  /-- SD_CLOCK_RESTORED: 3 × OSR good returned edges clear the SD clock fault. (R159) -/
  | sdClockRestored (l : Lane) (c j : Nat)
  /-- SPEED_EDGE_ACCEPTED: A pulse held MINPW grains is accepted, timestamped and counted. (R160) -/
  | speedEdgeAccepted (l : Lane) (c : Nat) (e : SpeedEdge)
  /-- STANDSTILL: No accepted edge for STILL ms sets standstill. (R162) -/
  | standstill (l : Lane) (c : Nat)
  /-- BANK_SUPPLY_FAULT: A bank below threshold for 16 µs enters bank supply fault. (R171) -/
  | bankSupplyFault (b : Nat)
  /-- BANK_SUPPLY_RESTORED: A bank above threshold for 1 ms leaves the fault. (R171) -/
  | bankSupplyRestored (b : Nat)
  /-- TEST_DUE: A dark or bright test falls due after PER seconds. (R187) -/
  | testDue (g : Nat) (dark : Bool)
  /-- DARK_TEST: At A + TOFS all lanes drop both enables for the dark pulse. (R185) -/
  | darkTest (g : Nat)
  /-- BRIGHT_TEST: At A + TOFS all lanes raise both enables for the bright pulse. (R186) -/
  | brightTest (g : Nat)
  /-- PULSE_END: A test pulse ends and the enables return. (R193) -/
  | pulseEnd (g : Nat)
  /-- TEST_WINDOW_END: At the window end the lanes' results form the group verdict. (R188) -/
  | testWindowEnd (g : Nat)
  /-- MAINTENANCE_RESET: BRK_MRST requests clearing of brake group latches. (R192) -/
  | maintenanceReset (mask : Nat)
  /-- STOP_REQUEST: DBG_PSREQ requests entry to STOP. (R123) -/
  | stopRequest
  /-- RUN_REQUEST: DBG_PSREQ requests entry to RUN, warm or cold. (R123) -/
  | runRequest (cold : Bool)
  /-- HOLD_REQUEST: DBG_PSREQ requests entry to HOLD. (R123) -/
  | holdRequest
  /-- AUTORUN: The device enters RUN by itself after start-up or activation. (R123) -/
  | autorun
  /-- TASK_RESTART_REQUEST: DBG_TRESTART requests restart of a tripped task. (R130) -/
  | taskRestartRequest (t : Nat) (cold : Bool)
  /-- PERIODIC_SNAPSHOT: Every SNAP_PERIOD seconds a retained snapshot is written. (R127) -/
  | periodicSnapshot
  /-- SNAPSHOT_WRITE_DONE: A retained snapshot write completes or fails on lane mismatch. (R127) -/
  | snapshotWriteDone (mramError : Bool)
  /-- STEP: DBG_TCTL.STEP executes one instruction of a halted task. (R133) -/
  | step (t : Nat)
  /-- CONT: DBG_TCTL.CONT runs a halted task to the next breakpoint or scan end. (R133) -/
  | cont (t : Nat)
  /-- HALTREQ: DBG_TCTL.HALTREQ halts a task at its next instruction boundary. (R132) -/
  | haltreq (t : Nat)
  /-- HALT_REPORT: A halted lane's state report is compared with the others. (R132) -/
  | haltReport (t : Nat) (l : Lane)
  /-- UNLOCK_LAPSE: The debug unlock lapses after 600 s without a debug request. (R131) -/
  | unlockLapse
  /-- UNLOCK_LOCKOUT_END: The 60 s lockout after eight wrong responses ends. (R131) -/
  | unlockLockoutEnd
  /-- OLC_COPY_CONFIRMED: A lane confirms its on-line change copy and the switch is armed. (R136) -/
  | olcCopyConfirmed (l : Lane) (ok : Bool)
  /-- OLC_SWITCH: At furlong F every lane swaps to the new POU table. (R136) -/
  | olcSwitch
  /-- PHY_POLL: Each 1 ms the service core polls PHY link status. (R203) -/
  | phyPoll (p : Nat) (answer : Option (BitVec 16)) (full1000 : Bool)
  /-- MDIO_READ: TN_MDIOCMD starts a clause 22 read. (R203) -/
  | mdioRead (phy reg : Nat)
  /-- MDIO_WRITE: TN_MDIOCMD starts a clause 22 write. (R203) -/
  | mdioWrite (phy reg : Nat) (v : BitVec 16)
  /-- MDIO_ACCESS_DONE: An MDIO access completes or finds no response. (R203) -/
  | mdioAccessDone (answer : Option (BitVec 16))
  /-- SEND_DELAY_REQUEST: Every 16 µs a port not in use sends a DELAY request. (R235) -/
  | sendDelayRequest (p : Nat)
  /-- DELAY_REQUEST: A received DELAY request is answered within 2 µs. (R235) -/
  | delayRequest (p : Nat) (fr : NetFrame) (sfd : Nat)
  /-- DELAY_RESPONSE: A DELAY response gives one exchange; 16 set the link delay. (R236) -/
  | delayResponse (p : Nat) (fr : NetFrame) (sfd : Nat)
  /-- DELAY_MEASUREMENT_RETRY: 100 ms after a failed measurement it starts again. (R235) -/
  | delayMeasurementRetry (p : Nat)
  /-- SEND_ROD: At a SEND rod the node sends the flow's frame or misses the rod. (R220) -/
  | sendRod (ch i : Nat)
  /-- FORWARD: At START + h × 250 grains a node retransmits a scheduled frame. (R205) -/
  | forward (p : Nat) (fr : NetFrame) (sfd : Nat)
  /-- DATA_FRAME: A DATA frame arriving in a rod is checked and accepted or discarded. (R222) -/
  | dataFrame (p : Nat) (fr : NetFrame) (sfd : Nat)
  /-- SYNC_FRAME: A SYNC frame is measured, forwarded or adopted. (R240) -/
  | syncFrame (p : Nat) (fr : NetFrame) (sfd : Nat)
  /-- COLDSTART_FRAME: A COLDSTART frame is forwarded, adopted or taken as a collision. (R250) -/
  | coldstartFrame (p : Nat) (fr : NetFrame) (sfd : Nat)
  /-- STATUS_FRAME: A STATUS frame is received and forwarded. (R222) -/
  | statusFrame (p : Nat) (fr : NetFrame) (sfd : Nat)
  /-- WAKE_FRAME: A WAKE frame is discarded when awake or counted by the matcher in SLEEP. (R262) -/
  | wakeFrame (p : Nat) (fr : NetFrame) (sfd : Nat)
  /-- OPEN_FRAME: A frame in an OPEN rod is delivered to the host and forwarded. (R229) -/
  | openFrame (p : Nat) (fr : NetFrame) (sfd : Nat)
  /-- OPEN_ROD: During an OPEN rod queued host frames are sent. (R229) -/
  | openRod (ch i : Nat)
  /-- ROD_END: At the end of a flow's last rod its receive age is updated. (R225) -/
  | rodEnd (ch i : Nat)
  /-- SYNC_CORRECTION: After the last SYNC rod each lane computes offset and rate corrections. (R241) -/
  | syncCorrection
  /-- FURLONG_BOUNDARY: At each furlong boundary corrections apply, lanes realign and scheduled changes take effect. (R242) -/
  | furlongBoundary
  /-- LISTEN_TIMEOUT: The listen timer expires and a capable node sends COLDSTART. (R248) -/
  | listenTimeout
  /-- TB_CAPTURE: TB_CAPTURE captures network time and counts in one grain. (R263) -/
  | tbCapture
  /-- WAKE_BURST_REQUEST: TN_WAKECMD GO starts a burst of 16 WAKE frames. (R261) -/
  | wakeBurstRequest (reason : Nat)
  /-- WAKE_FRAME_SEND: Each SPACING µs the next WAKE frame of a burst is sent. (R261) -/
  | wakeFrameSend
  /-- SYNC_ROD_SEND: At the start of its own SYNC rod, a sync node in sync sends a SYNC frame with hop count 0 and C = 0. (R238) -/
  | syncRodSend (ch i : Nat)
  /-- STATUS_ROD_SEND: At the start of its own STATUS rod, the node sends its STATUS frame. (R212) -/
  | statusRodSend (ch i : Nat)
  /-- TRANSMIT_SELECTION: At intermission the controller selects the pending object to send. (R276) -/
  | transmitSelection (n : Nat)
  /-- CAN_TX_COMPLETE: A frame completes without error and its request clears. (R277) -/
  | canTxComplete (n sof : Nat) (loop : Option Nat)
  /-- ARBITRATION_LOST: A frame loses arbitration and stays pending. (R276) -/
  | arbitrationLost (n : Nat)
  /-- CAN_ERROR: A CAN error updates counters, error state and collision run. (R283) -/
  | canError (n : Nat) (e : CanError)
  /-- CAN_FRAME_RECEIVED: A valid received frame is stored in the matching object. (R278) -/
  | canFrameReceived (n : Nat) (f : CanFrame) (sof : Nat)
  /-- REMOTE_FRAME: A remote frame is counted and discarded. (R266) -/
  | remoteFrame (n : Nat)
  /-- PROTOCOL_EXCEPTION: A protocol exception event leads to bus integration. (R266) -/
  | protocolException (n : Nat) (id : Option Nat)
  /-- BUS_OFF_RECOVERED: 128 × 11 recessive bits end bus-off recovery. (R284) -/
  | busOffRecovered (n : Nat)
  /-- RECOVER: CN_REQ.RECOVER requests bus-off recovery. (R284) -/
  | recover (n : Nat)
  /-- OBJECT_CLEAR: CN_OBJCLR requests clearing of COLL and STOPPED. (R285) -/
  | objectClear (n k : Nat)
  /-- RETRY_READ: A retry read is presented or reissued. (R324) -/
  | retryRead (i far addr len : Nat)
  /-- HELD_READ: A held read is presented. (R325) -/
  | heldRead (i far addr len : Nat)
  /-- FAR_SIDE_DATA: Read data returns from the far side. (R324) -/
  | farSideData (far tag : Nat) (data : Option (List (BitVec 8)))
  /-- UNCLAIMED_DATA_TIMEOUT: Retry-read data unclaimed for 100 µs are discarded. (R324) -/
  | unclaimedDataTimeout (i addr len : Nat)
  /-- HOLD_TIMEOUT: A held read fails after 20 µs. (R325) -/
  | holdTimeout (i : Nat)
  /-- NEAR_SIDE_WRITE: A non-posted far-side write is issued. (R327) -/
  | nearSideWrite (i far addr : Nat) (data : List (BitVec 8))
  /-- FLUSH_READ_COMPLETION: The flush read completion completes a PCIe write. (R327) -/
  | flushReadCompletion (tag : Nat) (ok : Bool)
  /-- COMPLETION_TIMEOUT: A PCIe completion timeout fails the operation. (R327) -/
  | completionTimeout (tag : Nat)
  /-- WRITE_TIMEOUT: A link write without answer in 50 µs fails. (R327) -/
  | writeTimeout (k tag : Nat)
  /-- ALERT_POLL: Every 2 µs a partner's alert word is read. (R331) -/
  | alertPoll (k : Nat) (word : Option (BitVec 32))
  /-- ALERT_HEARTBEAT: Every 100 µs the alert heartbeat increments. (R330) -/
  | alertHeartbeat
  /-- SEMAPHORE_TAKE: Takes a free semaphore. (R332) -/
  | semaphoreTake (n tag : Nat)
  /-- SEMAPHORE_RELEASE: Releases an owned semaphore. (R332) -/
  | semaphoreRelease (n tag : Nat)
  /-- SEMAPHORE_TIMEOUT: A semaphore held SEMTO ms is released. (R333) -/
  | semaphoreTimeout (n : Nat)
  /-- BR_MAXCLR: BR_CLR resets BR_OPSMAX. (R349) -/
  | brMaxclr
  /-- READ: An inbound READ packet is served from the queue. (R338) -/
  | read (k : Nat) (p : ClPacket)
  /-- READ_DATA: A READ_DATA packet returns read data. (R334) -/
  | readData (k : Nat) (p : ClPacket)
  /-- WRITE: An inbound WRITE packet is committed and acknowledged. (R338) -/
  | write (k : Nat) (p : ClPacket)
  /-- WRITE_ACK: A WRITE_ACK completes a link write. (R327) -/
  | writeAck (k : Nat) (p : ClPacket)
  /-- ERROR_RSP: An ERROR_RSP fails the operation. (R327) -/
  | errorRsp (k : Nat) (p : ClPacket)
  /-- TIME: A TIME packet sets or corrects group time. (R344) -/
  | time (k : Nat) (p : ClPacket) (sfd : Nat)
  /-- DELAY_REQ: A link DELAY_REQ packet is answered. (R336) -/
  | delayReq (k : Nat) (p : ClPacket) (sfd : Nat)
  /-- DELAY_RSP: A link DELAY_RSP gives one delay exchange. (R336) -/
  | delayRsp (k : Nat) (p : ClPacket) (sfd : Nat)
  /-- CREDIT: A CREDIT packet returns credits. (R338) -/
  | credit (k : Nat) (p : ClPacket)
  /-- TRAIN: A TRAIN packet advances training and identity comparison. (R336) -/
  | train (k : Nat) (p : ClPacket) (who : ClIdent)
  /-- BAD_PACKET: A bad packet is discarded and replay follows. (R335) -/
  | badPacket (k : Nat) (ours : Bool)
  /-- ALIGNMENT_LOST: 1 µs without alignment takes the link DOWN. (R335) -/
  | alignmentLost (k : Nat)
  /-- LINK_WAIT_END: After 100 ms REFUSED or BACKOFF returns to DOWN. (R336) -/
  | linkWaitEnd (k : Nat)
  /-- COMMA_DETECTION: In DOWN with a role set, the companion-link receiver detects commas, sends TRAIN and enters ALIGN. (R336) -/
  | commaDetection (k : Nat)
  /-- IMPORT_READ: At A + DL the loaders read each import record. (R346) -/
  | importRead (i : Nat)
  /-- DOORBELL_POLL: The bridge reads the doorbell page and starts fetching. (R295) -/
  | doorbellPoll (page : Option (List (BitVec 32)))
  /-- DESCRIPTOR_ACCEPTED: A fetched descriptor is checked and started. (R298) -/
  | descriptorAccepted (r : Nat) (bytes : Option (List (BitVec 8))) (shOk : Bool)
  /-- COMPLETION_POST: A completion is posted once the completion ring has room. (R306) -/
  | completionPost (r slot : Nat) (ok shOk : Bool)
  /-- MSIX_MODERATION_TIMEOUT: TIME µs after the oldest unsignalled completion a vector message is sent. (R309) -/
  | msixModerationTimeout (v : Nat)
  /-- MSIX_UNMASK: Unmasking a vector sends its pending message. (R309) -/
  | msixUnmask (v : Nat)
  /-- SHADOW_HEARTBEAT: Each 1 ms the shadow page status words are written. (R294) -/
  | shadowHeartbeat (ok : Bool)
  /-- HOST_INTERFACE_ENABLE: HIF_CTL.EN starts or stops polling and fetching. (R311) -/
  | hostInterfaceEnable (en : Bool)
  /-- SUBMISSION_RING_ENABLE: HIF_SQ_CFG.EN enables or disables a submission ring. (R311) -/
  | submissionRingEnable (r : Nat) (en : Bool)
  /-- COMPLETION_RING_ENABLE: HIF_CQ_CFG.EN enables or disables a completion ring. (R311) -/
  | completionRingEnable (c : Nat) (en : Bool)
  /-- PCIE_LINK_CHANGE: The PCIe link comes up or goes down. (R320) -/
  | pcieLinkChange (speed width : Nat)
  /-- D3HOT: A host configuration write moves the function between D0 and D3hot, pausing or resuming the host interface. (R289) -/
  | d3hot (d3 : Bool)
  /-- RING_NOP: Ring NOP completes at once. (R301) -/
  | ringNop (r : Nat)
  /-- FLOW_READ: Copies a flow buffer to the host. (R301) -/
  | flowRead (r : Nat) (memOk : Bool)
  /-- FLOW_WRITE: Writes payload of a non-safety SEND flow. (R301) -/
  | flowWrite (r : Nat) (data : Option (List (BitVec 8)))
  /-- OPEN_SEND: Queues a host frame for open rods. (R301) -/
  | openSend (r : Nat) (data : Option (List (BitVec 8)))
  /-- OPEN_RECV: Delivers one received open-rod frame. (R301) -/
  | openRecv (r : Nat) (memOk : Bool)
  /-- CAN_SEND: Requests a host-fed CAN object send. (R301) -/
  | canSend (r : Nat) (data : Option (List (BitVec 8)))
  /-- CAN_WITHDRAW: Removes a host-fed object's pending request. (R301) -/
  | canWithdraw (r : Nat)
  /-- CAN_READ: Copies an object's 128 bytes to the host. (R301) -/
  | canRead (r : Nat) (memOk : Bool)
  /-- CAN_RECOVER: Ring equivalent of CN_REQ.RECOVER. (R301) -/
  | canRecover (r : Nat)
  /-- CAN_OBJCLR: Ring equivalent of CN_OBJCLR. (R301) -/
  | canObjclr (r : Nat)
  /-- SNAPSHOT: Requests an image snapshot of one task. (R312) -/
  | snapshot (r : Nat)
  /-- SNAPSHOT_CAPTURE: A snapshot attempt in the capture window completes or repeats. (R312) -/
  | snapshotCapture (t : Nat) (consistent memOk : Bool)
  /-- UNLOCK_RELEASE: Drops the debug unlock. (R301) -/
  | unlockRelease (r : Nat)
  /-- FORCE_SET: Sets a force entry. (R142) -/
  | forceSet (r : Nat) (data : Option (List (BitVec 8)))
  /-- FORCE_REMOVE: Removes a force entry or all. (R301) -/
  | forceRemove (r : Nat)
  /-- FORCE_READ: Writes the force table to the host. (R301) -/
  | forceRead (r : Nat) (memOk : Bool)
  /-- DBG_WRITE: Writes a per-task DBG register. (R301) -/
  | dbgWrite (r : Nat)
  /-- PSTATE_REQ: Ring program-state request. (R302) -/
  | pstateReq (r : Nat)
  /-- TASK_RESTART: Ring task restart request. (R302) -/
  | taskRestart (r : Nat)
  /-- MODE_REQ: Ring mode hand-over request. (R302) -/
  | modeReq (r : Nat)
  /-- BRAKE_MRST: Ring brake maintenance reset. (R302) -/
  | brakeMrst (r : Nat)
  /-- WAKE_BURST: Ring request for a WAKE burst. (R301) -/
  | wakeBurst (r : Nat)
  /-- RECORD_COMMIT: A queued record is written and read back. (R386) -/
  | recordCommit (ok : Bool)
  /-- RECORD_REWRITE: A merged record is rewritten in its slot. (R388) -/
  | recordRewrite (seq : Nat)
  /-- RECORDER_START_SEARCH: The start search finds newest and oldest records. (R385) -/
  | recorderStartSearch
  /-- OPERATING_TIME_SAVE: Each 10 s an operating-time word is written. (R382) -/
  | operatingTimeSave
  /-- MRAM_REFRESH: Every 5 years recorder slots are rewritten. (R391) -/
  | mramRefresh
  /-- REC_READ: Copies raw recorder records to the host. (R390) -/
  | recRead (r : Nat) (memOk : Bool)
  /-- REC_INFO: Writes the recorder summary. (R390) -/
  | recInfo (r : Nat) (memOk : Bool)
  /-- UPD_OPEN: Takes the session lock and opens an image kind. (R401) -/
  | updOpen (r : Nat)
  /-- UPD_WRITE: Writes an image chunk with undo journalling. (R406) -/
  | updWrite (r : Nat) (data : Option (List (BitVec 8)))
  /-- UPD_VERIFY: Verifies the open kinds. (R402) -/
  | updVerify (r : Nat)
  /-- UPD_ACTIVATE: Activates verified images with a service pause. (R409) -/
  | updActivate (r : Nat)
  /-- UPD_APPLY_ONLINE: Applies an on-line change image. (R135) -/
  | updApplyOnline (r : Nat)
  /-- UPD_CLOSE: Releases the update session. (R401) -/
  | updClose (r : Nat)
  /-- ATTEST: Writes a signed attestation report. (R414) -/
  | attest (r : Nat) (nonce : Option (List (BitVec 8))) (memOk : Bool)
  /-- IDENTITY: Writes the device identity certificate. (R413) -/
  | identity (r : Nat) (memOk : Bool)
  /-- UNLOCK_CHALLENGE: Returns a debug unlock nonce. (R131) -/
  | unlockChallenge (r : Nat) (memOk : Bool)
  /-- UNLOCK_RESPONSE: Verifies a signed response and grants a debug scope. (R415) -/
  | unlockResponse (r : Nat) (data : Option (List (BitVec 8)))
  /-- SESSION_LAPSE: A session lock lapses after 60 s. (R401) -/
  | sessionLapse
  /-- UPDATE_SESSION_MESSAGE: A maintenance-flow or twin message is acted on. (R403) -/
  | updateSessionMessage (net : Bool)
  /-- FIRMWARE_SELF_TEST: The firmware self-test completes. (R409) -/
  | firmwareSelfTest (ok : Bool)
  /-- ACTIVATION_PAUSE_END: The activation pause ends and probation begins. (R409) -/
  | activationPauseEnd (ok : Bool)
  /-- CONFIRM_WINDOW_EXPIRY: An unconfirmed window starts fallback. (R412) -/
  | confirmWindowExpiry
  /-- POWER_REQUEST: PWR_REQ requests a lower power state. (R420) -/
  | powerRequest (target : Nat)
  /-- POWER_WITHDRAW: A withdrawal cancels an entry or wakes from IDLE. (R419) -/
  | powerWithdraw
  /-- POWER_REQ: Ring power-state request. (R430) -/
  | powerReq (r : Nat)
  /-- BLOCK_ANSWER: A block accepts or refuses a stop request. (R422) -/
  | blockAnswer (fails : Bool)
  /-- BLOCK_ANSWER_TIMEOUT: A block silent 25 ms counts as refusing. (R422) -/
  | blockAnswerTimeout
  /-- WAKE_PIN: A filtered WAKE_N or LWAKE pin starts a wake. (R427) -/
  | wakePin (src : Nat)
  /-- PCIE_ACTIVITY_WAKE: Host PCIe activity wakes from SLEEP. (R427) -/
  | pcieActivityWake
  /-- WAKE_STEP_READY: A wake step's ready signal starts the next step. (R428) -/
  | wakeStepReady (us : Nat) (fail : List Lane) (lost : Nat)
  /-- WAKE_STEP_TIMEOUT: A timed-out wake step latches a code and powers down. (R431) -/
  | wakeStepTimeout
  /-- WAKE_RETRY: After 100 ms down the wake retries. (R431) -/
  | wakeRetry
  /-- PFAIL_ASSERT: PFAIL_N assertion flushes MRAM work. (R389) -/
  | pfailAssert
  /-- PFAIL_RELEASE: PFAIL_N released with power kept. (R443) -/
  | pfailRelease
  /-- SUPPLY_LOSS: Invalid PG or monitored supply enters internal reset. (R442) -/
  | supplyLoss (which : Nat)
  /-- PG_VALID: PG_CORE and PG_IO become valid again after a supply loss, which is a new S from which the device restarts. (R442) -/
  | pgValid
  /-- LANE_RAIL_LOW: A lane rail below 0.70 V holds that lane in reset. (R442) -/
  | laneRailLow (l : Lane)
  /-- LANE_RAIL_RESTORED: A lane rail that was below 0.70 V returns, releasing that lane's sampling front and engine from reset. (R442) -/
  | laneRailRestored (l : Lane)
  /-- TEST_EN_RISE: A rise of TEST_EN is a device reset. (R438) -/
  | testEnRise
  /-- TEST_EN_FALL: A fall of TEST_EN ends the held internal and lane reset and restricts the TAP to BYPASS and IDCODE. (R438) -/
  | testEnFall
  /-- AON_POWER_ON: VIO_AON applied starts the device as a wake from OFF. (R444) -/
  | aonPowerOn
  /-- PORST_N: A recognised PORST_N low is a device reset. (R451) -/
  | porstN
  /-- PORST_N_RELEASE: Release of PORST_N after S restarts the start-up timeline of R450 from the release. (R451) -/
  | porstNRelease
  /-- INTERNAL_RESET_RELEASE: Internal reset releases and straps are sampled. (R450) -/
  | internalResetRelease (devid side us : Nat) (fail : List Lane)
  /-- MRAM_READY: MRAM ready starts the recorder search. (R450) -/
  | mramReady
  /-- LOGIC_IMAGE_LOADED: The logic image is loaded into all lanes. (R450) -/
  | logicImageLoaded (ok : Bool)
  /-- CONFIGURATION_SET_APPLIED: The configuration set is applied. (R450) -/
  | configurationSetApplied (ok : Bool)
  /-- BYPASS: TAP BYPASS instruction. (R438) -/
  | bypass
  /-- IDCODE: TAP IDCODE instruction. (R5) -/
  | idcode
  /-- SAMPLE_PRELOAD: TAP SAMPLE/PRELOAD with TEST_EN high. (R438) -/
  | samplePreload
  /-- EXTEST: TAP EXTEST with TEST_EN high. (R438) -/
  | extest
  /-- CODE_GROUP_SYNCHRONISATION: An SGMII receiver gains or loses code-group synchronisation, or its SGMII control word changes, bringing a port into or out of use. (R202) -/
  | codeGroupSynchronisation (p : Nat) (sync gig : Bool)
  /-- PLL_LOST_LOCK: The timebase PLL loses lock, setting TB_EVT.PLL_UNLOCK and its count. (R263) -/
  | pllLostLock
  /-- PERST_N_ASSERTION: PERST_N resets the PCIe core and host interface. (R291) -/
  | perstNAssertion
  /-- PERST_N_RELEASE: Release of PERST_N lets the PCIe endpoint become ready to train 1 ms later and the host interface come out of reset. (R450) -/
  | perstNRelease
  /-- OPERATING_TIME_TICK: Each 1 ms operating time advances. (R382) -/
  | operatingTimeTick
  /-- INPUT_AGREEMENT: Completion of agreement writes the agreed values into every lane's input slice. (R79) -/
  | inputAgreement (t : Nat) (flips : List (Lane × Nat × Nat)) (bad missing odd : List Lane)
  /-- PREEMPTION: A ready higher-priority task pre-empts at the next instruction boundary. (R69) -/
  | preemption (l : Lane)
  /-- ACTION_INSTANT: A task's action instant launches staged outputs and samples and latches its inputs. (R257) -/
  | actionInstant (t : Nat) (padDiff : List (Lane × Nat × Nat)) (padMiss : Bool) (crcBad : Option Lane)
  /-- STAGING: At A − 8 µs the voted or safe slice is staged and shared-block requests are evaluated. (R67) -/
  | staging (t : Nat)
  /-- LEASE_MESSAGE: A partner lease message is accepted and may grant or end a lease. (R357) -/
  | leaseMessage (net : Bool)
  /-- RECORD_A: Mirror record A is accepted and the shadow scan starts. (R371) -/
  | recordA (t : Nat)
  /-- RECORD_B: Mirror record B is accepted and compared. (R371) -/
  | recordB (t : Nat)
  /-- RESYNC_TIMEOUT: A transfer unfinished in 1 s restarts. (R374) -/
  | resyncTimeout (t : Nat)
  /-- SNAPSHOT_REQUEST: A standby's snapshot request starts state transfer. (R373) -/
  | snapshotRequest
  /-- STATE_CHUNK: A resync chunk is accepted and applied. (R374) -/
  | stateChunk
  /-- SOLO_REQUEST: TW_SOLOREQ requests SOLO LEAD. (R363) -/
  | soloRequest
  /-- W1C_CLEAR: Writing 1 to a W1C field clears the flag unless a set meets it. (R14) -/
  | w1cClear (a ones sets : Nat)
  /-- REGISTER_WRITE: A write to a register with no behaviour of its own. (R14) -/
  | registerWrite (a v : Nat)
  deriving DecidableEq, Repr

end Sys2Proof
end

