-- ==== Sys2Proof/WellFormed.lean ====
section
/-! DEFINITION. What a command must satisfy to be one the device can meet: a scan instruction whose word R75 does not
make illegal on its own, whatever the task. What depends on the owning task is checked by the engine
(`Machine/Operands.lean`). -/

namespace Sys2Proof

/-- How many bytes a space has (R19, R40). -/
def Space.size : Space → Nat
  | .I => 0x10000
  | .Q => 0x10000
  | .M => 0x80000

/-- A bit inside its space. -/
def BitRef.wf (r : BitRef) : Bool := decide (r.byte < r.sp.size) && decide (r.num < 8)

/-- A bit that may be stored to: not in I (R41). -/
def BitRef.wfStore (r : BitRef) : Bool := r.wf && r.sp != .I

/-- A bit operand. -/
def BitOp.wf : BitOp → Bool
  | .at r => r.wf
  | .k _ => true

/-- A word inside its space, at a multiple of 4 (R40). -/
def WordRef.wf (r : WordRef) : Bool := decide (r.addr + 4 ≤ r.sp.size) && r.addr % 4 == 0

/-- A word that may be stored to. -/
def WordRef.wfStore (r : WordRef) : Bool := r.wf && r.sp != .I

/-- A word operand. -/
def WordOp.wf : WordOp → Bool
  | .at r => r.wf
  | .k _ => true

/-- The counter ports that R54 lists as valid: CU and R for CTU and CTUD, CD and LD for CTD and CTUD, QD for CTUD. -/
def CtrKind.hasUp : CtrKind → Bool
  | .ctu => true | .ctd => false | .ctud => true

/-- Whether the counter opcode has the count-down side. -/
def CtrKind.hasDown : CtrKind → Bool
  | .ctu => false | .ctd => true | .ctud => true

/-- Well-formed on its own (R40 to R42, R54, R58 to R61, R75). A row that is no scan instruction always is. -/
def Instr.wf : Instr → Bool
  | .ld _ o | .ldn _ o | .andBit _ o | .andn _ o | .orBit _ o | .orn _ o | .xorBit _ o
  | .andOpen _ o | .orOpen _ o | .xorOpen _ o => o.wf
  | .st _ r | .stn _ r | .set _ r | .rst _ r => r.wfStore
  | .edgr _ e | .edgf _ e => decide (e < 16384)
  | .ldw _ o | .ldwb _ o | .add _ o | .sub _ o | .mul _ o | .div _ o | .ceq _ o | .cne _ o | .cgt _ o | .cge _ o
  | .clt _ o | .cle _ o | .shl _ o | .shr _ o | .sar _ o | .rol _ o | .min _ o | .max _ o | .limit _ o
  | .sel _ o => o.wf
  | .stw _ r | .stx _ r => r.wfStore
  | .ldx _ r => r.wf
  | .jmp _ t | .jmpc _ t | .jmpcn _ t => decide (t < 262144)
  | .call _ p | .callc _ p | .callcn _ p => decide (p < 1024)
  | .ton _ n | .tof _ n | .tp _ n => decide (n < 4096)
  | .cu _ k n | .counterR _ k n => k.hasUp && decide (n < 4096)
  | .cd _ k n | .counterLd _ k n => k.hasDown && decide (n < 4096)
  | .qd _ k n => k == .ctud && decide (n < 4096)
  | .eval _ _ n => decide (n < 4096)
  | .receiveAge _ f | .senderAge _ f | .stale _ f | .repeatFlag _ f => decide (f < 512)
  | _ => true

end Sys2Proof
end

