-- ==== Sys2Proof/Machine/ScanTable.lean ====
section
/-! DEFINITION. The opcode and the weight of each scan instruction (R42, R63). -/

namespace Sys2Proof

/-- The major opcode of a counter instruction (R42). -/
def CtrKind.opc : CtrKind → Nat
  | .ctu => 0x37 | .ctd => 0x38 | .ctud => 0x39

/-- The major opcode of a scan instruction; the reserved 0x3D for a row that is none (R42). -/
def Instr.opc : Instr → Nat
  | .nop _ => 0x00 | .ld _ _ => 0x01 | .ldn _ _ => 0x02 | .andBit _ _ => 0x03 | .andn _ _ => 0x04 | .orBit _ _ => 0x05
  | .orn _ _ => 0x06 | .xorBit _ _ => 0x07 | .notBit _ => 0x08 | .st _ _ => 0x09 | .stn _ _ => 0x0A | .set _ _ => 0x0B
  | .rst _ _ => 0x0C | .andOpen _ _ => 0x0D | .orOpen _ _ => 0x0E | .xorOpen _ _ => 0x0F | .close _ => 0x10
  | .edgr _ _ => 0x11 | .edgf _ _ => 0x12 | .ldw _ _ => 0x13 | .stw _ _ => 0x14 | .ldwb _ _ => 0x15 | .add _ _ => 0x16
  | .sub _ _ => 0x17 | .mul _ _ => 0x18 | .div _ _ => 0x19
  | .wopAnd _ | .wopOr _ | .wopXor _ | .inv _ | .neg _ | .abs _ | .mod _ | .swap _ | .tob _ | .fromb _ | .btst _
  | .btow _ => 0x1A
  | .ceq _ _ => 0x1B | .cne _ _ => 0x1C | .cgt _ _ => 0x1D | .cge _ _ => 0x1E | .clt _ _ => 0x1F | .cle _ _ => 0x20
  | .shl _ _ => 0x21 | .shr _ _ => 0x22 | .sar _ _ => 0x23 | .rol _ _ => 0x24 | .min _ _ => 0x25 | .max _ _ => 0x26
  | .limit _ _ => 0x27 | .sel _ _ => 0x28 | .ldx _ _ => 0x29 | .stx _ _ => 0x2A | .ldf _ _ _ => 0x2B | .jmp _ _ => 0x2C
  | .jmpc _ _ => 0x2D | .jmpcn _ _ => 0x2E | .call _ _ => 0x2F | .callc _ _ => 0x30 | .callcn _ _ => 0x31
  | .ret _ => 0x32 | .retc _ => 0x33 | .ton _ _ => 0x34 | .tof _ _ => 0x35 | .tp _ _ => 0x36
  | .cu _ k _ | .cd _ k _ | .counterR _ k _ | .counterLd _ k _ | .qd _ k _ | .eval _ k _ => k.opc
  | .receiveAge _ _ | .senderAge _ _ | .stale _ _ | .repeatFlag _ _ => 0x3A
  | .lanes _ | .sync _ | .lease _ | .lane _ | .period _ | .first _ | .power _ | .furlong _ => 0x3B
  | .ldh _ _ => 0x3C | .endScan _ => 0x3F
  | _ => 0x3D

/-- The weight of a scan instruction (R63). -/
def Instr.weight (i : Instr) : Nat :=
  match i with
  | .mod _ => 8
  | i =>
    if [0x18, 0x29, 0x2A, 0x2F, 0x30, 0x31, 0x32, 0x33].contains i.opc then 2
    else if i.opc = 0x19 then 8
    else if 0x34 ≤ i.opc ∧ i.opc ≤ 0x3B then 4
    else 1

end Sys2Proof
end

