-- ==== Sys2Proof/Decode.lean ====
section
/-! DEFINITION. The instruction word of the scan engine read and written (R39, R40, R42, R54, R60, R61). The opcode
table gives no row any bits, so `decodeTableWord` spells no command. -/

namespace Sys2Proof

/-- The command that a word of the opcode table spells: the table gives its rows no bits, so none. -/
def decodeTableWord (_nbits _w : Nat) : Option Instr := none

/-! ### Decoding -/

/-- The address spaces by their code; 3 is the immediate K (R39). -/
def Space.ofCode (n : Nat) : Option Space :=
  if n = 0 then some .I else if n = 1 then some .Q else if n = 2 then some .M else none

/-- A bit operand in I, Q, M or K (R40). -/
def decodeBit (sp opd : Nat) : Option BitOp :=
  match Space.ofCode sp with
  | some x => some (.at ⟨x, opd / 8, opd % 8⟩)
  | none => if opd < 2 then some (.k (opd == 1)) else none

/-- A bit that may be stored to: Q or M (R42). -/
def decodeBitStore (sp opd : Nat) : Option BitRef :=
  if sp = 1 then some ⟨.Q, opd / 8, opd % 8⟩ else if sp = 2 then some ⟨.M, opd / 8, opd % 8⟩ else none

/-- A word operand in I, Q, M or K (R40). -/
def decodeWord (sp opd : Nat) : Option WordOp :=
  match Space.ofCode sp with
  | some x => some (.at ⟨x, opd⟩)
  | none => some (.k (BitVec.ofNat 24 opd))

/-- A word base in I, Q or M (R42). -/
def decodeBase (sp opd : Nat) : Option WordRef :=
  match Space.ofCode sp with
  | some x => some ⟨x, opd⟩
  | none => none

/-- A word that may be stored to: Q or M (R42). -/
def decodeWordStore (sp opd : Nat) : Option WordRef :=
  if sp = 1 then some ⟨.Q, opd⟩ else if sp = 2 then some ⟨.M, opd⟩ else none

/-- An operand in K that must be below `n`: its unused bits are zero (R40). -/
def decodeK (sp opd n : Nat) : Option Nat := if sp = 3 ∧ opd < n then some opd else none

/-- A WOP function (R46); 12 to 15 are reserved. -/
def decodeWop (l : Lane) (f : Nat) : Option Instr :=
  match f with
  | 0 => some (.wopAnd l) | 1 => some (.wopOr l) | 2 => some (.wopXor l) | 3 => some (.inv l) | 4 => some (.neg l)
  | 5 => some (.abs l) | 6 => some (.mod l) | 7 => some (.swap l) | 8 => some (.tob l) | 9 => some (.fromb l)
  | 10 => some (.btst l) | 11 => some (.btow l) | _ => none

/-- A SYS function (R61); 0x08 and above are reserved. -/
def decodeSys (l : Lane) (f : Nat) : Option Instr :=
  match f with
  | 0 => some (.lanes l) | 1 => some (.sync l) | 2 => some (.lease l) | 3 => some (.lane l) | 4 => some (.period l)
  | 5 => some (.first l) | 6 => some (.power l) | 7 => some (.furlong l) | _ => none

/-- A FLOW function: flow in [8:0], function in [13:12], the other bits zero (R42, R60). -/
def decodeFlow (l : Lane) (opd : Nat) : Option Instr :=
  if opd ≥ 0x4000 ∨ opd % 0x1000 ≥ 512 then none
  else match opd / 0x1000 with
    | 0 => some (.receiveAge l (opd % 512)) | 1 => some (.senderAge l (opd % 512))
    | 2 => some (.stale l (opd % 512)) | _ => some (.repeatFlag l (opd % 512))

/-- A counter port: instance in [11:0], port in [14:12]; a port that R54 does not list for the opcode is reserved. -/
def decodeCtr (l : Lane) (k : CtrKind) (opd : Nat) : Option Instr :=
  let n := opd % 4096
  match opd / 4096 with
  | 0 => if k.hasUp then some (.cu l k n) else none
  | 1 => if k.hasDown then some (.cd l k n) else none
  | 2 => if k.hasUp then some (.counterR l k n) else none
  | 3 => if k.hasDown then some (.counterLd l k n) else none
  | 6 => if k = .ctud then some (.qd l k n) else none
  | 7 => some (.eval l k n)
  | _ => none

/-- LDF: flag in [1:0], clear in [4] (R42). -/
def decodeLdf (l : Lane) (opd : Nat) : Option Instr :=
  match opd with
  | 0 => some (.ldf l .CY false) | 1 => some (.ldf l .OV false) | 2 => some (.ldf l .DZ false)
  | 16 => some (.ldf l .CY true) | 17 => some (.ldf l .OV true) | 18 => some (.ldf l .DZ true)
  | _ => none

/-- The instruction of an opcode, an operand space and an operand (R42). -/
def decodeParts (l : Lane) (opc sp opd : Nat) : Option Instr :=
  match opc with
  | 0x00 => (decodeK sp opd 1).map fun _ => .nop l
  | 0x01 => (decodeBit sp opd).map (.ld l)
  | 0x02 => (decodeBit sp opd).map (.ldn l)
  | 0x03 => (decodeBit sp opd).map (.andBit l)
  | 0x04 => (decodeBit sp opd).map (.andn l)
  | 0x05 => (decodeBit sp opd).map (.orBit l)
  | 0x06 => (decodeBit sp opd).map (.orn l)
  | 0x07 => (decodeBit sp opd).map (.xorBit l)
  | 0x08 => (decodeK sp opd 1).map fun _ => .notBit l
  | 0x09 => (decodeBitStore sp opd).map (.st l)
  | 0x0A => (decodeBitStore sp opd).map (.stn l)
  | 0x0B => (decodeBitStore sp opd).map (.set l)
  | 0x0C => (decodeBitStore sp opd).map (.rst l)
  | 0x0D => (decodeBit sp opd).map (.andOpen l)
  | 0x0E => (decodeBit sp opd).map (.orOpen l)
  | 0x0F => (decodeBit sp opd).map (.xorOpen l)
  | 0x10 => (decodeK sp opd 1).map fun _ => .close l
  | 0x11 => (decodeK sp opd 16384).map (.edgr l)
  | 0x12 => (decodeK sp opd 16384).map (.edgf l)
  | 0x13 => (decodeWord sp opd).map (.ldw l)
  | 0x14 => (decodeWordStore sp opd).map (.stw l)
  | 0x15 => (decodeWord sp opd).map (.ldwb l)
  | 0x16 => (decodeWord sp opd).map (.add l)
  | 0x17 => (decodeWord sp opd).map (.sub l)
  | 0x18 => (decodeWord sp opd).map (.mul l)
  | 0x19 => (decodeWord sp opd).map (.div l)
  | 0x1A => (decodeK sp opd 16).bind (decodeWop l)
  | 0x1B => (decodeWord sp opd).map (.ceq l)
  | 0x1C => (decodeWord sp opd).map (.cne l)
  | 0x1D => (decodeWord sp opd).map (.cgt l)
  | 0x1E => (decodeWord sp opd).map (.cge l)
  | 0x1F => (decodeWord sp opd).map (.clt l)
  | 0x20 => (decodeWord sp opd).map (.cle l)
  | 0x21 => (decodeWord sp opd).map (.shl l)
  | 0x22 => (decodeWord sp opd).map (.shr l)
  | 0x23 => (decodeWord sp opd).map (.sar l)
  | 0x24 => (decodeWord sp opd).map (.rol l)
  | 0x25 => (decodeWord sp opd).map (.min l)
  | 0x26 => (decodeWord sp opd).map (.max l)
  | 0x27 => (decodeWord sp opd).map (.limit l)
  | 0x28 => (decodeWord sp opd).map (.sel l)
  | 0x29 => (decodeBase sp opd).map (.ldx l)
  | 0x2A => (decodeWordStore sp opd).map (.stx l)
  | 0x2B => (decodeK sp opd 32).bind (decodeLdf l)
  | 0x2C => (decodeK sp opd 262144).map (.jmp l)
  | 0x2D => (decodeK sp opd 262144).map (.jmpc l)
  | 0x2E => (decodeK sp opd 262144).map (.jmpcn l)
  | 0x2F => (decodeK sp opd 1024).map (.call l)
  | 0x30 => (decodeK sp opd 1024).map (.callc l)
  | 0x31 => (decodeK sp opd 1024).map (.callcn l)
  | 0x32 => (decodeK sp opd 1).map fun _ => .ret l
  | 0x33 => (decodeK sp opd 1).map fun _ => .retc l
  | 0x34 => (decodeK sp opd 32768).bind fun x => if x / 4096 = 7 then some (.ton l (x % 4096)) else none
  | 0x35 => (decodeK sp opd 32768).bind fun x => if x / 4096 = 7 then some (.tof l (x % 4096)) else none
  | 0x36 => (decodeK sp opd 32768).bind fun x => if x / 4096 = 7 then some (.tp l (x % 4096)) else none
  | 0x37 => (decodeK sp opd 32768).bind (decodeCtr l .ctu)
  | 0x38 => (decodeK sp opd 32768).bind (decodeCtr l .ctd)
  | 0x39 => (decodeK sp opd 32768).bind (decodeCtr l .ctud)
  | 0x3A => (decodeK sp opd 16384).bind (decodeFlow l)
  | 0x3B => (decodeK sp opd 256).bind (decodeSys l)
  | 0x3C => (decodeK sp opd 65536).map fun v => .ldh l (BitVec.ofNat 16 v)
  | 0x3F => (decodeK sp opd 1).map fun _ => .endScan l
  | _ => none

/-- The scan instruction that a word stands for on a lane; none for a word that is illegal whatever the task (R39, R75). -/
def decodeScan (l : Lane) (w : Word) : Option Instr :=
  match decodeParts l (w.toNat / 67108864) (w.toNat / 16777216 % 4) (w.toNat % 16777216) with
  | some i => if i.wf then some i else none
  | none => none

/-! ### Encoding -/

/-- A word from its opcode, operand space and operand (R39). -/
def packWord (opc sp opd : Nat) : Word := BitVec.ofNat 32 (opc * 67108864 + sp * 16777216 + opd)

/-- The code of a space. -/
def Space.code : Space → Nat
  | .I => 0 | .Q => 1 | .M => 2

/-- Space and operand of a bit reference. -/
def BitRef.parts (r : BitRef) : Nat × Nat := (r.sp.code, r.byte * 8 + r.num)
/-- Space and operand of a bit operand. -/
def BitOp.parts : BitOp → Nat × Nat
  | .at r => r.parts
  | .k b => (3, bit b)
/-- Space and operand of a word reference. -/
def WordRef.parts (r : WordRef) : Nat × Nat := (r.sp.code, r.addr)
/-- Space and operand of a word operand. -/
def WordOp.parts : WordOp → Nat × Nat
  | .at r => r.parts
  | .k v => (3, v.toNat)

/-- The flag's code in LDF. -/
def FlagSel.code : FlagSel → Nat
  | .CY => 0 | .OV => 1 | .DZ => 2

/-- The operand space and the operand of a scan instruction. -/
def Instr.parts : Instr → Option (Nat × Nat)
  | .ld _ o => some o.parts
  | .ldn _ o => some o.parts
  | .andBit _ o => some o.parts
  | .andn _ o => some o.parts
  | .orBit _ o => some o.parts
  | .orn _ o => some o.parts
  | .xorBit _ o => some o.parts
  | .andOpen _ o => some o.parts
  | .orOpen _ o => some o.parts
  | .xorOpen _ o => some o.parts
  | .ldw _ o => some o.parts
  | .ldwb _ o => some o.parts
  | .add _ o => some o.parts
  | .sub _ o => some o.parts
  | .mul _ o => some o.parts
  | .div _ o => some o.parts
  | .ceq _ o => some o.parts
  | .cne _ o => some o.parts
  | .cgt _ o => some o.parts
  | .cge _ o => some o.parts
  | .clt _ o => some o.parts
  | .cle _ o => some o.parts
  | .shl _ o => some o.parts
  | .shr _ o => some o.parts
  | .sar _ o => some o.parts
  | .rol _ o => some o.parts
  | .min _ o => some o.parts
  | .max _ o => some o.parts
  | .limit _ o => some o.parts
  | .sel _ o => some o.parts
  | .st _ r => some r.parts
  | .stn _ r => some r.parts
  | .set _ r => some r.parts
  | .rst _ r => some r.parts
  | .stw _ r => some r.parts
  | .stx _ r => some r.parts
  | .ldx _ r => some r.parts
  | .nop _ => some (3, 0)
  | .notBit _ => some (3, 0)
  | .close _ => some (3, 0)
  | .ret _ => some (3, 0)
  | .retc _ => some (3, 0)
  | .endScan _ => some (3, 0)
  | .edgr _ n => some (3, n)
  | .edgf _ n => some (3, n)
  | .jmp _ n => some (3, n)
  | .jmpc _ n => some (3, n)
  | .jmpcn _ n => some (3, n)
  | .call _ n => some (3, n)
  | .callc _ n => some (3, n)
  | .callcn _ n => some (3, n)
  | .wopAnd _ => some (3, 0)
  | .wopOr _ => some (3, 1)
  | .wopXor _ => some (3, 2)
  | .inv _ => some (3, 3)
  | .neg _ => some (3, 4)
  | .abs _ => some (3, 5)
  | .mod _ => some (3, 6)
  | .swap _ => some (3, 7)
  | .tob _ => some (3, 8)
  | .fromb _ => some (3, 9)
  | .btst _ => some (3, 10)
  | .btow _ => some (3, 11)
  | .ldf _ f c => some (3, f.code + 16 * bit c)
  | .ton _ n => some (3, n + 0x7000)
  | .tof _ n => some (3, n + 0x7000)
  | .tp _ n => some (3, n + 0x7000)
  | .cu _ _ n => some (3, n + 0x0000)
  | .cd _ _ n => some (3, n + 0x1000)
  | .counterR _ _ n => some (3, n + 0x2000)
  | .counterLd _ _ n => some (3, n + 0x3000)
  | .qd _ _ n => some (3, n + 0x6000)
  | .eval _ _ n => some (3, n + 0x7000)
  | .receiveAge _ f => some (3, f + 0x0000)
  | .senderAge _ f => some (3, f + 0x1000)
  | .stale _ f => some (3, f + 0x2000)
  | .repeatFlag _ f => some (3, f + 0x3000)
  | .lanes _ => some (3, 0)
  | .sync _ => some (3, 1)
  | .lease _ => some (3, 2)
  | .lane _ => some (3, 3)
  | .period _ => some (3, 4)
  | .first _ => some (3, 5)
  | .power _ => some (3, 6)
  | .furlong _ => some (3, 7)
  | .ldh _ v => some (3, v.toNat)
  | _ => none

/-- The word of a scan instruction; none for a row that is no scan instruction (R39, R42). -/
def encodeScan (i : Instr) : Option Word := i.parts.map fun p => packWord i.opc p.1 p.2

/-- The lane of a scan instruction. -/
def Instr.scanLane : Instr → Option Lane
  | .nop l | .notBit l | .close l | .wopAnd l | .wopOr l | .wopXor l | .inv l | .neg l | .abs l | .mod l
  | .swap l | .tob l | .fromb l | .btst l | .btow l | .ret l | .retc l | .lanes l | .sync l | .lease l
  | .lane l | .period l | .first l | .power l | .furlong l | .endScan l => some l
  | .ld l _ | .ldn l _ | .andBit l _ | .andn l _ | .orBit l _ | .orn l _ | .xorBit l _ | .st l _ | .stn l _
  | .set l _ | .rst l _ | .andOpen l _ | .orOpen l _ | .xorOpen l _ | .edgr l _ | .edgf l _ | .ldw l _
  | .stw l _ | .ldwb l _ | .add l _ | .sub l _ | .mul l _ | .div l _ | .ceq l _ | .cne l _ | .cgt l _
  | .cge l _ | .clt l _ | .cle l _ | .shl l _ | .shr l _ | .sar l _ | .rol l _ | .min l _ | .max l _
  | .limit l _ | .sel l _ | .ldx l _ | .stx l _ | .jmp l _ | .jmpc l _ | .jmpcn l _ | .call l _ | .callc l _
  | .callcn l _ | .ton l _ | .tof l _ | .tp l _ | .receiveAge l _ | .senderAge l _ | .stale l _
  | .repeatFlag l _ | .ldh l _ => some l
  | .ldf l _ _ | .cu l _ _ | .cd l _ _ | .counterR l _ _ | .counterLd l _ _ | .qd l _ _ | .eval l _ _ => some l
  | _ => none

end Sys2Proof
end

