-- ==== Sys2Proof/Machine/Crc.lean ====
section
/-! DEFINITION. The cyclic checks the spec names: CRC-32C (R9) and the CRC-16 of frame headers (R208). -/

namespace Sys2Proof.Machine

/-- One bit of CRC-32C, in the reflected form of polynomial 0x1EDC_6F41. -/
def crc32cBit (c : Nat) : Nat := if c % 2 = 1 then (c / 2) ^^^ 0x82F63B78 else c / 2

/-- One byte of CRC-32C. -/
def crc32cByte (c : Nat) (b : Byte) : Nat :=
  crc32cBit (crc32cBit (crc32cBit (crc32cBit (crc32cBit (crc32cBit (crc32cBit (crc32cBit (c ^^^ b.toNat))))))))

/-- CRC-32C from an initial value, with the final inversion. -/
def crc32cFrom (init : Nat) (bs : List Byte) : Nat := bs.foldl crc32cByte init ^^^ 0xFFFFFFFF

/-- CRC-32C as R9 and R379 name it. -/
def crc32c (bs : List Byte) : Nat := crc32cFrom 0xFFFFFFFF bs

/-- One bit of the CRC-16 with polynomial 0x1021. -/
def crc16Bit (c : Nat) : Nat := if 0x8000 ≤ c then ((c * 2) % 65536) ^^^ 0x1021 else (c * 2) % 65536

/-- One byte of the CRC-16. -/
def crc16Byte (c : Nat) (b : Byte) : Nat :=
  crc16Bit (crc16Bit (crc16Bit (crc16Bit (crc16Bit (crc16Bit (crc16Bit (crc16Bit (c ^^^ (b.toNat * 256)))))))))

/-- The CRC-16 with polynomial 0x1021 and initial value 0xFFFF. -/
def crc16 (bs : List Byte) : Nat := bs.foldl crc16Byte 0xFFFF

/-- `n` bytes of a number, little-endian. -/
def leBytes : Nat → Nat → List Byte
  | 0, _ => []
  | n + 1, v => BitVec.ofNat 8 v :: leBytes n (v / 256)

/-- `n` bytes of a number, big-endian. -/
def beBytes (n v : Nat) : List Byte := (leBytes n v).reverse

/-- The number that little-endian bytes stand for. -/
def ofLe : List Byte → Nat
  | [] => 0
  | b :: r => b.toNat + 256 * ofLe r

/-- The number that big-endian bytes stand for. -/
def ofBe (bs : List Byte) : Nat := ofLe bs.reverse

/-- `n` bytes of a list from place `i`, missing ones left out. -/
def slice (bs : List Byte) (i n : Nat) : List Byte := (bs.drop i).take n

end Sys2Proof.Machine
end

