-- ==== Sys2Proof/Config.lean ====
section
/-! DEFINITION. What the spec leaves open and the model does not choose: free values, each an opaque constant with no
body, so that nothing can be proved of what it is. -/

namespace Sys2Proof.Config

/-- A value that the spec leaves open; the state counts how many have been drawn, so each draw is a fresh one (log 4). -/
opaque freeValue : Nat → Nat

/-- The bytes that a memory holds after its contents have been destroyed, by the number of the draw and the place in the
destroyed region (log 4). -/
opaque freeByte : Nat → Nat → Byte

/-- The 32-bit signature of an output slice in a verdict and in record B: no rule says how it is formed (R90, log 4). -/
opaque sliceSignature : List Word → Word

end Sys2Proof.Config
end

