-- ==== Sys2Proof/Machine/State.lean ====
section
/-! DEFINITION. The state of the device as plain data, the state after reset, and the reasons a command can stop.

Small state (every register field, and every counter, latch and level of a register's width that the spec names) is
held in the table `fld`, one entry per field; `RegFields` names the register fields, `HidFields` the others. Byte
memories are held in the table `mem`. What has more shape than a number has a field of its own. -/

namespace Sys2Proof.Machine

/-! ### Fields and their access (R14) -/

/-- A field: its word address, lowest bit, width and reset value. -/
structure Fld where
  addr : Nat
  lo : Nat
  w : Nat
  reset : Nat
  deriving DecidableEq, Repr

/-- A field's key in the table of fields. -/
def Fld.key (f : Fld) : Nat := f.addr * 32 + f.lo

/-- The access codes of R14. -/
inductive Access where
  | rw | ro | w1c | wo | cs
  deriving DecidableEq, Repr

/-- A row of a register table: word offset, lowest bit, width, access, reset, and the number of equal neighbours. -/
structure FldRow where
  off : Nat
  lo : Nat
  w : Nat
  acc : Access
  reset : Nat
  n : Nat
  deriving DecidableEq, Repr

/-- A block of registers that occurs `count` times, `stride` bytes apart. -/
structure RegBlock where
  base : Nat
  stride : Nat
  count : Nat
  rows : List FldRow
  deriving DecidableEq, Repr

/-! ### The scan engine (R36) -/

/-- The operator saved with a nesting entry. -/
inductive NestOp where
  | and | or | xor
  deriving DecidableEq, Repr

/-- An entry of the nesting stack. -/
structure NestEntry where
  ba : Bool
  op : NestOp
  deriving DecidableEq, Repr

/-- An entry of the call stack: return index and the nesting depth at the call. -/
structure CallEntry where
  ret : Nat
  depth : Nat
  deriving DecidableEq, Repr

/-- Where a task's scan stands in one lane (R69, R133): no scan; agreed and waiting; executing; pre-empted;
halted by the debugger; ended and presented. -/
inductive Phase where
  | idle | ready | running | preempted | halted | ended
  deriving DecidableEq, Repr

/-- The context of one task in one lane: every element of R36, and what the engine keeps about the scan beside it:
its phase, its weight so far (R63), the timers already advanced in it (R50), the passes of each breakpoint (R132),
whether the breakpoint at PC has been reported, the power request made (R61), the divides by zero (R45), and whether it finishes on the code
before an on-line change (R136). -/
structure Ctx where
  pc : Nat
  ba : Bool
  wa : Word
  wb : Word
  cy : Bool
  ov : Bool
  dz : Bool
  nest : List NestEntry
  call : List CallEntry
  phase : Phase
  weight : Nat
  timersDone : List Nat
  passes : List (Nat × Nat)
  passed : Bool
  power : Nat
  dzCount : Nat
  old : Bool
  deriving DecidableEq, Repr

/-- The context between scans (R37). -/
def Ctx.start : Ctx :=
  { pc := 0, ba := false, wa := 0, wb := 0, cy := false, ov := false, dz := false, nest := [], call := [],
    phase := .idle, weight := 0, timersDone := [], passes := [], passed := false, power := 0, dzCount := 0,
    old := false }

/-- What a lane presents to the balance (R86): its output slice with the power request of the scan, or a marker. -/
inductive Pres where
  | image (words : List Word) (power : Nat)
  | trip
  | illegal
  deriving DecidableEq, Repr

/-- The outcomes of a balance, coded as BAL_LAST.OUTCOME (R117). -/
inductive BalOutcome where
  | none | threeAgree | lateLane | laneDissent | majority | noMajority | twoLane | tripMajority
  deriving DecidableEq, Repr

/-- The balance of one task period: the presentations in order of arrival, the voted one, whether the late window
or the deadline has passed, and the verdicts that have arrived (R87, R88, R90). -/
structure Balance where
  seen : List (Lane × Pres)
  voted : Option Pres
  weight : Nat
  closed : Bool
  deadline : Bool
  verdicts : List (Lane × Verdict)
  deriving DecidableEq, Repr

/-- A balance before any presentation. -/
def Balance.empty : Balance :=
  { seen := [], voted := none, weight := 0, closed := false, deadline := false, verdicts := [] }

/-- The values that SYS returns, latched at the action instant (R61). -/
structure SysLatch where
  lanes : Word
  allIn : Bool
  sync : Word
  inSync : Bool
  lease : Word
  active : Bool
  lane : Word
  period : Nat
  first : Word
  powerFwd : Bool
  furlong : Word
  deriving DecidableEq, Repr

/-- Before anything has been latched. -/
def SysLatch.start : SysLatch :=
  { lanes := 0, allIn := false, sync := 0, inSync := false, lease := 0, active := false, lane := 0, period := 0,
    first := 0, powerFwd := false, furlong := 0 }

/-- The state of a flow as FLOW returns it (R60). -/
structure FlowLatch where
  rxAge : Nat
  sndAge : Nat
  stale : Bool
  rep : Bool
  deriving DecidableEq, Repr

/-- A flow that is not configured (R60). -/
def FlowLatch.unconfigured : FlowLatch := { rxAge := 255, sndAge := 255, stale := true, rep := false }

/-! ### The host rings (R298 to R301) -/

/-- Where a descriptor in progress stands: not started, waiting for an outcome of its block, or finished with its status
and result, waiting to be posted. -/
inductive DescSt where
  | queued
  | waiting
  | done (status result : Nat)
  deriving DecidableEq, Repr

/-- A descriptor in progress: its submission ring, its slot and the head after it, the fields of R300, and its state. -/
structure Desc where
  ring : Nat
  slot : Nat
  head : Nat
  op : Nat
  fence : Bool
  wait : Bool
  cmd : Nat
  p0 : Nat
  p1 : Nat
  p2 : Nat
  buf : Nat
  len : Nat
  st : DescSt
  deriving DecidableEq, Repr

/-! ### The bridge (R322 to R327) -/

/-- Where an operation of the bridge stands: waiting at its port, in flight, its data buffered, failed with the error not
yet taken, or given up by its initiator while the response is still to come. -/
inductive FarSt where
  | waiting | flying | buffered | failed | orphan
  deriving DecidableEq, Repr

/-- An operation of the bridge: kind 0 retry read, 1 held read, 2 write; its initiator and, for merged held reads, all
that share it; far side 0 PCIe, 1 to 4 CL0 to CL3; tag on that far side; address, length and data; when it was presented
and when its data arrived. -/
structure FarOp where
  kind : Nat
  ini : Nat
  sharers : List Nat
  far : Nat
  tag : Nat
  addr : Nat
  len : Nat
  data : List Byte
  st : FarSt
  began : Nat
  arrived : Nat
  deriving DecidableEq, Repr


/-- A region of memory whose contents have been destroyed (R101, R424): each byte that nothing has written since is a
free value, by the draw and its offset. -/
structure Junk where
  base : Nat
  len : Nat
  draw : Nat
  off : Nat
  deriving DecidableEq, Repr

/-! ### The logic image (R41, R58, R65, R66, R135) -/

/-- A program organisation unit: entry index and length. -/
structure Pou where
  entry : Nat
  len : Nat
  deriving DecidableEq, Repr

/-- What the image says of one task: root POU, slices, data window, worst-case weight, retained
words and the flows that it reads with FLOW (R369). -/
structure TaskImage where
  root : Nat
  iBase : Nat
  iWords : Nat
  qBase : Nat
  qWords : Nat
  mBase : Nat
  mUnits : Nat
  nmax : Nat
  retained : List Nat
  flows : List Nat
  deriving DecidableEq, Repr

/-- A timer or counter instance of the image: index, instance ID, kind (R58) and owning task. -/
structure InstDecl where
  idx : Nat
  id : Nat
  kind : Nat
  task : Nat
  deriving DecidableEq, Repr

/-- An edge bit of the image: index, edge ID and owning task (R137). -/
structure EdgeDecl where
  idx : Nat
  id : Nat
  task : Nat
  deriving DecidableEq, Repr

/-- A variable as the image lists it for on-line change (R138). -/
structure VarDecl where
  id : Nat
  addr : Nat
  size : Nat
  type : Nat
  deriving DecidableEq, Repr

/-- A logic image. Its container's byte format is not in the spec (log 5). -/
structure LogicImage where
  layoutHash : Nat
  baseHash : Nat
  code : List Word
  pous : List Pou
  tasks : List (Nat × TaskImage)
  timers : List InstDecl
  counters : List InstDecl
  edges : List EdgeDecl
  vars : List VarDecl
  initData : List (Nat × Byte)
  retainedLen : Nat
  changedPous : List Nat
  changedInstrs : Nat
  /-- The settings window: owning task, byte address in data memory and length, 0 for none (R411). -/
  setTask : Nat
  setAddr : Nat
  setLen : Nat
  deriving DecidableEq, Repr

/-! ### The configuration set (R65, R68, R82, R141) -/

/-- Words of another task's output slice bound to an input slice (R68): reader, byte offset in I, writer's byte
offset in Q and the number of words. -/
structure TaskWordBind where
  task : Nat
  off : Nat
  srcTask : Nat
  srcOff : Nat
  words : Nat
  deriving DecidableEq, Repr


/-- A configuration set: the value of every field with access code CS that it sets, by key; the safe values of the
output image (R72); the words bound between tasks (R68); and the tables that no register holds whole. -/
structure ConfigSet where
  regs : List (Nat × Nat)
  safeQ : List (Nat × Byte)
  words : List TaskWordBind
  /-- The rod entries, by (bank × 2 + channel) × 1024 + index, as four words (R213). -/
  rods : List (Nat × List Nat)
  /-- The flow contexts, as eight words (R217). -/
  flows : List (Nat × List Nat)
  /-- Memory bytes that the set brings with it, by address: substitute images and the tables of later chapters. -/
  bytes : List (Nat × Byte)
  /-- The export contexts as GRP_XCTX0 to 3, by slice, and the import contexts as GRP_ICTX0 to 4, by import (R345, R346). -/
  exports : List (Nat × List Nat)
  imports : List (Nat × List Nat)
  deriving DecidableEq, Repr

/-- The set that is in force before any is applied: every field reads its reset value (R77). -/
def ConfigSet.none : ConfigSet :=
  { regs := [], safeQ := [], words := [], rods := [], flows := [], bytes := [], exports := [], imports := [] }

/-! ### The recorder (R379, R386, R388) -/

/-- A record in the queue or among the 32 most recently queued: its place in the order, its SEQ once it has one, its
fields, the flag bits of CLASS, the operating time and power-cycle count of the event, and the operating time at which its
slot was last written. -/
structure Rec where
  id : Nat
  seq : Option Nat
  code : Nat
  src : Nat
  flags : Nat
  time : Nat
  pcyc : Nat
  p32 : Nat
  a : Nat
  b : Nat
  c : Nat
  written : Nat
  deriving DecidableEq, Repr

/-! ### The state -/

/-- The state of the device. -/
structure State where
  /-- The commands that are waiting, first in first out. -/
  pending : List Instr
  /-- The model's own counter of free values drawn so far (log 4). -/
  freeCount : Nat
  /-- Register fields and the other small state, by key. -/
  fld : List (Nat × Nat)
  /-- Every byte memory of the device, by address (`Machine/MemMap.lean`). -/
  mem : List Host.Cell
  /-- The regions whose contents have been destroyed. -/
  junk : List Junk
  /-- The contexts, by lane × 16 + task (R38). -/
  ctxs : List (Nat × Ctx)
  /-- What each lane has presented and not yet sent, by lane × 16 + task. -/
  pres : List (Nat × Option Pres)
  /-- The balances, by task. -/
  bals : List (Nat × Balance)
  /-- The latched SYS values, by task. -/
  sysLatch : List (Nat × SysLatch)
  /-- The latched FLOW values, by task × 512 + flow. -/
  flowLatch : List (Nat × FlowLatch)
  /-- The sample-dissent run counts, by (source × 16 + task) × 3 + lane (R82). -/
  runs : List (Nat × Nat)
  /-- The times of each lane's transients in ms of operating time, by lane (R103). -/
  transients : List (Nat × List Nat)
  /-- The logic image the lanes run, and the one before an on-line change. -/
  image : Option LogicImage
  oldImage : Option LogicImage
  /-- The active configuration set. -/
  cfg : ConfigSet
  /-- The recorder's queue, its 32 most recent records and the committed ones that await a rewrite. -/
  recQ : List Rec
  recRecent : List Rec
  recRew : List Rec
  /-- The image of an on-line change that is loading or armed (R136). -/
  olcImage : Option LogicImage
  /-- The rod tables in use, by (bank × 2 + channel) × 1024 + index (R212, R213). -/
  rodTab : List (Nat × List Nat)
  /-- The flow contexts in use (R217). -/
  flowTab : List (Nat × List Nat)
  /-- The frame that each network port sent last: 0 TNA0, 1 TNA1, 2 TNB0, 3 TNB1. -/
  lastTx : List (Nat × Option NetFrame)
  /-- The host frames queued to be sent and those received for the host, with their channel, oldest first (R229). -/
  openTx : List (Nat × NetFrame)
  openRx : List (Nat × NetFrame)
  /-- The descriptors in progress, in order of acceptance (R298). -/
  descs : List Desc
  /-- The bytes that the device has written to host memory, by bus address: the last value written at each. -/
  hostMem : List Host.Cell
  /-- The operations of the bridge, in order of presentation (R322). -/
  farOps : List FarOp
  /-- The packet that each companion link sent last (R334). -/
  lastCl : List (Nat × Option ClPacket)
  /-- The writes that the twin mirroring engine has still to make, address and data (R327, R356, R369). -/
  twinOut : List (Nat × List Byte)
  /-- The shadow-page words whose write failed and is made again with the next one, by offset (R310). -/
  shadowQ : List (Nat × Nat)
  /-- The WAKE frames that the matcher has counted: sender, burst ID and time on its own clock (R262). -/
  wakeSeen : List (Nat × Nat × Nat)
  deriving DecidableEq, Repr

/-- Who raises it and whether it is safe: nobody; every command of the spec has an effect or leaves the state as it
is, so the model has no fault. Safe. -/
inductive Fault where
  /-- Raised by no command. Safe: it never occurs. -/
  | unreached
  deriving DecidableEq, Repr

/-- The refusals of the model. -/
inductive Refusal where
  /-- A command without a meaning, by its mnemonic; raised by `exec` alone, only while a row has none. Safe: nothing
  is claimed of it. -/
  | notModelled (mnemonic : String)
  deriving DecidableEq, Repr

/-- The state right after reset: every field at its reset value, which an empty table says, every memory without an
entry, nothing loaded and nothing waiting (log 2 names the values the spec does not give). -/
def State.reset : State :=
  { pending := [], freeCount := 0, fld := [], mem := [], junk := [], ctxs := [], pres := [], bals := [], sysLatch := [],
    flowLatch := [], runs := [], transients := [], image := none, oldImage := none, cfg := ConfigSet.none,
    recQ := [], recRecent := [], recRew := [],
    olcImage := none, rodTab := [], flowTab := [], lastTx := [], openTx := [], openRx := [], descs := [], hostMem := [], farOps := [], lastCl := [], twinOut := [], shadowQ := [], wakeSeen := [] }

end Sys2Proof.Machine
end

