-- ==== Sys2Proof/Machine/HidFields.lean ====
section
/-! DEFINITION. The state that the spec names but shows in no BAR0 register: timers, run counts, latches and levels
inside the lanes and the shared blocks. Each is a field at an address past the 256 KiB of BAR0 (R27), so that one
table holds every small piece of state. Times are free-running grain counts (4 ns, R25). Parameters: lane l,
task t, channel c, group g, pin p (0 A, 1 B), and others as the docstring says. -/

namespace Sys2Proof.Machine
namespace Hid

/-- Free-running grain count of the timebase (R263). -/
def FREE : Fld := ⟨0x40000, 0, 64, 0⟩

/-- Lane network time in grains (R233). -/
def TNET (l : Nat) : Fld := ⟨0x40010 + l, 0, 64, 0⟩

/-- Lane held in reset by its rail (R442). -/
def LANE_RESET (l : Nat) : Fld := ⟨0x40020 + l, 0, 1, 0⟩

/-- Retired state kept in MRAM (R104). -/
def NV_RETIRED (l : Nat) : Fld := ⟨0x40030 + l, 0, 1, 0⟩

/-- Un-retire accepted, with effect from the next start-up (R105). -/
def NV_UNRET (l : Nat) : Fld := ⟨0x40040 + l, 0, 1, 0⟩

/-- Assay step in progress, 0 none (R101). -/
def ASSAY_STEP (l : Nat) : Fld := ⟨0x40050 + l, 0, 3, 0⟩

/-- Grain at which the assay started (R101). -/
def ASSAY_T0 (l : Nat) : Fld := ⟨0x40060 + l, 0, 64, 0⟩

/-- Cause of the assay in progress (R100). -/
def ASSAY_WHY (l : Nat) : Fld := ⟨0x40070 + l, 0, 4, 0⟩

/-- Task named by the cause, 0xFFFF none (R118). -/
def ASSAY_TASK (l : Nat) : Fld := ⟨0x40080 + l, 0, 16, 65535⟩

/-- Lateness in µs of a presentation that came after the late window (R87). -/
def ASSAY_LATE (l : Nat) : Fld := ⟨0x40090 + l, 0, 32, 4294967295⟩

/-- Lane seeded in this task (R102). -/
def SEEDED (l t : Nat) : Fld := ⟨0x400A0 + 16 * l + t, 0, 1, 0⟩

/-- A seed copy for the task is running (R102). -/
def SEED_BUSY (l t : Nat) : Fld := ⟨0x400D0 + 16 * l + t, 0, 1, 0⟩

/-- Seeding attempts made (R102). -/
def SEED_TRY (l t : Nat) : Fld := ⟨0x40100 + 16 * l + t, 0, 3, 0⟩

/-- Bytes seeded in this seeding (R118). -/
def SEED_BYTES (l : Nat) : Fld := ⟨0x40130 + l, 0, 32, 0⟩

/-- Seeding retries in this seeding (R118). -/
def SEED_RETRY (l : Nat) : Fld := ⟨0x40140 + l, 0, 16, 0⟩

/-- Probation periods of the task completed by the lane (R104). -/
def PROB_N (l t : Nat) : Fld := ⟨0x40150 + 16 * l + t, 0, 5, 0⟩

/-- The lane has launched the channel since it entered the vote (R91). -/
def LAUNCHED (l c : Nat) : Fld := ⟨0x40180 + 64 * l + c, 0, 1, 0⟩

/-- Grain after the last exchange keep-alive, 0 none (R107). -/
def KEEP_AT (l : Nat) : Fld := ⟨0x40240 + l, 0, 64, 0⟩

/-- Level of the SAFEOK output (R107). -/
def SAFEOK (l : Nat) : Fld := ⟨0x40250 + l, 0, 1, 0⟩

/-- The lane reports a timebase fault (R113). -/
def TBF (l : Nat) : Fld := ⟨0x40260 + l, 0, 1, 0⟩

/-- Oscillator count of the start-up calibration, 0 before it (R113). -/
def TCAL (l : Nat) : Fld := ⟨0x40270 + l, 0, 64, 0⟩

/-- Tracked oscillator count of one window, times 1,000,000 (R113). -/
def TRATIO (l : Nat) : Fld := ⟨0x40280 + l, 0, 64, 0⟩

/-- Weighted instructions the lane executed in the reference period (R64). -/
def PACE_W (l : Nat) : Fld := ⟨0x40290 + l, 0, 32, 0⟩

/-- Consecutive periods below 70 % of the median (R94). -/
def PACE_LOW (l : Nat) : Fld := ⟨0x402A0 + l, 0, 5, 0⟩

/-- Consecutive periods at or above 75 % of the median (R94). -/
def PACE_HIGH (l : Nat) : Fld := ⟨0x402B0 + l, 0, 5, 0⟩

/-- Grain at which the pending mode request was accepted (R108). -/
def MODE_AT : Fld := ⟨0x402C0, 0, 64, 0⟩

/-- State copy of SINGLE to TRIPLE: 0 none, 1 scan staged, copy running, 2 complete (R110). -/
def MODE_COPY : Fld := ⟨0x402D0, 0, 2, 0⟩

/-- Periods spent on the copy (R110). -/
def MODE_TRY : Fld := ⟨0x402E0, 0, 3, 0⟩

/-- Scans of the probation after SINGLE to TRIPLE, counted from 1; 0 none (R110). -/
def MODE_PROB (t : Nat) : Fld := ⟨0x402F0 + t, 0, 3, 0⟩

/-- Periods since the task's last vote exercise (R95). -/
def VEX_CNT (t : Nat) : Fld := ⟨0x40300 + t, 0, 12, 0⟩

/-- Lane exercised in this period, 0 none (R95). -/
def VEX_NOW (t : Nat) : Fld := ⟨0x40310 + t, 0, 2, 0⟩

/-- Next word of the input exercise (R95). -/
def VEX_IN (t : Nat) : Fld := ⟨0x40320 + t, 0, 16, 0⟩

/-- Next word of the output exercise (R95). -/
def VEX_OUT (t : Nat) : Fld := ⟨0x40330 + t, 0, 16, 0⟩

/-- The task trips at its next staging point (R72). -/
def TRIP_NEXT (t : Nat) : Fld := ⟨0x40340 + t, 0, 1, 0⟩

/-- Kind of restart the next scan reports: 1 warm, 2 cold (R61). -/
def FIRST (t : Nat) : Fld := ⟨0x40350 + t, 0, 2, 0⟩

/-- Restart pending: 1 warm, 2 cold (R125). -/
def RESTART (t : Nat) : Fld := ⟨0x40360 + t, 0, 2, 0⟩

/-- Row of R129 for the pending restart (R129). -/
def RESTART_OCC (t : Nat) : Fld := ⟨0x40370 + t, 0, 3, 0⟩

/-- Grain from which the restart may take effect (R130). -/
def RESTART_AT (t : Nat) : Fld := ⟨0x40380 + t, 0, 64, 0⟩

/-- The task scans since its last restart (R124). -/
def STARTED (t : Nat) : Fld := ⟨0x40390 + t, 0, 1, 0⟩

/-- The task's scan of this period is not yet voted (R73). -/
def SCANNING (t : Nat) : Fld := ⟨0x403A0 + t, 0, 1, 0⟩

/-- Last staged: 0 nothing yet, 1 voted image, 2 safe values (R68). -/
def STG_KIND (t : Nat) : Fld := ⟨0x403B0 + t, 0, 2, 0⟩

/-- Grain at which the late window closes, 0 closed or not open (R32). -/
def LATE_AT (t : Nat) : Fld := ⟨0x403C0 + t, 0, 64, 0⟩

/-- Grain of the task's next action instant as last computed (R257). -/
def NEXT_A (t : Nat) : Fld := ⟨0x403D0 + t, 0, 64, 0⟩

/-- Grain of the task's last action instant (R158). -/
def LAST_A (t : Nat) : Fld := ⟨0x403E0 + t, 0, 64, 0⟩

/-- Lane a SINGLE task runs on after fallback, 0 its configured lane (R112). -/
def TASK_LANE (t : Nat) : Fld := ⟨0x403F0 + t, 0, 2, 0⟩

/-- Why a SINGLE task is stopped: 1 assay, 2 retirement (R111). -/
def STOP_CAUSE (t : Nat) : Fld := ⟨0x40400 + t, 0, 2, 0⟩

/-- The pending program-state request has taken effect in the task (R124). -/
def PS_REACHED (t : Nat) : Fld := ⟨0x40410 + t, 0, 1, 0⟩

/-- The pending STOP waits for its snapshot (R124). -/
def PS_SNAP : Fld := ⟨0x40420, 0, 1, 0⟩

/-- The pending RUN request asks for cold restarts (R123). -/
def PS_COLD : Fld := ⟨0x40430, 0, 1, 0⟩

/-- First entry to RUN after: 1 power-up, 2 activation; 0 none outstanding (R129). -/
def FIRST_RUN : Fld := ⟨0x40440, 0, 3, 1⟩

/-- Restart kind chosen at start-up or activation: 1 warm, 2 cold (R129). -/
def RUN_KIND : Fld := ⟨0x40450, 0, 2, 0⟩

/-- Grain of the last debug request (R131). -/
def UNLOCK_AT : Fld := ⟨0x40460, 0, 64, 0⟩

/-- A challenge is outstanding (R131). -/
def NONCE_ON : Fld := ⟨0x40470, 0, 1, 0⟩

/-- Grain at which the challenge was returned (R131). -/
def NONCE_AT : Fld := ⟨0x40480, 0, 64, 0⟩

/-- Grain at which the lockout began (R131). -/
def LOCK_AT : Fld := ⟨0x40490, 0, 64, 0⟩

/-- A snapshot write is running (R127). -/
def SNAP_BUSY : Fld := ⟨0x404A0, 0, 1, 0⟩

/-- Slot of the running write (R127). -/
def SNAP_SLOT : Fld := ⟨0x404B0, 0, 1, 0⟩

/-- The committed copies are frozen by PFAIL_N (R127). -/
def SNAP_FROZEN : Fld := ⟨0x404C0, 0, 1, 0⟩

/-- What halted the task: breakpoint, 8 HALTREQ, 9 STEP (R146). -/
def HALT_WHY (t : Nat) : Fld := ⟨0x404D0 + t, 0, 4, 0⟩

/-- The lane has reported its halt state (R132). -/
def HALT_REP (t l : Nat) : Fld := ⟨0x404E0 + 3 * t + l, 0, 1, 0⟩

/-- The task still runs the old code of an on-line change (R136). -/
def CL_PEND (t : Nat) : Fld := ⟨0x40510 + t, 0, 1, 0⟩

/-- Lane has confirmed its copy (R136). -/
def OLC_OK (l : Nat) : Fld := ⟨0x40520 + l, 0, 1, 0⟩

/-- Instances carried over by the on-line change (R146). -/
def OLC_CARRY : Fld := ⟨0x40530, 0, 16, 0⟩

/-- Instances initialised by the on-line change (R146). -/
def OLC_INIT : Fld := ⟨0x40540, 0, 16, 0⟩

/-- Forces dropped by the on-line change (R146). -/
def OLC_DROP : Fld := ⟨0x40550, 0, 16, 0⟩

/-- The task has completed a balance on the new code (R127). -/
def OLC_BAL (t : Nat) : Fld := ⟨0x40560 + t, 0, 1, 0⟩

/-- Debounced level of the pin (R149). -/
def DEB (l c p : Nat) : Fld := ⟨0x40570 + 128 * l + 2 * c + p, 0, 1, 0⟩

/-- Discrepancy fault flag (R151). -/
def DISC_FLAG (l c : Nat) : Fld := ⟨0x406F0 + 64 * l + c, 0, 1, 0⟩

/-- Grain at which the discrepancy timer started (R151). -/
def DISC_AT (l c : Nat) : Fld := ⟨0x407B0 + 64 * l + c, 0, 64, 0⟩

/-- State from which DISC_WAIT was entered: 0 DEM, 1 NONDEM (R175). -/
def DISC_FROM (l c : Nat) : Fld := ⟨0x40870 + 64 * l + c, 0, 1, 0⟩

/-- Grain at which the agreed discrepancy fault latched (R175). -/
def DISC_SET_AT (c : Nat) : Fld := ⟨0x40930 + c, 0, 64, 0⟩

/-- Event 0x3001 raised and not yet 0x3002 (R175). -/
def DISC_EV (c : Nat) : Fld := ⟨0x40970 + c, 0, 1, 0⟩

/-- Newest result eligible at an action instant (R157). -/
def SD_R (l c : Nat) : Fld := ⟨0x409B0 + 64 * l + c, 0, 24, 0⟩

/-- Its window number plus 1, 0 none (R157). -/
def SD_WIN (l c : Nat) : Fld := ⟨0x40A70 + 64 * l + c, 0, 64, 0⟩

/-- Grain of its last launching edge (R158). -/
def SD_EDGE (l c : Nat) : Fld := ⟨0x40B30 + 64 * l + c, 0, 64, 0⟩

/-- The window before it (R157). -/
def SD_R2 (l c : Nat) : Fld := ⟨0x40BF0 + 64 * l + c, 0, 24, 0⟩

/-- Its window number plus 1 (R157). -/
def SD_WIN2 (l c : Nat) : Fld := ⟨0x40CB0 + 64 * l + c, 0, 64, 0⟩

/-- Grain of its last launching edge (R158). -/
def SD_EDGE2 (l c : Nat) : Fld := ⟨0x40D70 + 64 * l + c, 0, 64, 0⟩

/-- Window number plus 1 latched at the last action instant (R158). -/
def SD_LATCH (l c : Nat) : Fld := ⟨0x40E30 + 64 * l + c, 0, 64, 0⟩

/-- The lane reports an SD clock fault (R159). -/
def SD_CLKF (l c : Nat) : Fld := ⟨0x40EF0 + 64 * l + c, 0, 1, 0⟩

/-- First window delivered again after a clock fault, plus 1 (R159). -/
def SD_SKIP (l c : Nat) : Fld := ⟨0x40FB0 + 64 * l + c, 0, 64, 0⟩

/-- Agreed SD clock fault (R159). -/
def SD_CLKEV (c : Nat) : Fld := ⟨0x41070 + c, 0, 1, 0⟩

/-- Signed count (R161). -/
def SPD_CNT (l c : Nat) : Fld := ⟨0x410B0 + 64 * l + c, 0, 32, 0⟩

/-- Grain of the edge before the last rising edge of A, plus 1 (R162). -/
def SPD_PREV (l c : Nat) : Fld := ⟨0x41170 + 64 * l + c, 0, 64, 0⟩

/-- Grain of the last rising edge of A, plus 1 (R162). -/
def SPD_LAST (l c : Nat) : Fld := ⟨0x41230 + 64 * l + c, 0, 64, 0⟩

/-- Direction, 1 forward (R161). -/
def SPD_DIR (l c : Nat) : Fld := ⟨0x412F0 + 64 * l + c, 0, 1, 0⟩

/-- Phase error since the last action instant (R161). -/
def SPD_PHASE (l c : Nat) : Fld := ⟨0x413B0 + 64 * l + c, 0, 1, 0⟩

/-- Standstill (R162). -/
def SPD_STILL (l c : Nat) : Fld := ⟨0x41470 + 64 * l + c, 0, 1, 1⟩

/-- Only one edge since standstill (R162). -/
def SPD_ONE (l c : Nat) : Fld := ⟨0x41530 + 64 * l + c, 0, 1, 0⟩

/-- Phase of the last accepted edge: 1 A, 2 B (R161). -/
def SPD_LASTPH (l c : Nat) : Fld := ⟨0x415F0 + 64 * l + c, 0, 2, 0⟩

/-- Count agreed at the last action instant (R163). -/
def SPD_AGREED (c : Nat) : Fld := ⟨0x416B0 + c, 0, 32, 0⟩

/-- Agreed pad readback mismatch at the last action instant (R166). -/
def PADMIS (c p : Nat) : Fld := ⟨0x416F0 + 2 * c + p, 0, 1, 0⟩

/-- Level the pad cell was required to hold since the last launch (R166). -/
def REQ_LVL (c p : Nat) : Fld := ⟨0x41770 + 2 * c + p, 0, 1, 0⟩

/-- A hold, pulse or latch changed the required level since the last launch (R166). -/
def REQ_CHG (c : Nat) : Fld := ⟨0x417F0 + c, 0, 1, 0⟩

/-- Drive enable the lane launches (R164). -/
def DRIVE (l c p : Nat) : Fld := ⟨0x41830 + 128 * l + 2 * c + p, 0, 1, 0⟩

/-- Grain at which the bank entered supply fault (R175). -/
def BANK_AT (b : Nat) : Fld := ⟨0x419B0 + b, 0, 64, 0⟩

/-- The source delivers its safe value until all lanes agree (R82). -/
def SRC_FAULT (i : Nat) : Fld := ⟨0x419C0 + i, 0, 1, 0⟩

/-- Grain at which two lanes came to hold, plus 1; 0 while they do not, 1 for the hold of a start-up (R179, R201). -/
def HOLD_AT (g : Nat) : Fld := ⟨0x429C0 + g, 0, 64, 0⟩

/-- Demand channel first in demand (R201). -/
def HOLD_CH (g : Nat) : Fld := ⟨0x429D0 + g, 0, 6, 0⟩

/-- Every demand channel has been in NONDEM since the last action instant (R179). -/
def CLEAN (l g : Nat) : Fld := ⟨0x429E0 + 16 * l + g, 0, 1, 0⟩

/-- The agreed image latched at the last action instant shows no demand (R179). -/
def IMG_OK (g : Nat) : Fld := ⟨0x42A10 + g, 0, 1, 0⟩

/-- Command word launched at the group task's latest action instant (R177). -/
def CMD (g : Nat) : Fld := ⟨0x42A20 + g, 0, 32, 0⟩

/-- Pulse in progress: 1 dark, 2 bright (R193). -/
def PULSE (g : Nat) : Fld := ⟨0x42A30 + g, 0, 2, 0⟩

/-- Grain at which the pulse started (R188). -/
def PULSE_AT (g : Nat) : Fld := ⟨0x42A40 + g, 0, 64, 0⟩

/-- Test window open: 1 dark, 2 bright (R188). -/
def WIN (g : Nat) : Fld := ⟨0x42A50 + g, 0, 2, 0⟩

/-- The lane's readback has shown what the test asks for (R188). -/
def SEEN (l g : Nat) : Fld := ⟨0x42A60 + 16 * l + g, 0, 1, 0⟩

/-- Test scheduled after the last action instant: 1 dark, 2 bright (R187). -/
def TEST_GO (g : Nat) : Fld := ⟨0x42A90 + g, 0, 2, 0⟩

/-- A dark test is due by a maintenance reset (R187). -/
def DARK_FORCE (g : Nat) : Fld := ⟨0x42AA0 + g, 0, 1, 0⟩

/-- Readback stuck run (R191). -/
def STUCK_RUN (g : Nat) : Fld := ⟨0x42AB0 + g, 0, 8, 0⟩

/-- Readback low run (R191). -/
def RBLOW_RUN (g : Nat) : Fld := ⟨0x42AC0 + g, 0, 8, 0⟩

/-- Pad level launched at the last action instant (R191). -/
def PADLVL (g : Nat) : Fld := ⟨0x42AD0 + g, 0, 1, 0⟩

/-- The pad level changed since the last action instant (R191). -/
def PADCHG (g : Nat) : Fld := ⟨0x42AE0 + g, 0, 1, 0⟩

/-- Latch and cause in MRAM: bit 2 latched, bits 1–0 cause (R192). -/
def NV_LATCH (g : Nat) : Fld := ⟨0x42AF0 + g, 0, 3, 0⟩

/-- Maintenance reset accepted, taking effect at the next action instant (R192). -/
def RST_PEND (g : Nat) : Fld := ⟨0x42B00 + g, 0, 1, 0⟩

/-- Grain at which the pending reset was accepted (R192). -/
def RST_AT : Fld := ⟨0x42B10, 0, 64, 0⟩

/-- Source of the reset request: 0 register, 1 ring (R201). -/
def RST_SRC : Fld := ⟨0x42B20, 0, 1, 0⟩

/-- Next SEQ (R384). -/
def REC_NEXT : Fld := ⟨0x42B30, 0, 33, 1⟩

/-- Number of the next queue entry (R386). -/
def REC_ID : Fld := ⟨0x42B40, 0, 64, 1⟩

/-- Events lost and not yet reported (R387). -/
def REC_LOST : Fld := ⟨0x42B50, 0, 32, 0⟩

/-- Code of the first loss (R387). -/
def REC_LCODE : Fld := ⟨0x42B60, 0, 16, 0⟩

/-- Its source byte (R387). -/
def REC_LSRC : Fld := ⟨0x42B70, 0, 8, 0⟩

/-- Divides by zero of the task's current scan already counted (R45). -/
def DZ_SEEN (t : Nat) : Fld := ⟨0x42B80 + t, 0, 32, 0⟩

/-- A trip condition of the task's current scan is already counted (R74). -/
def TRIP_SEEN (t : Nat) : Fld := ⟨0x42B90 + t, 0, 1, 0⟩

/-- Edge bit brought in by an on-line change and not yet primed (R137). -/
def EDGE_NEW (l e : Nat) : Fld := ⟨0x42BA0 + 16384 * l + e, 0, 1, 0⟩

/-- Grain at which the late window closed (R87). -/
def CLOSED_AT (t : Nat) : Fld := ⟨0x4EBA0 + t, 0, 64, 0⟩

/-- Pad-cell fault clear accepted, taking effect at the next action instant (R96). -/
def PADCLR (c : Nat) : Fld := ⟨0x4EBB0 + c, 0, 1, 0⟩

/-- A mode request is pending (R108). -/
def MODE_PEND : Fld := ⟨0x4EBF0, 0, 1, 0⟩

/-- Its task (R108). -/
def MODE_PT : Fld := ⟨0x4EC00, 0, 4, 0⟩

/-- Its target mode (R108). -/
def MODE_PM : Fld := ⟨0x4EC10, 0, 2, 0⟩

/-- Bank in supply fault (R171). -/
def BANKF (b : Nat) : Fld := ⟨0x4EC20 + b, 0, 1, 0⟩

/-- The newest window is over range (R159). -/
def SD_OVR (l c : Nat) : Fld := ⟨0x4EC30 + 64 * l + c, 0, 1, 0⟩

/-- The window before it is over range (R159). -/
def SD_OVR2 (l c : Nat) : Fld := ⟨0x4ECF0 + 64 * l + c, 0, 1, 0⟩

/-- A program-state request is pending (R124). -/
def PS_PEND : Fld := ⟨0x4EDB0, 0, 1, 0⟩

/-- A configuration set is active (R123). -/
def CFG_ON : Fld := ⟨0x4EDC0, 0, 1, 0⟩

/-- A halt request waits for the task's next scan (R132). -/
def HREQ (t : Nat) : Fld := ⟨0x4EDD0 + t, 0, 1, 0⟩

/-- Furlong number of the switch (R136). -/
def OLC_F : Fld := ⟨0x4EDE0, 0, 64, 0⟩

/-- Fraction of network time accumulated by the rate correction (R242). -/
def RATE_FRAC : Fld := ⟨0x4EDF0, 0, 32, 0⟩

/-- Grains of the slew still to apply, signed (R242). -/
def SLEW_N : Fld := ⟨0x4EE00, 0, 16, 0⟩

/-- Ticks since the slew began (R242). -/
def SLEW_T : Fld := ⟨0x4EE10, 0, 64, 0⟩

/-- Link status that the last poll of the PHY gave (R203). -/
def PHY_LINK (p : Nat) : Fld := ⟨0x4EE20 + p, 0, 1, 0⟩

/-- The SGMII control word reports 1000 Mbit/s full duplex (R202). -/
def PHY_SPEED (p : Nat) : Fld := ⟨0x4EE30 + p, 0, 1, 0⟩

/-- Level of TN_PHYRST_N (R203). -/
def PHYRST : Fld := ⟨0x4EE40, 0, 1, 0⟩

/-- A link delay measurement runs (R235). -/
def DLY_ON (p : Nat) : Fld := ⟨0x4EE50 + p, 0, 1, 0⟩

/-- Requests sent in this measurement (R235). -/
def DLY_REQ (p : Nat) : Fld := ⟨0x4EE60 + p, 0, 8, 0⟩

/-- Valid exchanges of this measurement (R235). -/
def DLY_N (p : Nat) : Fld := ⟨0x4EE70 + p, 0, 5, 0⟩

/-- T1 of the outstanding request, plus 1; 0 none (R235). -/
def DLY_T1 (p : Nat) : Fld := ⟨0x4EE80 + p, 0, 64, 0⟩

/-- Grain from which the next request, or the next measurement, may start (R235). -/
def DLY_AT (p : Nat) : Fld := ⟨0x4EE90 + p, 0, 64, 0⟩

/-- Exchange value times 2, two's complement (R236). -/
def DLY_X (p n : Nat) : Fld := ⟨0x4EEA0 + 16 * p + n, 0, 40, 0⟩

/-- The partner's schedule ID differs (R236). -/
def PORT_BADID (p : Nat) : Fld := ⟨0x4EEE0 + p, 0, 1, 0⟩

/-- Furlong of the last valid frame on the port, plus 1 (R261). -/
def PORT_RXF (p : Nat) : Fld := ⟨0x4EEF0 + p, 0, 64, 0⟩

/-- Furlong of the entry's last check failure, plus 1, by (bank × 2 + channel) × 1024 + index (R216). -/
def ROD_FAILF (k : Nat) : Fld := ⟨0x4EF00 + k, 0, 64, 0⟩

/-- Entry skipped until the next activation (R216). -/
def ROD_SKIP (k : Nat) : Fld := ⟨0x4FF00 + k, 0, 1, 0⟩

/-- Furlong of the context's last check failure, plus 1 (R216). -/
def FCTX_FAILF (f : Nat) : Fld := ⟨0x50F00 + f, 0, 64, 0⟩

/-- Context skipped until the next activation (R216). -/
def FCTX_SKIP (f : Nat) : Fld := ⟨0x51100 + f, 0, 1, 0⟩

/-- The active bank is reloaded at the next furlong boundary (R216). -/
def ROD_RELOAD : Fld := ⟨0x51300, 0, 1, 0⟩

/-- Receive age (R225). -/
def FL_AGE (f : Nat) : Fld := ⟨0x51310 + f, 0, 8, 255⟩

/-- Sender age of the held copy, or of the copy last sent (R226). -/
def FL_SAGE (f : Nat) : Fld := ⟨0x51510 + f, 0, 8, 0⟩

/-- Repeat flag of the held copy, or of the copy last sent (R226). -/
def FL_REP (f : Nat) : Fld := ⟨0x51710 + f, 0, 1, 0⟩

/-- Stale (R225). -/
def FL_STALE (f : Nat) : Fld := ⟨0x51910 + f, 0, 1, 1⟩

/-- Furlongs the flow has been stale (R232). -/
def FL_STF (f : Nat) : Fld := ⟨0x51B10 + f, 0, 32, 0⟩

/-- Furlong of the last acceptance, plus 1; 0 none (R225). -/
def FL_ACC (f : Nat) : Fld := ⟨0x51D10 + f, 0, 64, 0⟩

/-- TN_FLOWERR.REJECT (R231). -/
def FL_REJ (f : Nat) : Fld := ⟨0x51F10 + f, 0, 16, 0⟩

/-- TN_FLOWERR.MISS (R231). -/
def FL_MISS (f : Nat) : Fld := ⟨0x52110 + f, 0, 16, 0⟩

/-- Sequence the lane accepted last (R223). -/
def FL_SEQ (l f : Nat) : Fld := ⟨0x52310 + 512 * l + f, 0, 32, 0⟩

/-- Epoch of that acceptance, plus 1; 0 none (R223). -/
def FL_SEQE (l f : Nat) : Fld := ⟨0x52910 + 512 * l + f, 0, 32, 0⟩

/-- Furlong in which the lane last accepted, plus 1; 0 none (R223). -/
def FL_LACC (l f : Nat) : Fld := ⟨0x52F10 + 512 * l + f, 0, 64, 0⟩

/-- Start-ups, activations and seedings that the lane has gone through (R223). -/
def LN_EPOCH (l : Nat) : Fld := ⟨0x53510 + l, 0, 32, 0⟩

/-- Grain at which the newest data became ready, plus 1; 0 none (R220). -/
def SND_RDY (f : Nat) : Fld := ⟨0x53520 + f, 0, 64, 0⟩

/-- Furlong in which it became ready, two's complement (R220). -/
def SND_RF (f : Nat) : Fld := ⟨0x53720 + f, 0, 64, 0⟩

/-- Furlong in which it was first sent, plus 1; 0 not sent (R220). -/
def SND_SENT (f : Nat) : Fld := ⟨0x53920 + f, 0, 64, 0⟩

/-- The data before it: grain, plus 1 (R220). -/
def SND_RDY2 (f : Nat) : Fld := ⟨0x53B20 + f, 0, 64, 0⟩

/-- Its furlong, two's complement (R220). -/
def SND_RF2 (f : Nat) : Fld := ⟨0x53D20 + f, 0, 64, 0⟩

/-- Furlong in which it was first sent, plus 1 (R220). -/
def SND_SENT2 (f : Nat) : Fld := ⟨0x53F20 + f, 0, 64, 0⟩

/-- Safety sequence last sent (R210). -/
def SND_SEQ (f : Nat) : Fld := ⟨0x54120 + f, 0, 32, 0⟩

/-- Furlong in which the flow was last sent, plus 1 (R220). -/
def SND_LASTF (f : Nat) : Fld := ⟨0x54320 + f, 0, 64, 0⟩

/-- Grain at which the listen timer started, plus 1; 0 not running (R248). -/
def LISTEN_AT : Fld := ⟨0x54520, 0, 64, 0⟩

/-- Furlong in which time was adopted (R254). -/
def ADOPT_F : Fld := ⟨0x54530, 0, 64, 0⟩

/-- Attempt number of the adopted COLDSTART (R254). -/
def ADOPT_TRY : Fld := ⟨0x54540, 0, 2, 0⟩

/-- This node's coldstart is not confirmed yet (R253). -/
def COLD_ME : Fld := ⟨0x54550, 0, 1, 0⟩

/-- Last attempt of the sender that was forwarded (R250). -/
def COLD_FWD (n : Nat) : Fld := ⟨0x54560 + n, 0, 2, 0⟩

/-- Consecutive furlongs without a measurement (R241). -/
def SYNC_MISSED : Fld := ⟨0x545A0, 0, 8, 0⟩

/-- The last furlong's measurement meets the test for entry to sync (R254). -/
def INTEG_OK : Fld := ⟨0x545B0, 0, 1, 0⟩

/-- The sync node is measured in this furlong (R240). -/
def MEAS (l n : Nat) : Fld := ⟨0x545C0 + 64 * l + n, 0, 1, 0⟩

/-- Its measurement, signed (R240). -/
def MEAS_M (l n : Nat) : Fld := ⟨0x54680 + 64 * l + n, 0, 32, 0⟩

/-- Hops, channel and port of the copy measured (R240). -/
def MEAS_RANK (l n : Nat) : Fld := ⟨0x54740 + 64 * l + n, 0, 16, 0⟩

/-- A correction waits for the furlong boundary (R241). -/
def CORR_ON : Fld := ⟨0x54800, 0, 1, 0⟩

/-- Its c, signed (R241). -/
def CORR_C : Fld := ⟨0x54810, 0, 64, 0⟩

/-- Its r, signed (R241). -/
def CORR_R : Fld := ⟨0x54820, 0, 32, 0⟩

/-- Grain from which network-bound tasks may start (R259). -/
def NET_FROM : Fld := ⟨0x54830, 0, 64, 0⟩

/-- Network time from which the task's next action instant is sought (R257). -/
def A_FROM (t : Nat) : Fld := ⟨0x54840 + t, 0, 64, 0⟩

/-- Early frames of the sender (R246). -/
def GCNT_E (n : Nat) : Fld := ⟨0x54850 + n, 0, 16, 0⟩

/-- Late frames of the sender (R246). -/
def GCNT_L (n : Nat) : Fld := ⟨0x54890 + n, 0, 16, 0⟩

/-- WAKE frames of the burst sent (R261). -/
def WB_N : Fld := ⟨0x548D0, 0, 5, 0⟩

/-- Grain at which the next may be sent (R261). -/
def WB_AT : Fld := ⟨0x548E0, 0, 64, 0⟩

/-- Wake reason of the burst (R261). -/
def WB_REASON : Fld := ⟨0x548F0, 0, 16, 0⟩

/-- Sender that the matcher counts (R262). -/
def WK_NODE : Fld := ⟨0x54900, 0, 6, 0⟩

/-- Burst ID that it counts (R262). -/
def WK_ID : Fld := ⟨0x54910, 0, 8, 0⟩

/-- Their wake reason (R262). -/
def WK_REASON : Fld := ⟨0x54920, 0, 16, 0⟩

/-- A RELINQUISH message waits for its rod (R364). -/
def TW_REL : Fld := ⟨0x54930, 0, 1, 0⟩

/-- Object whose frame is in progress, plus 1; 0 none (R276). -/
def CN_TXOBJ (n : Nat) : Fld := ⟨0x54940 + n, 0, 8, 0⟩

/-- Grain at which bus-off was entered (R284). -/
def CN_BOFF_AT (n : Nat) : Fld := ⟨0x54950 + n, 0, 64, 0⟩

/-- Level of CNn_STB (R267). -/
def CN_STB (n : Nat) : Fld := ⟨0x54960 + n, 0, 1, 1⟩

/-- A request made at staging waits for the action instant (R272). -/
def CO_STREQ (n k : Nat) : Fld := ⟨0x54970 + 128 * n + k, 0, 1, 0⟩

/-- REQ in the previous staging (R272). -/
def CO_REQ (n k : Nat) : Fld := ⟨0x54B70 + 128 * n + k, 0, 1, 0⟩

/-- A request has been made since the task's last restart (R272). -/
def CO_HAVE (n k : Nat) : Fld := ⟨0x54D70 + 128 * n + k, 0, 1, 0⟩

/-- New data wait for the frame in progress to end (R274). -/
def CO_AGAIN (n k : Nat) : Fld := ⟨0x54F70 + 128 * n + k, 0, 1, 0⟩

/-- The frame in progress is not retried (R272). -/
def CO_DROP (n k : Nat) : Fld := ⟨0x55170 + 128 * n + k, 0, 1, 0⟩

/-- Collision run (R285). -/
def CO_RUN (n k : Nat) : Fld := ⟨0x55370 + 128 * n + k, 0, 8, 0⟩

/-- STOPPED (R285). -/
def CO_STOP (n k : Nat) : Fld := ⟨0x55570 + 128 * n + k, 0, 1, 0⟩

/-- LOST count (R268). -/
def CO_LOST (n k : Nat) : Fld := ⟨0x55770 + 128 * n + k, 0, 8, 0⟩

/-- Task periods since the last successful transmission (R275). -/
def CO_TXAGE (n k : Nat) : Fld := ⟨0x55970 + 128 * n + k, 0, 8, 255⟩

/-- Task periods since the latched frame was stored (R279). -/
def CO_RXAGE (n k : Nat) : Fld := ⟨0x55B70 + 128 * n + k, 0, 8, 255⟩

/-- Frames stored since the previous latch (R279). -/
def CO_CNT (n k : Nat) : Fld := ⟨0x55D70 + 128 * n + k, 0, 8, 0⟩

/-- Grain at which the newest frame was stored, plus 1 (R279). -/
def CO_RXT (n k : Nat) : Fld := ⟨0x55F70 + 128 * n + k, 0, 64, 0⟩

/-- The frame before it, plus 1 (R279). -/
def CO_RXT2 (n k : Nat) : Fld := ⟨0x56170 + 128 * n + k, 0, 64, 0⟩

/-- Grain of the object's last check failure, plus 1 (R271). -/
def CO_FAILAT (n k : Nat) : Fld := ⟨0x56370 + 128 * n + k, 0, 64, 0⟩

/-- Object disabled until the next activation (R271). -/
def CO_DIS (n k : Nat) : Fld := ⟨0x56570 + 128 * n + k, 0, 1, 0⟩

/-- Tail of the submission ring as last polled (R293). -/
def SQ_TAIL (r : Nat) : Fld := ⟨0x56770 + r, 0, 12, 0⟩

/-- Head of the completion ring as last polled (R293). -/
def CQ_HEAD (r : Nat) : Fld := ⟨0x56780 + r, 0, 12, 0⟩

/-- Submission ring served next (R298). -/
def SQ_TURN : Fld := ⟨0x56790, 0, 4, 0⟩

/-- Consecutive failed reads of the doorbell page (R310). -/
def DB_FAILS : Fld := ⟨0x567A0, 0, 5, 0⟩

/-- Grain from which the next poll may start (R295). -/
def POLL_AT : Fld := ⟨0x567B0, 0, 64, 0⟩

/-- Grain at which the burst of polls ends (R295). -/
def BURST_END : Fld := ⟨0x567C0, 0, 64, 0⟩

/-- Completions of the vector posted and not yet signalled (R309). -/
def V_CNT (v : Nat) : Fld := ⟨0x567D0 + v, 0, 8, 0⟩

/-- Grain at which the oldest of them was posted (R309). -/
def V_AT (v : Nat) : Fld := ⟨0x567F0 + v, 0, 64, 0⟩

/-- Messages sent on the vector (R309). -/
def V_MSG (v : Nat) : Fld := ⟨0x56810 + v, 0, 32, 0⟩

/-- The function is in D3hot (R289). -/
def D3 : Fld := ⟨0x56830, 0, 1, 0⟩

/-- Grain at which the PCIe link came up (R320). -/
def PCIE_AT : Fld := ⟨0x56840, 0, 64, 0⟩

/-- PERST_N is asserted (R291). -/
def PERST : Fld := ⟨0x56850, 0, 1, 0⟩

/-- The capture window of the period is open (R312). -/
def SNAPW (t : Nat) : Fld := ⟨0x56860 + t, 0, 1, 0⟩

/-- Attempts made for the pending snapshot (R312). -/
def SNAP_TRY (t : Nat) : Fld := ⟨0x56870 + t, 0, 4, 0⟩

/-- Furlong of the task's last action instant (R313). -/
def LAST_F (t : Nat) : Fld := ⟨0x56880 + t, 0, 64, 0⟩

/-- Grain at which the next shadow heartbeat is due (R294). -/
def HEART_AT : Fld := ⟨0x56890, 0, 64, 0⟩

/-- Last answer to the initiator: 0 none, 1 RETRY, 2 done, 3 error (R324). -/
def BR_ANS (i : Nat) : Fld := ⟨0x568A0 + i, 0, 2, 0⟩

/-- Consecutive failed reads of the partner's alert word (R331). -/
def PAL_FAIL (k : Nat) : Fld := ⟨0x568B0 + k, 0, 2, 0⟩

/-- Grain at which the partner's heartbeat last changed, plus 1 (R331). -/
def PAL_HBAT (k : Nat) : Fld := ⟨0x568C0 + k, 0, 64, 0⟩

/-- The partner is lost until the link trains again (R331). -/
def PAL_LOST (k : Nat) : Fld := ⟨0x568D0 + k, 0, 1, 0⟩

/-- Grain of the last change of this device's heartbeat (R330). -/
def ALERT_AT : Fld := ⟨0x568E0, 0, 64, 0⟩

/-- Grain at which the semaphore was taken (R333). -/
def SEM_AT (n : Nat) : Fld := ⟨0x568F0 + n, 0, 64, 0⟩

/-- Consecutive valid TRAIN packets (R336). -/
def CL_ALIGN (k : Nat) : Fld := ⟨0x56930 + k, 0, 6, 0⟩

/-- Grain at which REFUSED or BACKOFF was entered (R336). -/
def CL_WAITAT (k : Nat) : Fld := ⟨0x56940 + k, 0, 64, 0⟩

/-- Grain at which the link reached UP (R352). -/
def CL_UPAT (k : Nat) : Fld := ⟨0x56950 + k, 0, 64, 0⟩

/-- Grain of the last retrain, plus 1 (R335). -/
def CL_RT1 (k : Nat) : Fld := ⟨0x56960 + k, 0, 64, 0⟩

/-- Grain of the retrain before it, plus 1 (R335). -/
def CL_RT2 (k : Nat) : Fld := ⟨0x56970 + k, 0, 64, 0⟩

/-- Replays of the oldest packet without acknowledgement (R335). -/
def CL_RPL (k : Nat) : Fld := ⟨0x56980 + k, 0, 3, 0⟩

/-- Sequence of the last packet sent (R334). -/
def CL_TXS (k : Nat) : Fld := ⟨0x56990 + k, 0, 8, 0⟩

/-- Sequence of the last good packet received (R334). -/
def CL_RXS (k : Nat) : Fld := ⟨0x569A0 + k, 0, 8, 0⟩

/-- Delay requests sent in this measurement (R336). -/
def CL_DREQ (k : Nat) : Fld := ⟨0x569B0 + k, 0, 7, 0⟩

/-- Valid delay exchanges of this measurement (R336). -/
def CL_DN (k : Nat) : Fld := ⟨0x569C0 + k, 0, 5, 0⟩

/-- T1 of the outstanding delay request, plus 1; 0 none (R336). -/
def CL_DT1 (k : Nat) : Fld := ⟨0x569D0 + k, 0, 64, 0⟩

/-- Exchange value times 2, two's complement (R336). -/
def CL_DX (k n : Nat) : Fld := ⟨0x569E0 + 16 * k + n, 0, 40, 0⟩

/-- Furlongs without a TIME packet (R344). -/
def GRP_TF : Fld := ⟨0x56A20, 0, 4, 0⟩

/-- The record of the import is being read (R346). -/
def IMP_ON (i : Nat) : Fld := ⟨0x56A30 + i, 0, 1, 0⟩

/-- Bytes of the record read so far (R346). -/
def IMP_POS (i : Nat) : Fld := ⟨0x56A40 + i, 0, 12, 0⟩

/-- The import has been read for the action instant in progress (R346). -/
def IMP_DONE (i : Nat) : Fld := ⟨0x56A50 + i, 0, 1, 0⟩

/-- The lane has accepted the record of this action instant (R346). -/
def IMP_ACC (l i : Nat) : Fld := ⟨0x56A60 + 12 * l + i, 0, 1, 0⟩

/-- First check that failed in the lane, plus 1; 0 none (R346). -/
def IMP_CHK (l i : Nat) : Fld := ⟨0x56A90 + 12 * l + i, 0, 3, 0⟩

/-- Sequence the lane accepted last (R346). -/
def IMP_SEQ (l i : Nat) : Fld := ⟨0x56AC0 + 12 * l + i, 0, 32, 0⟩

/-- Epoch of that acceptance, plus 1; 0 none (R346). -/
def IMP_SEQE (l i : Nat) : Fld := ⟨0x56AF0 + 12 * l + i, 0, 32, 0⟩

/-- Age in task periods (R348). -/
def IMP_AGE (i : Nat) : Fld := ⟨0x56B20 + i, 0, 8, 255⟩

/-- Stale (R348). -/
def IMP_STALE (i : Nat) : Fld := ⟨0x56B30 + i, 0, 1, 1⟩

/-- Records not received (R351). -/
def IMP_REJ (i : Nat) : Fld := ⟨0x56B40 + i, 0, 16, 0⟩

/-- Task periods the import has been stale (R348). -/
def IMP_STP (i : Nat) : Fld := ⟨0x56B50 + i, 0, 16, 0⟩

/-- Last exported sequence (R345). -/
def EXP_SEQ (x : Nat) : Fld := ⟨0x56B60 + x, 0, 32, 0⟩

/-- Furlong of the last export not ready by its deadline, plus 1 (R330). -/
def EXP_LATEF (x : Nat) : Fld := ⟨0x56B70 + x, 0, 64, 0⟩

/-- Samples of this action instant wait for agreement: 1 the task's, 2 those of its permits alone (R79). -/
def AGREE (t : Nat) : Fld := ⟨0x56B80 + t, 0, 2, 0⟩

/-- Grain of the action instant whose samples wait (R345). -/
def AGREE_A (t : Nat) : Fld := ⟨0x56B90 + t, 0, 64, 0⟩

/-- Safety sequence of the lane's latched copy, plus 1; 0 none (R81). -/
def FLL_SEQ (l f : Nat) : Fld := ⟨0x56BA0 + 512 * l + f, 0, 33, 0⟩

/-- The agreed period was below 2500 grains at the last action instant (R162). -/
def OVSPD (c : Nat) : Fld := ⟨0x571A0 + c, 0, 1, 0⟩

/-- E_L of a lead, E_S of a standby, in furlongs (R359). -/
def TW_E : Fld := ⟨0x571E0, 0, 64, 0⟩

/-- Sequence of the last lease message formed (R356). -/
def TW_SEQ : Fld := ⟨0x571F0, 0, 32, 0⟩

/-- Sequence of the last message the lane accepted (R357). -/
def TW_RSEQ (l : Nat) : Fld := ⟨0x57200 + l, 0, 32, 0⟩

/-- Epoch of that acceptance, plus 1; 0 none (R357). -/
def TW_RSEQE (l : Nat) : Fld := ⟨0x57210 + l, 0, 32, 0⟩

/-- Sequence of the last accepted message, plus 1 (R357). -/
def TW_ASEQ : Fld := ⟨0x57220, 0, 33, 0⟩

/-- Grain of the last accepted message, plus 1 (R363). -/
def TW_HEARD : Fld := ⟨0x57230, 0, 64, 0⟩

/-- Grain of the last accepted grant, plus 1 (R360). -/
def TW_GRANT_AT : Fld := ⟨0x57240, 0, 64, 0⟩

/-- Grain of the lease task's last staging, plus 1 (R360). -/
def TW_LSTG : Fld := ⟨0x57250, 0, 64, 0⟩

/-- Grain of the staging before it, plus 1 (R360). -/
def TW_LSTG2 : Fld := ⟨0x57260, 0, 64, 0⟩

/-- Network time of the expiry instant at the takeover (R367). -/
def TW_TKE : Fld := ⟨0x57270, 0, 64, 0⟩

/-- Both units were in RUN at the last lease-task action instant (R373). -/
def TW_BOTH : Fld := ⟨0x57280, 0, 1, 1⟩

/-- Furlong of the period whose records are missing, plus 1 (R372). -/
def TW_MISSF (t : Nat) : Fld := ⟨0x57290 + t, 0, 64, 0⟩

/-- The last accepted message had SOLO set and no RELINQUISH (R362). -/
def TW_PSOLO : Fld := ⟨0x572A0, 0, 1, 0⟩

/-- The last accepted message carried RELINQUISH (R364). -/
def TW_PREL : Fld := ⟨0x572B0, 0, 1, 0⟩

/-- An accepted solo request waits for the lease task's action instant (R363). -/
def TW_SOLOP : Fld := ⟨0x572C0, 0, 1, 0⟩

/-- Its source: 0 register, 1 ring (R363). -/
def TW_SOLOSRC : Fld := ⟨0x572D0, 0, 1, 0⟩

/-- This unit has relinquished and takes no part until it starts again (R364). -/
def TW_OUTF : Fld := ⟨0x572E0, 0, 1, 0⟩

/-- A message came over the link in this lease-task period (R376). -/
def TW_CLF : Fld := ⟨0x572F0, 0, 1, 0⟩

/-- A message came over the network in this lease-task period (R376). -/
def TW_TNF : Fld := ⟨0x57300, 0, 1, 0⟩

/-- Furlong of the takeover instant, plus 1; 0 none (R367). -/
def TW_ATKO : Fld := ⟨0x57310, 0, 64, 0⟩

/-- Mirror sequence of the task's last record sent (R369). -/
def TW_MSEQ (t : Nat) : Fld := ⟨0x57320 + t, 0, 32, 0⟩

/-- Mirror sequence the lane accepted last (R370). -/
def TW_MRSEQ (l t : Nat) : Fld := ⟨0x57330 + 16 * l + t, 0, 32, 0⟩

/-- Epoch of that acceptance, plus 1; 0 none (R370). -/
def TW_MRSEQE (l t : Nat) : Fld := ⟨0x57360 + 16 * l + t, 0, 32, 0⟩

/-- Furlong of the last accepted record A, plus 1 (R371). -/
def TW_RA (t : Nat) : Fld := ⟨0x57390 + t, 0, 64, 0⟩

/-- Furlong of the last accepted record B, plus 1 (R371). -/
def TW_RB (t : Nat) : Fld := ⟨0x573A0 + t, 0, 64, 0⟩

/-- Record B and the shadow balance of the period have been compared (R371). -/
def TW_BCMP (t : Nat) : Fld := ⟨0x573B0 + t, 0, 1, 0⟩

/-- Formation furlong of the last accepted lead message, plus 1 (R372). -/
def TW_MSGF : Fld := ⟨0x573C0, 0, 64, 0⟩

/-- Bytes of the state image sent to the standby so far (R374). -/
def TW_XFER (t : Nat) : Fld := ⟨0x573D0 + t, 0, 20, 0⟩

/-- The standby has asked for the task's state (R374). -/
def TW_XREQ (t : Nat) : Fld := ⟨0x573E0 + t, 0, 1, 0⟩

/-- Bytes of the state image received so far (R374). -/
def TW_RXOFF (t : Nat) : Fld := ⟨0x573F0 + t, 0, 20, 0⟩

/-- A transfer of the task's state is in progress (R374). -/
def TW_RXON (t : Nat) : Fld := ⟨0x57400 + t, 0, 1, 0⟩

/-- Grain at which the transfer began (R374). -/
def TW_RXAT (t : Nat) : Fld := ⟨0x57410 + t, 0, 64, 0⟩

/-- Chunks received in the transfer (R374). -/
def TW_RXN (t : Nat) : Fld := ⟨0x57420 + t, 0, 16, 0⟩

/-- The LAST chunk waits for the action instant that applies it (R374). -/
def TW_LASTC (t : Nat) : Fld := ⟨0x57430 + t, 0, 1, 0⟩

/-- Length of the chunk that waits to be applied (R374). -/
def TW_CHLEN (t : Nat) : Fld := ⟨0x57440 + t, 0, 20, 0⟩

/-- Its offset in the state image (R374). -/
def TW_CHOFF (t : Nat) : Fld := ⟨0x57450 + t, 0, 20, 0⟩

/-- Sequence of the last snapshot request sent (R373). -/
def TW_QSEQ : Fld := ⟨0x57460, 0, 32, 0⟩

/-- Sequence of the last snapshot request the lane accepted (R373). -/
def TW_QRSEQ (l : Nat) : Fld := ⟨0x57470 + l, 0, 32, 0⟩

/-- The unit is unfit until its next start-up (R375). -/
def TW_UNFIT : Fld := ⟨0x57480, 0, 1, 0⟩

/-- The task's last staging was frozen (R355). -/
def TW_FZ (t : Nat) : Fld := ⟨0x57490 + t, 0, 1, 0⟩

/-- Node mask of the burst (R261). -/
def WB_MASK : Fld := ⟨0x574A0, 0, 64, 0⟩

/-- Outcome of the task's last balance (R313). -/
def BAL_OUT (t : Nat) : Fld := ⟨0x574B0 + t, 0, 3, 0⟩

/-- Its minority lane (R313). -/
def BAL_MIN (t : Nat) : Fld := ⟨0x574C0 + t, 0, 2, 0⟩

/-- The on-line change is complete in every task, or none has been made (R127). -/
def OLC_DONE : Fld := ⟨0x574D0, 0, 1, 1⟩

/-- Another snapshot write follows the running one (R127). -/
def SNAP_AGAIN : Fld := ⟨0x574E0, 0, 1, 0⟩

/-- Operating time as the always-on shadow keeps it (R382). -/
def AON_OPT : Fld := ⟨0x574F0, 0, 48, 0⟩

/-- Power-cycle count in the always-on shadow (R383). -/
def AON_PCYC : Fld := ⟨0x57500, 0, 32, 0⟩

/-- The always-on shadow is intact (R382). -/
def AON_OK : Fld := ⟨0x57510, 0, 1, 0⟩

/-- Power-cycle count in MRAM (R383). -/
def NV_PCYC : Fld := ⟨0x57520, 0, 32, 0⟩

/-- Rotating MRAM word written next (R382). -/
def OPT_IDX : Fld := ⟨0x57530, 0, 4, 0⟩

/-- Grain of the next step of operating time (R382). -/
def TICK_AT : Fld := ⟨0x57540, 0, 64, 0⟩

/-- Internal reset is held (R442). -/
def IN_RESET : Fld := ⟨0x57550, 0, 1, 0⟩

/-- Grain of the last command accepted from the session holder (R401). -/
def SES_AT : Fld := ⟨0x57560, 0, 64, 0⟩

/-- Session number (R406). -/
def SES_NO : Fld := ⟨0x57570, 0, 32, 0⟩

/-- Kind most recently opened, plus 1; 0 none (R402). -/
def SES_KIND : Fld := ⟨0x57580, 0, 3, 0⟩

/-- Bytes of the kind written in this session (R402). -/
def SES_N (k : Nat) : Fld := ⟨0x57590 + k, 0, 24, 0⟩

/-- The session's on-line change has been accepted (R401). -/
def SES_APPLIED : Fld := ⟨0x575A0, 0, 1, 0⟩

/-- Command ID last acted on from the source, plus 1 (R403). -/
def UPD_ID (c : Nat) : Fld := ⟨0x575B0 + c, 0, 17, 0⟩

/-- Status last answered to the source (R403). -/
def UPD_LST (c : Nat) : Fld := ⟨0x575C0 + c, 0, 16, 0⟩

/-- Result last answered to the source (R403). -/
def UPD_LRES (c : Nat) : Fld := ⟨0x575D0 + c, 0, 32, 0⟩

/-- Opcode last answered to the source (R403). -/
def UPD_LOP (c : Nat) : Fld := ⟨0x575E0 + c, 0, 8, 0⟩

/-- Source whose UPD_APPLY_ONLINE message waits for its answer, 0 none (R403). -/
def OLC_ASK : Fld := ⟨0x575F0, 0, 2, 0⟩

/-- The host's session is relayed to the twin partner (R403). -/
def REL_ON : Fld := ⟨0x57600, 0, 1, 0⟩

/-- Command ID of the last relayed message (R403). -/
def REL_ID : Fld := ⟨0x57610, 0, 16, 0⟩

/-- A relayed message waits for the partner's answer (R403). -/
def REL_BUSY : Fld := ⟨0x57620, 0, 1, 0⟩

/-- Byte offset of the next piece of a relayed write (R403). -/
def REL_OFF : Fld := ⟨0x57630, 0, 32, 0⟩

/-- Bytes of a relayed write sent so far (R403). -/
def REL_POS : Fld := ⟨0x57640, 0, 17, 0⟩

/-- Length of a relayed write (R403). -/
def REL_LEN : Fld := ⟨0x57650, 0, 17, 0⟩

/-- The running image of the kind is valid (R407). -/
def KIND_OK (k : Nat) : Fld := ⟨0x57660 + k, 0, 1, 0⟩

/-- Journal state in MRAM (R407). -/
def NV_JSTATE : Fld := ⟨0x57670, 0, 3, 0⟩

/-- Kinds that the journal header names (R407). -/
def NV_JKINDS : Fld := ⟨0x57680, 0, 5, 0⟩

/-- Settings pointer in MRAM (R409). -/
def NV_SETACT : Fld := ⟨0x57690, 0, 1, 0⟩

/-- Last session number, in MRAM (R406). -/
def NV_SESNO : Fld := ⟨0x576A0, 0, 32, 0⟩

/-- Fuse positions burned (R400). -/
def NV_FUSE : Fld := ⟨0x576B0, 0, 9, 0⟩

/-- Operating time at which probation began (R410). -/
def PROB_FROM : Fld := ⟨0x576C0, 0, 48, 0⟩

/-- Activation pause: 0 none, 1 accepted, 2 firmware tested, 3 logic image loaded, 4 configuration set applied (R409). -/
def ACT_STEP : Fld := ⟨0x576D0, 0, 3, 0⟩

/-- Grain at which the activation was accepted (R409). -/
def ACT_AT : Fld := ⟨0x576E0, 0, 64, 0⟩

/-- Source of the activation (R409). -/
def ACT_SRC : Fld := ⟨0x576F0, 0, 2, 0⟩

/-- The firmware in probation has passed its self-test (R410). -/
def FW_TESTED : Fld := ⟨0x57700, 0, 1, 1⟩

/-- A fallback waits for its snapshot (R412). -/
def FB_PEND : Fld := ⟨0x57710, 0, 1, 0⟩

/-- Its cause (R412). -/
def FB_CAUSE : Fld := ⟨0x57720, 0, 2, 0⟩

/-- Grain of the first rising edge of the SDCLKs after the activation of the configuration set (R155). -/
def SDCLK_T0 : Fld := ⟨0x57730, 0, 64, 0⟩

/-- Opcode of the relayed command in progress (R403). -/
def REL_OP : Fld := ⟨0x57740, 0, 8, 0⟩

/-- Power state: 0 RUN, 1 IDLE, 2 SLEEP, 3 DEEP SLEEP, 4 OFF (R418). -/
def PW_STATE : Fld := ⟨0x57750, 0, 3, 0⟩

/-- Entry in progress: 1 waiting for consent, 2 for the snapshot, 3 stopping; 0 none (R420). -/
def PW_PHASE : Fld := ⟨0x57760, 0, 2, 0⟩

/-- Target of the entry in progress (R419). -/
def PW_TGT : Fld := ⟨0x57770, 0, 3, 0⟩

/-- Grain at which the request was accepted (R420). -/
def PW_AT : Fld := ⟨0x57780, 0, 64, 0⟩

/-- Grain at which the block was asked (R422). -/
def PW_ASK_AT : Fld := ⟨0x57790, 0, 64, 0⟩

/-- Parking of the task: 1 safe values staged, 2 launched (R421). -/
def PARKED (t : Nat) : Fld := ⟨0x577A0 + t, 0, 2, 0⟩

/-- Power request presented at the request task's last staging (R419). -/
def PW_STG : Fld := ⟨0x577B0, 0, 3, 0⟩

/-- A request staged by the request task is taken at its action instant (R62). -/
def PW_FWD : Fld := ⟨0x577C0, 0, 1, 0⟩

/-- Start-up: 0 waits for MRAM, 1 for the logic image, 2 for the configuration set, 3 complete (R450). -/
def START_STEP : Fld := ⟨0x577D0, 0, 2, 0⟩

/-- Cause of the start in progress (R434). -/
def START_CAUSE : Fld := ⟨0x577E0, 0, 3, 0⟩

/-- Microseconds from S to the release of internal reset (R450). -/
def START_US : Fld := ⟨0x577F0, 0, 16, 0⟩

/-- A local scan has started since the start-up (R455). -/
def SCAN_SEEN : Fld := ⟨0x57800, 0, 1, 0⟩

/-- Wake step in progress: 1 regulator, 2 oscillator, 3 memory, 4 logic; 0 none (R428). -/
def WK_STEP : Fld := ⟨0x57810, 0, 3, 0⟩

/-- Source of the wake, as PWR_WAKE.SRC (R433). -/
def WK_SRC : Fld := ⟨0x57820, 0, 4, 0⟩

/-- State being left (R431). -/
def WK_FROM : Fld := ⟨0x57830, 0, 3, 0⟩

/-- Microseconds of the wake so far (R433). -/
def WK_US : Fld := ⟨0x57840, 0, 32, 0⟩

/-- Attempt of the series (R431). -/
def WK_TRY : Fld := ⟨0x57850, 0, 2, 0⟩

/-- Powered down before a retry (R431). -/
def WK_DOWN : Fld := ⟨0x57860, 0, 1, 0⟩

/-- Selected retention banks that failed their check at this wake (R426). -/
def WK_LOST : Fld := ⟨0x57870, 0, 23, 0⟩

/-- Retention banks kept at entry to DEEP SLEEP (R426). -/
def WK_KEEP : Fld := ⟨0x57880, 0, 23, 0⟩

/-- CRC-32C of a retained bank in the always-on domain (R426). -/
def RET_CRC (b : Nat) : Fld := ⟨0x57890 + b, 0, 32, 0⟩

/-- Wake-fault code words kept (R431). -/
def WF_N : Fld := ⟨0x578B0, 0, 4, 0⟩

/-- A wake-fault code word (R431). -/
def WF_CODE (i : Nat) : Fld := ⟨0x578C0 + i, 0, 32, 0⟩

/-- Code words dropped (R431). -/
def WF_DROPS : Fld := ⟨0x578D0, 0, 8, 0⟩

/-- The device stays in OFF with FAULT_N driven low (R431). -/
def WF_FINAL : Fld := ⟨0x578E0, 0, 1, 0⟩

/-- PCIE_WAKE_N is driven low (R429). -/
def PCIE_WAKE : Fld := ⟨0x578F0, 0, 1, 0⟩

/-- Level of TEST_EN (R438). -/
def TEST_EN : Fld := ⟨0x57900, 0, 1, 0⟩

/-- PORST_N is recognised low (R451). -/
def PORST_LOW : Fld := ⟨0x57910, 0, 1, 0⟩

/-- A PORST_N reset waits for the end of the PFAIL_N sequence (R451). -/
def PORST_DEFER : Fld := ⟨0x57920, 0, 1, 0⟩

/-- Grain at which PFAIL_N was asserted (R389). -/
def PFAIL_AT : Fld := ⟨0x57930, 0, 64, 0⟩

/-- The PFAIL_N sequence is in progress (R389). -/
def PFAIL_SEQ : Fld := ⟨0x57940, 0, 1, 0⟩

/-- Internal reset has been released since the last reset (R450). -/
def RELEASED : Fld := ⟨0x57950, 0, 1, 0⟩

/-- The lane failed the self-check of the wake in progress (R465). -/
def WK_FAIL (l : Nat) : Fld := ⟨0x57960 + l, 0, 1, 0⟩

/-- Instruction in the TAP: 0 BYPASS, 1 IDCODE, 2 SAMPLE/PRELOAD, 3 EXTEST (R9). -/
def TAP_IR : Fld := ⟨0x57970, 0, 2, 1⟩

/-- What the TAP register selected by the instruction has captured (R5). -/
def TAP_DR : Fld := ⟨0x57980, 0, 32, 331763323⟩

/-- The running image of the kind failed its digest at the start (R417). -/
def START_BAD (k : Nat) : Fld := ⟨0x57990 + k, 0, 1, 0⟩

/-- Grain of the task's last staging, plus 1 (R68). -/
def STG_AT (t : Nat) : Fld := ⟨0x579A0 + t, 0, 64, 0⟩

/-- Last launched: 0 nothing yet, 1 voted image, 2 safe values (R68). -/
def LCH_KIND (t : Nat) : Fld := ⟨0x579B0 + t, 0, 2, 0⟩

/-- Pad level to compare with the readback of this action instant, plus 1; 0 not compared (R191). -/
def CMP_LVL (g : Nat) : Fld := ⟨0x579C0 + g, 0, 2, 0⟩

/-- The MDIO access in progress is a write (R203). -/
def MDIO_WRITE : Fld := ⟨0x579D0, 0, 1, 0⟩

/-- Grain of the last assay trigger against the lane, plus 1 (R100) -/
def TRIG_AT (l : Nat) : Fld := ⟨0x579E0 + l, 0, 64, 0⟩

/-- Task concerned by the last assay trigger against the lane, 0xFFFF none (R100) -/
def TRIG_TASK (l : Nat) : Fld := ⟨0x579F0 + l, 0, 16, 65535⟩

/-- A seed copy has finished in time: the lane joins the task's vote at its next action instant (R102) -/
def SEED_JOIN (l t : Nat) : Fld := ⟨0x57A00 + 16 * l + t, 0, 1, 0⟩

/-- Pad cell that the task's vote exercise of this period uses, 2 × channel + side, plus 1; 0 none (R95) -/
def VEX_CELL (t : Nat) : Fld := ⟨0x57A30 + t, 0, 8, 0⟩

/-- Grain at which the task's exercised pad enable was inverted, plus 1 (R95) -/
def VEX_AT (t : Nat) : Fld := ⟨0x57A40 + t, 0, 64, 0⟩

/-- Grain of the SAFEOK output's last scheduled change (R107) -/
def SAFEOK_AT (l : Nat) : Fld := ⟨0x57A50 + l, 0, 64, 0⟩

/-- Level of the pad before the channel's last launch (R31) -/
def PREV_PAD (c p : Nat) : Fld := ⟨0x57A60 + 2 * c + p, 0, 1, 0⟩

/-- Grain of the channel's last launch, plus 1 (R31) -/
def LAUNCH_AT (c : Nat) : Fld := ⟨0x57AE0 + c, 0, 64, 0⟩

/-- The pace reference has changed: its next action instant begins the first period that is measured (R64) -/
def PACE_NEW : Fld := ⟨0x57B20, 0, 1, 1⟩

/-- A period of the pace reference task has ended and its paces have not been compared yet (R94) -/
def PACE_DUE : Fld := ⟨0x57B30, 0, 1, 0⟩

/-- Operating time in ms, low 32 bits, from which the next periodic snapshot counts (R127). -/
def SNAP_OP : Fld := ⟨0x57B40, 0, 32, 0⟩

/-- A start-up or an activation is past and AUTORUN may still enter RUN for it (R123). -/
def AUTO_DUE : Fld := ⟨0x57B50, 0, 1, 1⟩

/-- The maintenance permit has become false since a safety force was set at entry f (R142). -/
def FORCE_LOST (f : Nat) : Fld := ⟨0x57B60 + f, 0, 1, 0⟩

/-- Grain of the last change of a debounced level, or of the start of its filter (R149). -/
def DEB_AT (l c p : Nat) : Fld := ⟨0x57D60 + 128 * l + 2 * c + p, 0, 64, 0⟩

/-- Result of the third newest window (R158). -/
def SD_R3 (l c : Nat) : Fld := ⟨0x57EE0 + 64 * l + c, 0, 24, 0⟩

/-- Number plus 1 of the third newest window; 0 none (R158). -/
def SD_WIN3 (l c : Nat) : Fld := ⟨0x57FA0 + 64 * l + c, 0, 64, 0⟩

/-- Grain of the last launching SDCLK edge of the third newest window (R158). -/
def SD_EDGE3 (l c : Nat) : Fld := ⟨0x58060 + 64 * l + c, 0, 64, 0⟩

/-- The third newest window is over range (R159). -/
def SD_OVR3 (l c : Nat) : Fld := ⟨0x58120 + 64 * l + c, 0, 1, 0⟩

/-- Grain at which the lane reported the SD clock fault (R159). -/
def SD_FLT_AT (l c : Nat) : Fld := ⟨0x581E0 + 64 * l + c, 0, 64, 0⟩

/-- Number plus 1 of an overrange window that one lane alone has seen so far; 0 none (R159, R175). -/
def SD_OVW (c : Nat) : Fld := ⟨0x582A0 + c, 0, 64, 0⟩

/-- That lane: 1 LA, 2 LB, 3 LC (R175). -/
def SD_OVL (c : Nat) : Fld := ⟨0x582E0 + c, 0, 2, 0⟩

/-- Its result lies at the high end (R175). -/
def SD_OVH (c : Nat) : Fld := ⟨0x58320 + c, 0, 1, 0⟩

/-- Direction of travel that the last accepted edge showed, 1 forward (R161). -/
def SPD_LASTDIR (l c : Nat) : Fld := ⟨0x58360 + 64 * l + c, 0, 1, 0⟩

/-- Grain plus 1 of the last accepted edge of a phase; 0 none (R160). -/
def SPD_EDGE (l c p : Nat) : Fld := ⟨0x58420 + 128 * l + 2 * c + p, 0, 64, 0⟩

/-- Operating time in ms, low 32 bits, at which the last start-up applied its configuration set (R187). -/
def START_OP : Fld := ⟨0x585A0, 0, 32, 0⟩

/-- How often the active bank has been reloaded from the configuration set (R216). -/
def ROD_RELOADS : Fld := ⟨0x585B0, 0, 32, 0⟩

/-- Furlong of the last reload, plus 1; 0 for none (R216). -/
def ROD_RELOAD_F : Fld := ⟨0x585C0, 0, 64, 0⟩

/-- The bank that was active before the last switch (R230). -/
def PREV_BANK : Fld := ⟨0x585D0, 0, 1, 0⟩

/-- Furlong of the last switch, plus 1; 0 for none (R230). -/
def SWITCH_F : Fld := ⟨0x585E0, 0, 64, 0⟩

/-- Network time right after its last step: rods that began before it are not taken (R260). -/
def STEP_NET : Fld := ⟨0x585F0, 0, 64, 0⟩

/-- Furlong whose boundary was judged last (R234, log 3). -/
def BND_F : Fld := ⟨0x58600, 0, 64, 0⟩

/-- Furlong whose last rod end the flow has passed, plus 1 (R225). -/
def FL_ENDF (f : Nat) : Fld := ⟨0x58610 + f, 0, 64, 0⟩

/-- Furlong whose correction has been computed, plus 1 (R241). -/
def CORR_F : Fld := ⟨0x58810, 0, 64, 0⟩

/-- Free-running arrival of the first copy of the sender's last COLDSTART, plus 1 (R250). -/
def COLD_AT (n : Nat) : Fld := ⟨0x58820 + n, 0, 64, 0⟩

/-- Network time at which the last open frame on the port has left (R229). -/
def OPEN_END (p : Nat) : Fld := ⟨0x58860 + p, 0, 64, 0⟩

/-- Arrival of the last frame on the port whose FCS or header CRC failure was counted, plus 1 (R206). -/
def BAD_AT (p : Nat) : Fld := ⟨0x58870 + p, 0, 64, 0⟩

/-- Free-running grain at which the bus integration after a protocol exception event ends (R266). -/
def CN_INTEG (n : Nat) : Fld := ⟨0x58880 + n, 0, 64, 0⟩

/-- Free-running grain at which the next read of a partner's alert word falls due (R329). -/
def PAL_AT (p : Nat) : Fld := ⟨0x588C0 + p, 0, 64, 0⟩

/-- Free-running grain at which an initiator presented its held read (R325). -/
def HELD_AT (i : Nat) : Fld := ⟨0x588D0 + i, 0, 64, 0⟩

/-- Epoch of the lane in which it last accepted a snapshot request, plus 1 (R346, R373). -/
def TW_QRSEQE (l : Nat) : Fld := ⟨0x58910 + l, 0, 64, 0⟩

/-- Operating time, in ms, at the last periodic writing of the operating time to MRAM, or at the start (R382). -/
def OPT_OP : Fld := ⟨0x58920, 0, 48, 0⟩

/-- The inactive settings copy has been marked invalid, in MRAM (R408, R416). -/
def NV_SETBAD : Fld := ⟨0x58930, 0, 1, 0⟩

/-- What the boundary register's update stage holds for the field pins: bit 2c + p is the level that EXTEST drives on pin p of channel c (R9, R438) -/
def TAP_BSR : Fld := ⟨0x58940, 0, 128, 0⟩

end Hid
end Sys2Proof.Machine
end

