-- ==== Sys2Proof/Machine/MemMap.lean ====
section
/-! DEFINITION. Where each byte memory of the device lies in the one address space of the table `mem`. The first
16 MiB are BAR2 as R28 lays it out; memories that BAR2 does not show follow it, in places of the model's choosing. -/

namespace Sys2Proof.Machine

/-- A lane's 2 MiB window (R28). -/
def laneBase (l : Lane) : Nat := 0x200000 * l.idx

/-- Program memory of a lane. -/
def progBase (l : Lane) : Nat := laneBase l
/-- Data memory of a lane. -/
def dataBase (l : Lane) : Nat := laneBase l + 0x100000
/-- Input image of a lane. -/
def inBase (l : Lane) : Nat := laneBase l + 0x180000
/-- Output image of a lane. -/
def outBase (l : Lane) : Nat := laneBase l + 0x190000
/-- Timer instances of a lane. -/
def timerBase (l : Lane) : Nat := laneBase l + 0x1A0000
/-- Counter instances of a lane. -/
def counterBase (l : Lane) : Nat := laneBase l + 0x1B0000
/-- Edge bits of a lane. -/
def edgeBase (l : Lane) : Nat := laneBase l + 0x1C0000

/-- The base of an operand space in a lane (R39). -/
def spBase (sp : Space) (l : Lane) : Nat :=
  match sp with
  | .I => inBase l
  | .Q => outBase l
  | .M => dataBase l

/-- The MRAM image area (4 MiB). -/
def imageArea : Nat := 0x600000
/-- The flow buffers, 2 KiB each (R28). -/
def flowBuf (f : Nat) : Nat := 0xA00000 + 0x800 * f
/-- A flow's substitute image, from the configuration set (R217, R219, R226). -/
def flowSubst (f : Nat) : Nat := flowBuf f + 0x5C0
/-- The CAN message memory, 16 KiB each controller and 128 bytes each object (R28). -/
def canMem (n k : Nat) : Nat := 0xB00000 + 0x4000 * n + 0x80 * k
/-- The founding area of the recorder (R384). -/
def foundingSlot (i : Nat) : Nat := 0xC00000 + 32 * i
/-- The rolling area of the recorder (R384). -/
def rollingSlot (i : Nat) : Nat := 0xC40000 + 32 * i

/-- The values staged at the last staging point of each task, by output-image address (R67, R68). -/
def stagedImg : Nat := 0x1000000
/-- The values launched at the last action instant of each task. -/
def launchedImg : Nat := 0x1010000
/-- The last voted output image (R67). -/
def votedImg : Nat := 0x1020000
/-- The agreed input image, one copy; the lanes' input slices hold the same values (R67). -/
def agreedImg : Nat := 0x1030000
/-- What each source last delivered as agreed before forces (R81, R169). -/
def heldImg : Nat := 0x1040000
/-- The agreement buffers: holder's copy of the image that lane `src` sampled, 64 KiB each, and past it of the SYS and FLOW
state that the shared blocks delivered to that lane (R79, R85). -/
def agreeBuf (holder src : Lane) : Nat := 0x4800000 + 0x60000 * holder.idx + 0x20000 * src.idx
/-- Where a task's SYS words lie past the image in an agreement buffer, and past the values held before forces. -/
def sysOff (t : Nat) : Nat := 0x10000 + 32 * t
/-- Where the latched state of a flow for a task lies there. -/
def flowStOff (t f : Nat) : Nat := 0x10400 + 4 * (512 * t + f)
/-- The staged values of each task before its output forces (R141, R142). -/
def unforcedImg : Nat := 0x1070000
/-- A lane's committed copy of the retained words, by data-memory address (R126). -/
def commitBase (l : Lane) : Nat := 0x1200000 + 0x80000 * l.idx
/-- A retained snapshot slot: a 32-byte header, then 64 KiB of data (R127). -/
def snapSlot (i : Nat) : Nat := 0x1400000 + 0x20000 * i
/-- The force table, 256 entries of 16 bytes, then its CRC-32C (R140). -/
def forceEntry (i : Nat) : Nat := 0x1450000 + 16 * i
/-- The CRC-32C of the force table. -/
def forceCrc : Nat := 0x1452000
/-- How far the instances of the code before an on-line change lie from the current ones: scans that began before the
switch end on that copy (R136, R137). -/
def oldBank (old : Bool) : Nat := if old then 0x1500000 else 0
/-- The data of a SEND flow that waits to be sent: 0 the newest, 1 the one before it (R220). -/
def sendBuf (f k : Nat) : Nat := 0x1C00000 + 0x1000 * f + 0x800 * k
/-- A lane's own held copy of a safety flow: payload, and the header and trailer at 0x7C0 (R81, R226). -/
def laneFlow (l : Lane) (f : Nat) : Nat := 0x1E00000 + 0x100000 * l.idx + 0x800 * f
/-- The data of a CAN object's newest request (R272, R274). -/
def canReq (n k : Nat) : Nat := 0x2200000 + 0x10000 * n + 0x100 * k
/-- The data staged for its next request (R272). -/
def canStaged (n k : Nat) : Nat := 0x2200040 + 0x10000 * n + 0x100 * k
/-- Words 9 to 11 and the data of the frame stored before the newest (R279). -/
def canPrev (n k : Nat) : Nat := 0x2200080 + 0x10000 * n + 0x100 * k
/-- The data of the frame in progress (R274). -/
def canFly (n : Nat) : Nat := 0x2260000 + 0x40 * n
/-- The live copy of a force, as its task's last staging took it (R141). -/
def forceLive (i : Nat) : Nat := 0x1453000 + 16 * i
/-- The record of an import as a lane has read it so far (R346). -/
def impBuf (l : Lane) (i : Nat) : Nat := 0x2300000 + 0x10000 * l.idx + 0x1000 * i
/-- The record of an import that the lane accepted last (R346). -/
def impRec (l : Lane) (i : Nat) : Nat := 0x2340000 + 0x10000 * l.idx + 0x1000 * i
/-- The data of the last received record of an import (R348). -/
def impHeld (i : Nat) : Nat := 0x2380000 + 0x1000 * i
/-- The export buffers, which the inbound window shows (R339, R345). -/
def expBuf (x : Nat) : Nat := 0x2390000 + 0x1000 * x
/-- The TWIN inbound window: mailbox, snapshot request, mirror slots and snapshot chunks, by inbound address (R368). -/
def twinWin (a : Nat) : Nat := 0x2400000 + a
/-- A lane's instances, edge bits and data memory as a twin task's scan began with them, for the deltas: data memory, then
timers, counters and edge bits (R369). -/
def twinBefore (l : Lane) : Nat := 0x3B00000 + 0x100000 * l.idx
/-- The last voted output image before HOLD was entered (R120). -/
def holdImg : Nat := 0x1060000
/-- A rotating word of operating time in MRAM: six bytes and their CRC-32C (R382). -/
def optWord (i : Nat) : Nat := 0x3A00000 + 16 * i
/-- The two settings copies in MRAM (R395). -/
def settingsCopy (i : Nat) : Nat := 0x4000000 + 0x100000 * i
/-- The undo area in MRAM: the saved copy of each image block (R395). -/
def undoArea : Nat := 0x4200000
/-- The journal entry of an image block (R406). -/
def undoEntry (b : Nat) : Nat := 0x45C0000 + 16 * b
/-- The certificate payload enrolled at a key index (R398). -/
def keyStore (i : Nat) : Nat := 0x4700000 + 0x1000 * i
/-- The staging place of a certificate (R402). -/
def stagedCert : Nat := 0x4710000
/-- A copy of the floor record (R400). -/
def floorRec (i : Nat) : Nat := 0x4720000 + 0x100 * i
/-- The nonce of the outstanding unlock challenge (R131). -/
def nonceAt : Nat := 0x4721000
/-- The data of a relayed update command that waits to be sent to the partner (R403). -/
def relayBuf : Nat := 0x4730000

end Sys2Proof.Machine
end

