-- ==== Sys2Proof/Machine/RegFields.lean ====
section
/-! DEFINITION. The register fields of BAR0, one name per field: its word address, lowest bit, width and
reset value, as the register tables of the spec give them. The parameter of an indexed register is its index
(task t, channel c, group g, controller n, ring r, vector v, link k, lane l, port p, word i, bit b).
The names are the manual's own: register, underscore, field. -/

namespace Sys2Proof.Machine
namespace Reg

/-! Registers of R2, spec/00_scope.md. -/
def GLB_IDENT_PART : Fld := ⟨0x0, 16, 16, 0x3C64⟩
def GLB_IDENT_STEP_MAJ : Fld := ⟨0x0, 8, 8, 0xA⟩
def GLB_IDENT_STEP_MIN : Fld := ⟨0x0, 0, 8, 0x1⟩

/-! Registers of R4, spec/00_scope.md. -/
def GLB_PCI_IDS_VENDOR : Fld := ⟨0x4, 0, 16, 0x1F2E⟩
def GLB_PCI_IDS_DEVICE : Fld := ⟨0x4, 16, 16, 0x3C64⟩
def GLB_PCI_REV_REV : Fld := ⟨0x8, 0, 8, 0x1⟩

/-! Registers of R76, spec/02_scan_engine.md. -/
def SCN_INFO_VER : Fld := ⟨0x4000, 0, 8, 0x1⟩
def SCN_INFO_CALLD : Fld := ⟨0x4000, 8, 8, 0x10⟩
def SCN_INFO_NESTD : Fld := ⟨0x4000, 16, 8, 0x20⟩
def SCN_INFO_TASKS : Fld := ⟨0x4000, 24, 8, 0x10⟩
def SCN_LAYOUT_HASH : Fld := ⟨0x4004, 0, 32, 0x0⟩
def SCN_PROG_INSTR : Fld := ⟨0x4008, 0, 19, 0x0⟩
def SCN_PROG_POUS : Fld := ⟨0x4008, 19, 11, 0x0⟩
def SCN_INST_TIMERS : Fld := ⟨0x400C, 0, 13, 0x0⟩
def SCN_INST_COUNTERS : Fld := ⟨0x400C, 16, 13, 0x0⟩
def SCN_EDGE_EDGES : Fld := ⟨0x4010, 0, 15, 0x0⟩
def SCN_CFG_PACE_TASK : Fld := ⟨0x4014, 0, 4, 0x0⟩
def SCN_CFG_USED : Fld := ⟨0x4014, 4, 4, 0x0⟩
def SCN_CFG_SUBST : Fld := ⟨0x4014, 8, 1, 0x0⟩
def SCN_CFG_NONE : Fld := ⟨0x4014, 9, 1, 0x1⟩
def SCN_EVT_ILL (l : Nat) : Fld := ⟨0x4018, 1 * l, 1, 0x0⟩
def SCN_ILLCNT_CNT (l : Nat) : Fld := ⟨0x401C, 8 * l, 8, 0x0⟩

/-! Registers of R77, spec/02_scan_engine.md. -/
def TSK_CFG_EN (t : Nat) : Fld := ⟨0x4400 + 64 * t, 0, 1, 0x0⟩
def TSK_CFG_SAFETY (t : Nat) : Fld := ⟨0x4400 + 64 * t, 1, 1, 0x0⟩
def TSK_CFG_MODE (t : Nat) : Fld := ⟨0x4400 + 64 * t, 2, 2, 0x0⟩
def TSK_CFG_FALLBACK (t : Nat) : Fld := ⟨0x4400 + 64 * t, 4, 2, 0x0⟩
def TSK_CFG_OVR (t : Nat) : Fld := ⟨0x4400 + 64 * t, 6, 1, 0x0⟩
def TSK_CFG_EDGE_COLD (t : Nat) : Fld := ⟨0x4400 + 64 * t, 7, 1, 0x0⟩
def TSK_CFG_PRIO (t : Nat) : Fld := ⟨0x4400 + 64 * t, 8, 4, 0x0⟩
def TSK_CFG_KPER (t : Nat) : Fld := ⟨0x4400 + 64 * t, 12, 6, 0x0⟩
def TSK_OFFSET_OFFSET (t : Nat) : Fld := ⟨0x4404 + 64 * t, 0, 25, 0x0⟩
def TSK_OFFSET_PHASE (t : Nat) : Fld := ⟨0x4404 + 64 * t, 25, 6, 0x0⟩
def TSK_LATE_LATE_PCT (t : Nat) : Fld := ⟨0x4408 + 64 * t, 0, 6, 0x5⟩
def TSK_LATE_SKIP_LIMIT (t : Nat) : Fld := ⟨0x4408 + 64 * t, 8, 8, 0x8⟩
def TSK_ISLICE_BASE (t : Nat) : Fld := ⟨0x440C + 64 * t, 0, 16, 0x0⟩
def TSK_ISLICE_LEN (t : Nat) : Fld := ⟨0x440C + 64 * t, 16, 16, 0x0⟩
def TSK_QSLICE_BASE (t : Nat) : Fld := ⟨0x4410 + 64 * t, 0, 16, 0x0⟩
def TSK_QSLICE_LEN (t : Nat) : Fld := ⟨0x4410 + 64 * t, 16, 16, 0x0⟩
def TSK_MWIN_BASE (t : Nat) : Fld := ⟨0x4414 + 64 * t, 0, 13, 0x0⟩
def TSK_MWIN_LEN (t : Nat) : Fld := ⟨0x4414 + 64 * t, 16, 14, 0x0⟩
def TSK_ROOT_POU (t : Nat) : Fld := ⟨0x4418 + 64 * t, 0, 10, 0x0⟩
def TSK_NMAX_N (t : Nat) : Fld := ⟨0x441C + 64 * t, 0, 24, 0x0⟩
def TSK_STATE_MODE (t : Nat) : Fld := ⟨0x4420 + 64 * t, 0, 2, 0x0⟩
def TSK_STATE_SKIPPING (t : Nat) : Fld := ⟨0x4420 + 64 * t, 2, 1, 0x0⟩
def TSK_STATE_TRIPPED (t : Nat) : Fld := ⟨0x4420 + 64 * t, 3, 1, 0x0⟩
def TSK_STATE_CONSEC (t : Nat) : Fld := ⟨0x4420 + 64 * t, 8, 8, 0x0⟩
def TSK_LAST_N_N (t : Nat) : Fld := ⟨0x4424 + 64 * t, 0, 24, 0x0⟩
def TSK_MAX_N_N (t : Nat) : Fld := ⟨0x4428 + 64 * t, 0, 24, 0x0⟩
def TSK_MARGIN_MIN_SLACK (t : Nat) : Fld := ⟨0x442C + 64 * t, 0, 23, 0x7FFFFF⟩
def TSK_EVT_OVERRUN (t : Nat) : Fld := ⟨0x4430 + 64 * t, 0, 1, 0x0⟩
def TSK_EVT_SKIP (t : Nat) : Fld := ⟨0x4430 + 64 * t, 1, 1, 0x0⟩
def TSK_EVT_DZ (t : Nat) : Fld := ⟨0x4430 + 64 * t, 2, 1, 0x0⟩
def TSK_EVT_NEST_OVF (t : Nat) : Fld := ⟨0x4430 + 64 * t, 3, 1, 0x0⟩
def TSK_EVT_NEST_IMBAL (t : Nat) : Fld := ⟨0x4430 + 64 * t, 4, 1, 0x0⟩
def TSK_EVT_CALL_OVF (t : Nat) : Fld := ⟨0x4430 + 64 * t, 5, 1, 0x0⟩
def TSK_EVT_INDEX (t : Nat) : Fld := ⟨0x4430 + 64 * t, 6, 1, 0x0⟩
def TSK_EVT_REFUSED (t : Nat) : Fld := ⟨0x4430 + 64 * t, 7, 1, 0x0⟩
def TSK_EVCNT0_OVERRUN_CNT (t : Nat) : Fld := ⟨0x4434 + 64 * t, 0, 16, 0x0⟩
def TSK_EVCNT0_SKIP_CNT (t : Nat) : Fld := ⟨0x4434 + 64 * t, 16, 16, 0x0⟩
def TSK_EVCNT1_DZ_CNT (t : Nat) : Fld := ⟨0x4438 + 64 * t, 0, 16, 0x0⟩
def TSK_EVCNT1_FAULT_CNT (t : Nat) : Fld := ⟨0x4438 + 64 * t, 16, 16, 0x0⟩
def TSK_CLR_MAXCLR (t : Nat) : Fld := ⟨0x443C + 64 * t, 0, 1, 0x0⟩

/-! Registers of R115, spec/03_three_lanes.md. -/
def LN_STATUS_ST (l : Nat) : Fld := ⟨0x3000, 4 * l, 3, 0x0⟩
def LN_STATUS_DUPLEX : Fld := ⟨0x3000, 12, 1, 0x0⟩
def LN_STATUS_SAFE : Fld := ⟨0x3000, 13, 1, 0x0⟩
def LN_PACE_PACE (l : Nat) : Fld := ⟨0x3004 + 4 * l, 0, 16, 0x0⟩
def LN_PACE_VALID (l : Nat) : Fld := ⟨0x3004 + 4 * l, 16, 1, 0x0⟩
def LN_PACE_WARN (l : Nat) : Fld := ⟨0x3004 + 4 * l, 17, 1, 0x0⟩
def LN_CFG_BUDGET : Fld := ⟨0x3010, 0, 4, 0x3⟩
def LN_EVT_DISSENT (l : Nat) : Fld := ⟨0x3014, 8 * l + 0, 1, 0⟩
def LN_EVT_LATE (l : Nat) : Fld := ⟨0x3014, 8 * l + 1, 1, 0⟩
def LN_EVT_ASSAY (l : Nat) : Fld := ⟨0x3014, 8 * l + 2, 1, 0⟩
def LN_EVT_TRANS (l : Nat) : Fld := ⟨0x3014, 8 * l + 3, 1, 0⟩
def LN_EVT_RETIRE (l : Nat) : Fld := ⟨0x3014, 8 * l + 4, 1, 0⟩
def LN_EVT_PACEW (l : Nat) : Fld := ⟨0x3014, 8 * l + 5, 1, 0⟩
def LN_EVT_TBF (l : Nat) : Fld := ⟨0x3014, 8 * l + 6, 1, 0⟩
def LN_EVT_PROBF (l : Nat) : Fld := ⟨0x3014, 8 * l + 7, 1, 0⟩
def LN_EVT_SECOND : Fld := ⟨0x3014, 24, 1, 0⟩
def LN_CNT_DISSENT_CNT (l : Nat) : Fld := ⟨0x3018 + 4 * l, 0, 8, 0x0⟩
def LN_CNT_LATE_CNT (l : Nat) : Fld := ⟨0x3018 + 4 * l, 8, 8, 0x0⟩
def LN_CNT_ASSAY_CNT (l : Nat) : Fld := ⟨0x3018 + 4 * l, 16, 8, 0x0⟩
def LN_CNT_TRANS_CNT (l : Nat) : Fld := ⟨0x3018 + 4 * l, 24, 8, 0x0⟩
def LN_TRANS_T24 (l : Nat) : Fld := ⟨0x3024, 4 * l, 4, 0x0⟩
def LN_ASSAY_LANE : Fld := ⟨0x3028, 0, 2, 0x0⟩
def LN_ASSAY_CAUSE : Fld := ⟨0x3028, 2, 4, 0x0⟩
def LN_ASSAY_RESULT : Fld := ⟨0x3028, 6, 3, 0x0⟩
def LN_ASSAY_DUR : Fld := ⟨0x3028, 16, 16, 0x0⟩
def LN_MODEREQ_TASK : Fld := ⟨0x302C, 0, 4, 0x0⟩
def LN_MODEREQ_MODE : Fld := ⟨0x302C, 4, 2, 0x0⟩
def LN_MODEREQ_GO : Fld := ⟨0x302C, 31, 1, 0x0⟩
def LN_MODESTAT_TASK : Fld := ⟨0x3030, 0, 4, 0x0⟩
def LN_MODESTAT_MODE : Fld := ⟨0x3030, 4, 2, 0x0⟩
def LN_MODESTAT_OUTCOME : Fld := ⟨0x3030, 6, 2, 0x0⟩
def LN_MODESTAT_REASON : Fld := ⟨0x3030, 8, 3, 0x0⟩
def LN_MAINT_UNRET (l : Nat) : Fld := ⟨0x3034, 1 * l, 1, 0x0⟩
def LN_TCHK_DEV (l : Nat) : Fld := ⟨0x3038, 8 * l, 8, 0x0⟩

/-! Registers of R116, spec/03_three_lanes.md. -/
def XCH_CFG_SD_LIMIT : Fld := ⟨0x3100, 0, 8, 0x4⟩
def XCH_STATUS_LINK_UP (b : Nat) : Fld := ⟨0x3104, b, 1, 0x0⟩
def XCH_EVT_SDFAULT (b : Nat) : Fld := ⟨0x3108, b, 1, 0x0⟩
def XCH_EVT_CHANFAULT : Fld := ⟨0x3108, 3, 1, 0x0⟩
def XCH_EVT_PROTO (b : Nat) : Fld := ⟨0x3108, 4 + b, 1, 0x0⟩
def XCH_EVT_BUFFAULT (b : Nat) : Fld := ⟨0x3108, 10 + b, 1, 0x0⟩
def XCH_SDCNT_CNT (l : Nat) : Fld := ⟨0x310C + 4 * l, 0, 32, 0x0⟩
def XCH_SDLAST_SRC : Fld := ⟨0x3118, 0, 12, 0x0⟩
def XCH_SDLAST_LANE : Fld := ⟨0x3118, 12, 2, 0x0⟩
def XCH_PROTOCNT_CNT : Fld := ⟨0x311C, 0, 16, 0x0⟩

/-! Registers of R117, spec/03_three_lanes.md. -/
def BAL_VEX_EVERY : Fld := ⟨0x3200, 0, 12, 0x100⟩
def BAL_VEX_EN : Fld := ⟨0x3200, 12, 1, 0x1⟩
def BAL_VEX_PAD_EN : Fld := ⟨0x3200, 13, 1, 0x1⟩
def BAL_VEXSTAT_NEXT_LANE : Fld := ⟨0x3204, 0, 2, 0x1⟩
def BAL_VEXSTAT_NEXT_CH : Fld := ⟨0x3204, 2, 6, 0x0⟩
def BAL_VEXSTAT_NEXT_SIDE : Fld := ⟨0x3204, 8, 1, 0x0⟩
def BAL_VEXSTAT_DONE : Fld := ⟨0x3204, 16, 16, 0x0⟩
def BAL_EVT_VERDICT (b : Nat) : Fld := ⟨0x3208, b, 1, 0x0⟩
def BAL_EVT_NOMAJ : Fld := ⟨0x3208, 3, 1, 0x0⟩
def BAL_EVT_PADFAULT : Fld := ⟨0x3208, 4, 1, 0x0⟩
def BAL_CNT_NOMAJ_CNT : Fld := ⟨0x320C, 0, 16, 0x0⟩
def BAL_CNT_VERDICT_CNT : Fld := ⟨0x320C, 16, 16, 0x0⟩
def BAL_PADF (c : Nat) : Fld := ⟨0x3210 + 4 * (c / 32), c % 32, 1, 0⟩
def BAL_FOLLOW (c : Nat) : Fld := ⟨0x3218 + 4 * (c / 16), 2 * (c % 16), 2, 0⟩
def BAL_LAST_TASK : Fld := ⟨0x3228, 0, 4, 0x0⟩
def BAL_LAST_OUTCOME : Fld := ⟨0x3228, 4, 3, 0x0⟩
def BAL_LAST_MINORITY : Fld := ⟨0x3228, 8, 2, 0x0⟩
def BAL_PADCLR_CLR : Fld := ⟨0x322C, 0, 1, 0x0⟩

/-! Registers of R144, spec/04_program_states.md. -/
def DBG_PSTATE_STATE : Fld := ⟨0x5000, 0, 2, 0x0⟩
def DBG_PSTATE_STAND : Fld := ⟨0x5000, 2, 1, 0x0⟩
def DBG_PSTATE_MAINT : Fld := ⟨0x5000, 3, 1, 0x0⟩
def DBG_PSTATE_UNLOCK : Fld := ⟨0x5000, 4, 1, 0x0⟩
def DBG_PSTATE_SCOPE (b : Nat) : Fld := ⟨0x5000, 5 + b, 1, 0x0⟩
def DBG_PSTATE_UNLOCK_S : Fld := ⟨0x5000, 16, 16, 0x0⟩
def DBG_PSREQ_TARGET : Fld := ⟨0x5004, 0, 2, 0x0⟩
def DBG_PSREQ_COLD : Fld := ⟨0x5004, 2, 1, 0x0⟩
def DBG_PSREQ_GO : Fld := ⟨0x5004, 31, 1, 0x0⟩
def DBG_PSSTAT_TARGET : Fld := ⟨0x5008, 0, 2, 0x0⟩
def DBG_PSSTAT_OUTCOME : Fld := ⟨0x5008, 2, 2, 0x0⟩
def DBG_PSSTAT_REASON : Fld := ⟨0x5008, 4, 4, 0x0⟩
def DBG_PERMIT_STAND_CH : Fld := ⟨0x500C, 0, 6, 0x0⟩
def DBG_PERMIT_STAND_EN : Fld := ⟨0x500C, 6, 1, 0x0⟩
def DBG_PERMIT_MAINT_CH : Fld := ⟨0x500C, 8, 6, 0x0⟩
def DBG_PERMIT_MAINT_EN : Fld := ⟨0x500C, 14, 1, 0x0⟩
def DBG_PERMIT_TASK : Fld := ⟨0x500C, 16, 4, 0x0⟩
def DBG_RCFG_AUTORUN : Fld := ⟨0x5010, 0, 1, 0x0⟩
def DBG_RCFG_COLD_ONLY : Fld := ⟨0x5010, 1, 1, 0x0⟩
def DBG_RCFG_SNAP_PERIOD : Fld := ⟨0x5010, 2, 12, 0x3C⟩
def DBG_RSTAT_LAST_KIND : Fld := ⟨0x5014, 0, 2, 0x0⟩
def DBG_RSTAT_COLD_REASON : Fld := ⟨0x5014, 2, 4, 0x0⟩
def DBG_RSTAT_SLOT_VALID : Fld := ⟨0x5014, 6, 2, 0x0⟩
def DBG_RSTAT_SLOT_USED : Fld := ⟨0x5014, 8, 1, 0x0⟩
def DBG_TRESTART_TASK : Fld := ⟨0x5018, 0, 4, 0x0⟩
def DBG_TRESTART_COLD : Fld := ⟨0x5018, 4, 1, 0x0⟩
def DBG_TRESTART_GO : Fld := ⟨0x5018, 31, 1, 0x0⟩
def DBG_TRSTAT_TASK : Fld := ⟨0x501C, 0, 4, 0x0⟩
def DBG_TRSTAT_OUTCOME : Fld := ⟨0x501C, 4, 2, 0x0⟩
def DBG_TRSTAT_REASON : Fld := ⟨0x501C, 6, 4, 0x0⟩
def DBG_UNLOCKSTAT_FAILS : Fld := ⟨0x5020, 0, 8, 0x0⟩
def DBG_UNLOCKSTAT_LOCKOUT : Fld := ⟨0x5020, 8, 1, 0x0⟩
def DBG_FSTAT_USED : Fld := ⟨0x5024, 0, 9, 0x0⟩
def DBG_FSTAT_SAFETY_ANY : Fld := ⟨0x5024, 9, 1, 0x0⟩
def DBG_OLC_STATE : Fld := ⟨0x5028, 0, 3, 0x0⟩
def DBG_OLC_ABORT : Fld := ⟨0x5028, 8, 4, 0x0⟩
def DBG_OLCF_F : Fld := ⟨0x502C, 0, 32, 0x0⟩
def DBG_TSTAT_HALTED (b : Nat) : Fld := ⟨0x5030, b, 1, 0x0⟩
def DBG_TSTAT_STOPPED (b : Nat) : Fld := ⟨0x5030, 16 + b, 1, 0x0⟩
def DBG_EVT_REFUSED : Fld := ⟨0x5034, 0, 1, 0x0⟩
def DBG_EVT_SNAPFAIL : Fld := ⟨0x5034, 1, 1, 0x0⟩
def DBG_EVT_COLDFB : Fld := ⟨0x5034, 2, 1, 0x0⟩
def DBG_EVT_HOLD_DISSENT : Fld := ⟨0x5034, 3, 1, 0x0⟩
def DBG_EVT_FORCE_DROP : Fld := ⟨0x5034, 4, 1, 0x0⟩
def DBG_EVT_FORCE_CRC : Fld := ⟨0x5034, 5, 1, 0x0⟩
def DBG_EVT_OLC_ABORT : Fld := ⟨0x5034, 6, 1, 0x0⟩
def DBG_EVT_UNLOCK_FAIL : Fld := ⟨0x5034, 7, 1, 0x0⟩
def DBG_EVCNT_REFUSED_CNT : Fld := ⟨0x5038, 0, 16, 0x0⟩
def DBG_EVCNT_FAULT_CNT : Fld := ⟨0x5038, 16, 16, 0x0⟩

/-! Registers of R145, spec/04_program_states.md. -/
def DBG_BP_INDEX (t i : Nat) : Fld := ⟨0x5100 + 64 * t + 4 * i, 0, 18, 0x0⟩
def DBG_BP_COUNT (t i : Nat) : Fld := ⟨0x5100 + 64 * t + 4 * i, 18, 8, 0x1⟩
def DBG_BP_EN (t i : Nat) : Fld := ⟨0x5100 + 64 * t + 4 * i, 31, 1, 0x0⟩
def DBG_HALT_PC (t : Nat) : Fld := ⟨0x5120 + 64 * t, 0, 18, 0x0⟩
def DBG_HALT_HALTED (t : Nat) : Fld := ⟨0x5120 + 64 * t, 18, 1, 0x0⟩
def DBG_HALT_BP_HIT (t : Nat) : Fld := ⟨0x5120 + 64 * t, 19, 1, 0x0⟩
def DBG_HALT_BP (t : Nat) : Fld := ⟨0x5120 + 64 * t, 20, 3, 0x0⟩
def DBG_HALT_LANES (t b : Nat) : Fld := ⟨0x5120 + 64 * t, 24 + b, 1, 0x0⟩
def DBG_HWA_WA (t : Nat) : Fld := ⟨0x5124 + 64 * t, 0, 32, 0x0⟩
def DBG_HWB_WB (t : Nat) : Fld := ⟨0x5128 + 64 * t, 0, 32, 0x0⟩
def DBG_HFLAGS_BA (t : Nat) : Fld := ⟨0x512C + 64 * t, 0, 1, 0x0⟩
def DBG_HFLAGS_CY (t : Nat) : Fld := ⟨0x512C + 64 * t, 1, 1, 0x0⟩
def DBG_HFLAGS_OV (t : Nat) : Fld := ⟨0x512C + 64 * t, 2, 1, 0x0⟩
def DBG_HFLAGS_DZ (t : Nat) : Fld := ⟨0x512C + 64 * t, 3, 1, 0x0⟩
def DBG_HFLAGS_NEST (t : Nat) : Fld := ⟨0x512C + 64 * t, 4, 6, 0x0⟩
def DBG_HFLAGS_CALL (t : Nat) : Fld := ⟨0x512C + 64 * t, 10, 5, 0x0⟩
def DBG_TCTL_STEP (t : Nat) : Fld := ⟨0x5130 + 64 * t, 0, 1, 0x0⟩
def DBG_TCTL_CONT (t : Nat) : Fld := ⟨0x5130 + 64 * t, 1, 1, 0x0⟩
def DBG_TCTL_HALTREQ (t : Nat) : Fld := ⟨0x5130 + 64 * t, 2, 1, 0x0⟩
def DBG_TCFG_HOLD_Q (t : Nat) : Fld := ⟨0x5134 + 64 * t, 0, 1, 0x0⟩
def DBG_TCFG_FPERM (t : Nat) : Fld := ⟨0x5134 + 64 * t, 1, 1, 0x0⟩

/-! Registers of R174, spec/05_field_channels.md. -/
def FC_CFG_MODE (c : Nat) : Fld := ⟨0x6000 + 64 * c, 0, 3, 0x0⟩
def FC_CFG_SAFETY (c : Nat) : Fld := ⟨0x6000 + 64 * c, 3, 1, 0x0⟩
def FC_CFG_WIRING (c : Nat) : Fld := ⟨0x6000 + 64 * c, 4, 1, 0x0⟩
def FC_CFG_SPMODE (c : Nat) : Fld := ⟨0x6000 + 64 * c, 5, 2, 0x0⟩
def FC_CFG_SDSRC (c : Nat) : Fld := ⟨0x6000 + 64 * c, 7, 2, 0x0⟩
def FC_CFG_OSR (c : Nat) : Fld := ⟨0x6000 + 64 * c, 9, 3, 0x0⟩
def FC_CFG_SAFE_DIR (c : Nat) : Fld := ⟨0x6000 + 64 * c, 12, 1, 0x0⟩
def FC_CFG_DLY (c : Nat) : Fld := ⟨0x6000 + 64 * c, 13, 4, 0x2⟩
def FC_FILT_DEB (c : Nat) : Fld := ⟨0x6004 + 64 * c, 0, 12, 0x0⟩
def FC_FILT_DISC (c : Nat) : Fld := ⟨0x6004 + 64 * c, 12, 9, 0x0⟩
def FC_SPD_MINPW (c : Nat) : Fld := ⟨0x6008 + 64 * c, 0, 12, 0x32⟩
def FC_SPD_STILL (c : Nat) : Fld := ⟨0x6008 + 64 * c, 12, 12, 0x1F4⟩
def FC_IBIND_OFFSET (c : Nat) : Fld := ⟨0x600C + 64 * c, 0, 16, 0x0⟩
def FC_IBIND_TASK (c : Nat) : Fld := ⟨0x600C + 64 * c, 16, 4, 0x0⟩
def FC_IBIND_EN (c : Nat) : Fld := ⟨0x600C + 64 * c, 20, 1, 0x0⟩
def FC_QBIND_OFFSET (c : Nat) : Fld := ⟨0x6010 + 64 * c, 0, 16, 0x0⟩
def FC_QBIND_TASK (c : Nat) : Fld := ⟨0x6010 + 64 * c, 16, 4, 0x0⟩
def FC_QBIND_EN (c : Nat) : Fld := ⟨0x6010 + 64 * c, 20, 1, 0x0⟩
def FC_TOL0_TOL_MAIN (c : Nat) : Fld := ⟨0x6014 + 64 * c, 0, 16, 0x0⟩
def FC_TOL0_TOL_PER (c : Nat) : Fld := ⟨0x6014 + 64 * c, 16, 16, 0x0⟩
def FC_TOL1_TOL_FRQ (c : Nat) : Fld := ⟨0x6018 + 64 * c, 0, 24, 0x0⟩
def FC_SAFE_VAL (c : Nat) : Fld := ⟨0x601C + 64 * c, 0, 24, 0x0⟩
def FC_STATUS_DC (c l : Nat) : Fld := ⟨0x6020 + 64 * c, 2 * l, 2, 0x0⟩
def FC_STATUS_PINA (c b : Nat) : Fld := ⟨0x6020 + 64 * c, 6 + b, 1, 0x0⟩
def FC_STATUS_PINB (c b : Nat) : Fld := ⟨0x6020 + 64 * c, 9 + b, 1, 0x0⟩
def FC_STATUS_BANK_OK (c : Nat) : Fld := ⟨0x6020 + 64 * c, 12, 1, 0x0⟩
def FC_STATUS_SDCLK_OK (c b : Nat) : Fld := ⟨0x6020 + 64 * c, 13 + b, 1, 0x0⟩
def FC_STATUS_STILL (c : Nat) : Fld := ⟨0x6020 + 64 * c, 16, 1, 0x0⟩
def FC_STATUS_DIR (c : Nat) : Fld := ⟨0x6020 + 64 * c, 17, 1, 0x0⟩
def FC_VALUE_W0 (c : Nat) : Fld := ⟨0x6024 + 64 * c, 0, 32, 0x0⟩
def FC_LOOPD_L (c l : Nat) : Fld := ⟨0x6028 + 64 * c, 8 * l, 8, 0xFF⟩
def FC_EVT_DISC (c : Nat) : Fld := ⟨0x602C + 64 * c, 0, 1, 0x0⟩
def FC_EVT_SDCLK (c : Nat) : Fld := ⟨0x602C + 64 * c, 1, 1, 0x0⟩
def FC_EVT_SDOVR (c : Nat) : Fld := ⟨0x602C + 64 * c, 2, 1, 0x0⟩
def FC_EVT_PHASE (c : Nat) : Fld := ⟨0x602C + 64 * c, 3, 1, 0x0⟩
def FC_EVT_OVSPD (c : Nat) : Fld := ⟨0x602C + 64 * c, 4, 1, 0x0⟩
def FC_EVT_PADMIS (c : Nat) : Fld := ⟨0x602C + 64 * c, 5, 1, 0x0⟩
def FC_EVT_BANK (c : Nat) : Fld := ⟨0x602C + 64 * c, 6, 1, 0x0⟩
def FC_EVCNT_DISC_CNT (c : Nat) : Fld := ⟨0x6030 + 64 * c, 0, 16, 0x0⟩
def FC_EVCNT_OTHER_CNT (c : Nat) : Fld := ⟨0x6030 + 64 * c, 16, 16, 0x0⟩
def FC_SDCLK_DIV (c : Nat) : Fld := ⟨0x603C + 64 * c, 0, 6, 0x0⟩
def FC_SDCLK_EN (c : Nat) : Fld := ⟨0x603C + 64 * c, 6, 1, 0x0⟩

/-! Registers of R199, spec/06_safe_brake.md. -/
def BRK_INFO_GROUPS : Fld := ⟨0x7000, 0, 8, 0x10⟩
def BRK_INFO_VER : Fld := ⟨0x7000, 8, 8, 0x1⟩
def BRK_SUMMARY_LATCHED (b : Nat) : Fld := ⟨0x7004, b, 1, 0x0⟩
def BRK_SUMMARY_DEMAND (b : Nat) : Fld := ⟨0x7004, 16 + b, 1, 0x0⟩
def BRK_HOLD (l g : Nat) : Fld := ⟨0x7008 + 4 * (l / 2), 16 * (l % 2) + g, 1, 0⟩
def BRK_MRST_GROUPS : Fld := ⟨0x7010, 0, 16, 0x0⟩
def BRK_MRST_GO : Fld := ⟨0x7010, 31, 1, 0x0⟩
def BRK_MRSTAT_GROUPS : Fld := ⟨0x7014, 0, 16, 0x0⟩
def BRK_MRSTAT_OUTCOME : Fld := ⟨0x7014, 16, 2, 0x0⟩
def BRK_MRSTAT_REASON : Fld := ⟨0x7014, 18, 4, 0x0⟩

/-! Registers of R200, spec/06_safe_brake.md. -/
def BRK_CFG_EN (g : Nat) : Fld := ⟨0x7100 + 64 * g, 0, 1, 0x0⟩
def BRK_CFG_OUTCH (g : Nat) : Fld := ⟨0x7100 + 64 * g, 1, 6, 0x0⟩
def BRK_CFG_RBCH (g : Nat) : Fld := ⟨0x7100 + 64 * g, 8, 6, 0x0⟩
def BRK_CFG_RBPOL (g : Nat) : Fld := ⟨0x7100 + 64 * g, 14, 1, 0x1⟩
def BRK_CFG_TASK (g : Nat) : Fld := ⟨0x7100 + 64 * g, 16, 4, 0x0⟩
def BRK_CFG_RB_LIMIT (g : Nat) : Fld := ⟨0x7100 + 64 * g, 20, 8, 0x3⟩
def BRK_DEM_CH (g d : Nat) : Fld := ⟨0x7104 + 64 * g, 8 * d, 6, 0x0⟩
def BRK_DEM_EN (g d : Nat) : Fld := ⟨0x7104 + 64 * g, 8 * d + 6, 1, 0x0⟩
def BRK_DARK_PER (g : Nat) : Fld := ⟨0x7108 + 64 * g, 0, 6, 0xA⟩
def BRK_DARK_EN (g : Nat) : Fld := ⟨0x7108 + 64 * g, 6, 1, 0x1⟩
def BRK_DARK_WIDTH (g : Nat) : Fld := ⟨0x7108 + 64 * g, 8, 8, 0x32⟩
def BRK_BRIGHT_PER (g : Nat) : Fld := ⟨0x710C + 64 * g, 0, 6, 0xA⟩
def BRK_BRIGHT_EN (g : Nat) : Fld := ⟨0x710C + 64 * g, 6, 1, 0x0⟩
def BRK_BRIGHT_WIDTH (g : Nat) : Fld := ⟨0x710C + 64 * g, 8, 7, 0x19⟩
def BRK_TWIN_TOFS (g : Nat) : Fld := ⟨0x7110 + 64 * g, 0, 10, 0x14⟩
def BRK_TWIN_RBLAG (g : Nat) : Fld := ⟨0x7110 + 64 * g, 10, 8, 0x32⟩
def BRK_SBIND_OFFSET (g : Nat) : Fld := ⟨0x7114 + 64 * g, 0, 16, 0x0⟩
def BRK_SBIND_EN (g : Nat) : Fld := ⟨0x7114 + 64 * g, 16, 1, 0x0⟩
def BRK_STAT_ST (g l : Nat) : Fld := ⟨0x7118 + 64 * g, 3 * l, 3, 0x0⟩
def BRK_STAT_PAD (g : Nat) : Fld := ⟨0x7118 + 64 * g, 9, 1, 0x0⟩
def BRK_STAT_LATCHED (g : Nat) : Fld := ⟨0x7118 + 64 * g, 10, 1, 0x0⟩
def BRK_STAT_LCAUSE (g : Nat) : Fld := ⟨0x7118 + 64 * g, 11, 2, 0x0⟩
def BRK_STAT_DARKRES (g : Nat) : Fld := ⟨0x7118 + 64 * g, 13, 2, 0x0⟩
def BRK_STAT_BRIGHTRES (g : Nat) : Fld := ⟨0x7118 + 64 * g, 15, 2, 0x0⟩
def BRK_STAT_DARKDUE (g : Nat) : Fld := ⟨0x7118 + 64 * g, 17, 1, 0x0⟩
def BRK_STAT_BRIGHTDUE (g : Nat) : Fld := ⟨0x7118 + 64 * g, 18, 1, 0x0⟩
def BRK_STAT_PADF (g : Nat) : Fld := ⟨0x7118 + 64 * g, 19, 1, 0x0⟩
def BRK_STAT_RBLOW (g : Nat) : Fld := ⟨0x7118 + 64 * g, 20, 1, 0x0⟩
def BRK_DARKAGE_AGE (g : Nat) : Fld := ⟨0x711C + 64 * g, 0, 32, 0xFFFFFFFF⟩
def BRK_BRIGHTAGE_AGE (g : Nat) : Fld := ⟨0x7120 + 64 * g, 0, 32, 0xFFFFFFFF⟩
def BRK_TCNT_DARK_PASS (g : Nat) : Fld := ⟨0x7124 + 64 * g, 0, 16, 0x0⟩
def BRK_TCNT_BRIGHT_PASS (g : Nat) : Fld := ⟨0x7124 + 64 * g, 16, 16, 0x0⟩
def BRK_EVT_HOLD (g : Nat) : Fld := ⟨0x7128 + 64 * g, 0, 1, 0x0⟩
def BRK_EVT_DARKFAIL (g : Nat) : Fld := ⟨0x7128 + 64 * g, 1, 1, 0x0⟩
def BRK_EVT_BRIGHTFAIL (g : Nat) : Fld := ⟨0x7128 + 64 * g, 2, 1, 0x0⟩
def BRK_EVT_ABANDON (g : Nat) : Fld := ⟨0x7128 + 64 * g, 3, 1, 0x0⟩
def BRK_EVT_STUCK (g : Nat) : Fld := ⟨0x7128 + 64 * g, 4, 1, 0x0⟩
def BRK_EVT_RBLOW (g : Nat) : Fld := ⟨0x7128 + 64 * g, 5, 1, 0x0⟩
def BRK_EVT_TDISSENT (g : Nat) : Fld := ⟨0x7128 + 64 * g, 6, 1, 0x0⟩
def BRK_EVCNT_HOLD_CNT (g : Nat) : Fld := ⟨0x712C + 64 * g, 0, 16, 0x0⟩
def BRK_EVCNT_FAULT_CNT (g : Nat) : Fld := ⟨0x712C + 64 * g, 16, 16, 0x0⟩

/-! Registers of R231, spec/07_timed_network_schedule.md. -/
def TN_INFO_FLOWS : Fld := ⟨0x8000, 0, 10, 0x200⟩
def TN_INFO_RODS : Fld := ⟨0x8000, 11, 11, 0x400⟩
def TN_INFO_VER : Fld := ⟨0x8000, 24, 8, 0x1⟩
def TN_CFG_NODE : Fld := ⟨0x8004, 0, 6, 0x0⟩
def TN_CFG_EN (ch : Nat) : Fld := ⟨0x8004, 6 + ch, 1, 0x0⟩
def TN_CFG_RING (ch : Nat) : Fld := ⟨0x8004, 8 + ch, 1, 0x0⟩
def TN_CFG_OPENCUT (ch : Nat) : Fld := ⟨0x8004, 10 + ch, 1, 0x0⟩
def TN_CFG_ETYPE : Fld := ⟨0x8004, 16, 16, 0x88B5⟩
def TN_FURLONG_LEN_US : Fld := ⟨0x8008, 0, 17, 0x3E8⟩
def TN_WIN_GUARD : Fld := ⟨0x800C, 0, 10, 0x28⟩
def TN_WIN_ACCEPT : Fld := ⟨0x800C, 16, 10, 0x3C⟩
def TN_MACPFX0_B0_3 : Fld := ⟨0x8010, 0, 32, 0x2⟩
def TN_MACPFX1_B4 : Fld := ⟨0x8014, 0, 8, 0x0⟩
def TN_PHYADDR_A0 : Fld := ⟨0x8018, 0, 5, 0x0⟩
def TN_PHYADDR_A1 : Fld := ⟨0x8018, 8, 5, 0x1⟩
def TN_PHYADDR_B0 : Fld := ⟨0x8018, 16, 5, 0x2⟩
def TN_PHYADDR_B1 : Fld := ⟨0x8018, 24, 5, 0x3⟩
def TN_PORT_LINK (p : Nat) : Fld := ⟨0x801C, 8 * p + 0, 1, 0⟩
def TN_PORT_SYNC (p : Nat) : Fld := ⟨0x801C, 8 * p + 1, 1, 0⟩
def TN_PORT_USED (p : Nat) : Fld := ⟨0x801C, 8 * p + 2, 1, 0⟩
def TN_PORT_LONG (p : Nat) : Fld := ⟨0x801C, 8 * p + 3, 1, 0⟩
def TN_MDIOCMD_DATA : Fld := ⟨0x8020, 0, 16, 0x0⟩
def TN_MDIOCMD_REG : Fld := ⟨0x8020, 16, 5, 0x0⟩
def TN_MDIOCMD_PHY : Fld := ⟨0x8020, 21, 5, 0x0⟩
def TN_MDIOCMD_WRITE : Fld := ⟨0x8020, 26, 1, 0x0⟩
def TN_MDIOCMD_GO : Fld := ⟨0x8020, 31, 1, 0x0⟩
def TN_MDIOSTAT_DATA : Fld := ⟨0x8024, 0, 16, 0x0⟩
def TN_MDIOSTAT_OUTCOME : Fld := ⟨0x8024, 16, 2, 0x0⟩
def TN_BANK_ACTIVE : Fld := ⟨0x8028, 0, 1, 0x0⟩
def TN_BANK_PENDING : Fld := ⟨0x8028, 1, 1, 0x0⟩
def TN_BANK_TARGET : Fld := ⟨0x8028, 2, 1, 0x0⟩
def TN_SWF_F_SW : Fld := ⟨0x802C, 0, 32, 0x0⟩
def TN_SWBIND_OFFSET : Fld := ⟨0x8030, 0, 16, 0x0⟩
def TN_SWBIND_TASK : Fld := ⟨0x8030, 16, 4, 0x0⟩
def TN_SWBIND_EN : Fld := ⟨0x8030, 20, 1, 0x0⟩
def TN_RODSEL_INDEX : Fld := ⟨0x8034, 0, 10, 0x0⟩
def TN_RODSEL_CHAN : Fld := ⟨0x8034, 10, 1, 0x0⟩
def TN_RODSEL_BANK : Fld := ⟨0x8034, 11, 1, 0x0⟩
def TN_RODDATA_WORD (i : Nat) : Fld := ⟨0x8038 + 4 * i, 0, 32, 0x0⟩
def TN_FLOWSEL_FLOW : Fld := ⟨0x8048, 0, 9, 0x0⟩
def TN_FLOWCTX_WORD (i : Nat) : Fld := ⟨0x804C + 4 * i, 0, 32, 0x0⟩
def TN_FLOWSTAT_RXAGE : Fld := ⟨0x806C, 0, 8, 0xFF⟩
def TN_FLOWSTAT_SNDAGE : Fld := ⟨0x806C, 8, 8, 0x0⟩
def TN_FLOWSTAT_STALE : Fld := ⟨0x806C, 16, 1, 0x1⟩
def TN_FLOWSTAT_REPEAT : Fld := ⟨0x806C, 17, 1, 0x0⟩
def TN_FLOWERR_REJECT : Fld := ⟨0x8070, 0, 16, 0x0⟩
def TN_FLOWERR_MISS : Fld := ⟨0x8070, 16, 16, 0x0⟩
def TN_STALE (f : Nat) : Fld := ⟨0x8074 + 4 * (f / 32), f % 32, 1, 1⟩
def TN_EVT_HDRCRC : Fld := ⟨0x80B4, 0, 1, 0x0⟩
def TN_EVT_FCS : Fld := ⟨0x80B4, 1, 1, 0x0⟩
def TN_EVT_HDRMIS : Fld := ⟨0x80B4, 2, 1, 0x0⟩
def TN_EVT_SAFECODE : Fld := ⟨0x80B4, 3, 1, 0x0⟩
def TN_EVT_SEQ : Fld := ⟨0x80B4, 4, 1, 0x0⟩
def TN_EVT_DELAY : Fld := ⟨0x80B4, 5, 1, 0x0⟩
def TN_EVT_MISSED : Fld := ⟨0x80B4, 6, 1, 0x0⟩
def TN_EVT_STALE : Fld := ⟨0x80B4, 7, 1, 0x0⟩
def TN_EVT_OPENDROP : Fld := ⟨0x80B4, 8, 1, 0x0⟩
def TN_EVT_PORT : Fld := ⟨0x80B4, 9, 1, 0x0⟩
def TN_EVT_DLYLONG : Fld := ⟨0x80B4, 10, 1, 0x0⟩
def TN_EVT_SWITCH : Fld := ⟨0x80B4, 11, 1, 0x0⟩
def TN_EVT_SWREF : Fld := ⟨0x80B4, 12, 1, 0x0⟩
def TN_EVT_CHECK : Fld := ⟨0x80B4, 13, 1, 0x0⟩
def TN_EVCNT0_RX_CNT : Fld := ⟨0x80B8, 0, 16, 0x0⟩
def TN_EVCNT0_STALE_CNT : Fld := ⟨0x80B8, 16, 16, 0x0⟩
def TN_EVCNT1_PORT_CNT : Fld := ⟨0x80BC, 0, 16, 0x0⟩
def TN_EVCNT1_SCHED_CNT : Fld := ⟨0x80BC, 16, 16, 0x0⟩
def TN_OPENSTAT_TXQ (ch : Nat) : Fld := ⟨0x80C0, 0 + 8 * ch, 8, 0x0⟩

/-! Registers of R263, spec/08_timed_network_time.md. -/
def TB_STATUS_PLL_LOCK : Fld := ⟨0x2000, 0, 1, 0x0⟩
def TB_STATUS_XTAL_OK : Fld := ⟨0x2000, 1, 1, 0x0⟩
def TB_CAPTURE_GO : Fld := ⟨0x2004, 0, 1, 0x0⟩
def TB_CAP_NET_LO_NET : Fld := ⟨0x2008, 0, 32, 0x0⟩
def TB_CAP_NET_HI_NET : Fld := ⟨0x200C, 0, 32, 0x0⟩
def TB_CAP_FREE_LO_FREE : Fld := ⟨0x2010, 0, 32, 0x0⟩
def TB_CAP_FREE_HI_FREE : Fld := ⟨0x2014, 0, 32, 0x0⟩
def TB_CAP_F_LO_F : Fld := ⟨0x2018, 0, 32, 0x0⟩
def TB_CAP_F_HI_F : Fld := ⟨0x201C, 0, 32, 0x0⟩
def TB_CAP_LANEDEV_L (l : Nat) : Fld := ⟨0x2020, 8 * l, 8, 0x0⟩
def TB_CAP_LANEDEV_VALID : Fld := ⟨0x2020, 24, 1, 0x0⟩
def TB_EVT_PLL_UNLOCK : Fld := ⟨0x2024, 0, 1, 0x0⟩
def TB_EVT_REALIGN : Fld := ⟨0x2024, 1, 1, 0x0⟩
def TB_EVCNT_PLL_CNT : Fld := ⟨0x2028, 0, 16, 0x0⟩
def TB_EVCNT_REALIGN_CNT : Fld := ⟨0x2028, 16, 16, 0x0⟩

/-! Registers of R264, spec/08_timed_network_time.md. -/
def TN_SYNCCFG_SYNC_CAP : Fld := ⟨0x9000, 0, 1, 0x0⟩
def TN_SYNCCFG_COLD_CAP : Fld := ⟨0x9000, 1, 1, 0x0⟩
def TN_SYNCCFG_SOLO : Fld := ⟨0x9000, 2, 1, 0x0⟩
def TN_SYNCCFG_WAKE_SEND : Fld := ⟨0x9000, 3, 1, 0x0⟩
def TN_SYNCCFG_MISS_LIM : Fld := ⟨0x9000, 4, 8, 0x8⟩
def TN_SYNCCFG_SWIN : Fld := ⟨0x9000, 12, 10, 0xFA⟩
def TN_SCHEDID_ID : Fld := ⟨0x9004, 0, 16, 0x0⟩
def TN_DLYADJ_P (p : Nat) : Fld := ⟨0x9008, 8 * p, 8, 0x0⟩
def TN_SYNCST_STATE : Fld := ⟨0x900C, 0, 3, 0x0⟩
def TN_SYNCST_ATTEMPTS : Fld := ⟨0x900C, 3, 2, 0x0⟩
def TN_SYNCST_GAVEUP : Fld := ⟨0x900C, 5, 1, 0x0⟩
def TN_SYNCST_NMEAS : Fld := ⟨0x900C, 6, 4, 0x0⟩
def TN_SYNCST_ADOPT_NODE : Fld := ⟨0x900C, 10, 6, 0x0⟩
def TN_SYNCST_ADOPT_SRC : Fld := ⟨0x900C, 16, 1, 0x0⟩
def TN_SYNCST_NETSTARTED : Fld := ⟨0x900C, 17, 1, 0x0⟩
def TN_OFFSET_M : Fld := ⟨0x9010, 0, 16, 0x0⟩
def TN_OFFSET_CAPPL : Fld := ⟨0x9010, 16, 8, 0x0⟩
def TN_RATE_RATE : Fld := ⟨0x9014, 0, 32, 0x0⟩
def TN_DELAY_P (p : Nat) : Fld := ⟨0x9018, 8 * p, 8, 0xFF⟩
def TN_NETBOUND_TASKS (b : Nat) : Fld := ⟨0x901C, b, 1, 0x0⟩
def TN_SYNCNODE_NODE (i : Nat) : Fld := ⟨0x9020 + 4 * i, 0, 6, 0x0⟩
def TN_SYNCNODE_MEAS (i : Nat) : Fld := ⟨0x9020 + 4 * i, 6, 1, 0x0⟩
def TN_SYNCNODE_DROPPED (i : Nat) : Fld := ⟨0x9020 + 4 * i, 7, 1, 0x0⟩
def TN_SYNCNODE_M (i : Nat) : Fld := ⟨0x9020 + 4 * i, 16, 16, 0x0⟩
def TN_GSEL_SENDER : Fld := ⟨0x9040, 0, 6, 0x0⟩
def TN_GCNT_EARLY : Fld := ⟨0x9044, 0, 16, 0x0⟩
def TN_GCNT_LATE : Fld := ⟨0x9044, 16, 16, 0x0⟩
def TN_PGCNT_EARLY (i : Nat) : Fld := ⟨0x9048 + 4 * i, 0, 16, 0x0⟩
def TN_PGCNT_LATE (i : Nat) : Fld := ⟨0x9048 + 4 * i, 16, 16, 0x0⟩
def TN_WAKECFG_COUNT : Fld := ⟨0x9058, 0, 5, 0x4⟩
def TN_WAKECFG_MATCH_EN : Fld := ⟨0x9058, 5, 1, 0x1⟩
def TN_WAKECFG_BCAST : Fld := ⟨0x9058, 6, 1, 0x1⟩
def TN_WAKECFG_SPACING : Fld := ⟨0x9058, 8, 8, 0x64⟩
def TN_WAKEMASK0_NODES : Fld := ⟨0x905C, 0, 32, 0x0⟩
def TN_WAKEMASK1_NODES : Fld := ⟨0x9060, 0, 32, 0x0⟩
def TN_WAKECMD_REASON : Fld := ⟨0x9064, 0, 16, 0x0⟩
def TN_WAKECMD_GO : Fld := ⟨0x9064, 31, 1, 0x0⟩
def TN_WAKESTAT_SENT_ID : Fld := ⟨0x9068, 0, 8, 0x0⟩
def TN_WAKESTAT_MATCH_ID : Fld := ⟨0x9068, 8, 8, 0x0⟩
def TN_WAKESTAT_MATCH_NODE : Fld := ⟨0x9068, 16, 6, 0x0⟩
def TN_WAKESTAT_WOKEN : Fld := ⟨0x9068, 22, 1, 0x0⟩
def TN_WAKESTAT_SENDING : Fld := ⟨0x9068, 23, 1, 0x0⟩
def TN_TEVT_OOS : Fld := ⟨0x906C, 0, 1, 0x0⟩
def TN_TEVT_COLLISION : Fld := ⟨0x906C, 1, 1, 0x0⟩
def TN_TEVT_GAVEUP : Fld := ⟨0x906C, 2, 1, 0x0⟩
def TN_TEVT_NOPARTNER : Fld := ⟨0x906C, 3, 1, 0x0⟩
def TN_TEVT_INTEGFAIL : Fld := ⟨0x906C, 4, 1, 0x0⟩
def TN_TEVT_DLYFAIL : Fld := ⟨0x906C, 5, 1, 0x0⟩
def TN_TEVT_PAYLOAD : Fld := ⟨0x906C, 6, 1, 0x0⟩
def TN_TEVT_RATELIM : Fld := ⟨0x906C, 7, 1, 0x0⟩
def TN_TEVT_WAKE : Fld := ⟨0x906C, 8, 1, 0x0⟩
def TN_TEVCNT_OOS_CNT : Fld := ⟨0x9070, 0, 16, 0x0⟩
def TN_TEVCNT_OTHER_CNT : Fld := ⟨0x9070, 16, 16, 0x0⟩

/-! Registers of R287, spec/09_can.md. -/
def CN_INFO_OBJS (n : Nat) : Fld := ⟨0xC000 + 1024 * n, 0, 8, 0x80⟩
def CN_INFO_VER (n : Nat) : Fld := ⟨0xC000 + 1024 * n, 8, 8, 0x1⟩
def CN_CTL_MODE (n : Nat) : Fld := ⟨0xC004 + 1024 * n, 0, 3, 0x0⟩
def CN_CTL_RECOV (n : Nat) : Fld := ⟨0xC004 + 1024 * n, 3, 1, 0x0⟩
def CN_CTL_PEX_OFF (n : Nat) : Fld := ⟨0xC004 + 1024 * n, 4, 1, 0x0⟩
def CN_NBT_N_PRE (n : Nat) : Fld := ⟨0xC008 + 1024 * n, 0, 8, 0x0⟩
def CN_NBT_N_PH1 (n : Nat) : Fld := ⟨0xC008 + 1024 * n, 8, 8, 0x1⟩
def CN_NBT_N_PH2 (n : Nat) : Fld := ⟨0xC008 + 1024 * n, 16, 7, 0x1⟩
def CN_NBT_N_RJW (n : Nat) : Fld := ⟨0xC008 + 1024 * n, 23, 7, 0x0⟩
def CN_DBT_D_PRE (n : Nat) : Fld := ⟨0xC00C + 1024 * n, 0, 5, 0x0⟩
def CN_DBT_D_PH1 (n : Nat) : Fld := ⟨0xC00C + 1024 * n, 5, 5, 0x0⟩
def CN_DBT_D_PH2 (n : Nat) : Fld := ⟨0xC00C + 1024 * n, 10, 4, 0x0⟩
def CN_DBT_D_RJW (n : Nat) : Fld := ⟨0xC00C + 1024 * n, 14, 4, 0x0⟩
def CN_DBT_D_ON (n : Nat) : Fld := ⟨0xC00C + 1024 * n, 18, 1, 0x0⟩
def CN_TDC_EN (n : Nat) : Fld := ⟨0xC010 + 1024 * n, 0, 1, 0x0⟩
def CN_TDC_SSPOFS (n : Nat) : Fld := ⟨0xC010 + 1024 * n, 1, 7, 0x0⟩
def CN_TDC_LOOPMIN (n : Nat) : Fld := ⟨0xC010 + 1024 * n, 8, 7, 0x0⟩
def CN_STATUS_STATE (n : Nat) : Fld := ⟨0xC014 + 1024 * n, 0, 2, 0x0⟩
def CN_STATUS_WARN (n : Nat) : Fld := ⟨0xC014 + 1024 * n, 2, 1, 0x0⟩
def CN_STATUS_RECOVERING (n : Nat) : Fld := ⟨0xC014 + 1024 * n, 3, 1, 0x0⟩
def CN_STATUS_TX (n : Nat) : Fld := ⟨0xC014 + 1024 * n, 4, 1, 0x0⟩
def CN_STATUS_RX (n : Nat) : Fld := ⟨0xC014 + 1024 * n, 5, 1, 0x0⟩
def CN_STATUS_LASTERR (n : Nat) : Fld := ⟨0xC014 + 1024 * n, 6, 3, 0x0⟩
def CN_STATUS_LASTERR_D (n : Nat) : Fld := ⟨0xC014 + 1024 * n, 9, 3, 0x0⟩
def CN_STATUS_LOOPD (n : Nat) : Fld := ⟨0xC014 + 1024 * n, 16, 7, 0x0⟩
def CN_ERRCNT_TEC (n : Nat) : Fld := ⟨0xC018 + 1024 * n, 0, 9, 0x0⟩
def CN_ERRCNT_REC (n : Nat) : Fld := ⟨0xC018 + 1024 * n, 16, 8, 0x0⟩
def CN_ERRCNT_RXPASS (n : Nat) : Fld := ⟨0xC018 + 1024 * n, 24, 1, 0x0⟩
def CN_REQ_RECOVER (n : Nat) : Fld := ⟨0xC01C + 1024 * n, 0, 1, 0x0⟩
def CN_REQSTAT_OUTCOME (n : Nat) : Fld := ⟨0xC020 + 1024 * n, 0, 2, 0x0⟩
def CN_REQSTAT_REASON (n : Nat) : Fld := ⟨0xC020 + 1024 * n, 2, 2, 0x0⟩
def CN_OBJSEL_OBJ (n : Nat) : Fld := ⟨0xC024 + 1024 * n, 0, 7, 0x0⟩
def CN_OBJCFG_WORD (n i : Nat) : Fld := ⟨0xC028 + 1024 * n + 4 * i, 0, 32, 0x0⟩
def CN_OBJSTAT_WORD (n : Nat) : Fld := ⟨0xC048 + 1024 * n, 0, 32, 0x0⟩
def CN_OBJCLR_OBJ (n : Nat) : Fld := ⟨0xC04C + 1024 * n, 0, 7, 0x0⟩
def CN_OBJCLR_GO (n : Nat) : Fld := ⟨0xC04C + 1024 * n, 31, 1, 0x0⟩
def CN_OBJCLRSTAT_OUTCOME (n : Nat) : Fld := ⟨0xC050 + 1024 * n, 0, 2, 0x0⟩
def CN_OBJCLRSTAT_REASON (n : Nat) : Fld := ⟨0xC050 + 1024 * n, 2, 2, 0x0⟩
def CN_PEND (n k : Nat) : Fld := ⟨0xC054 + 1024 * n + 4 * (k / 32), k % 32, 1, 0⟩
def CN_COLL (n k : Nat) : Fld := ⟨0xC064 + 1024 * n + 4 * (k / 32), k % 32, 1, 0⟩
def CN_EVT_PASSIVE (n : Nat) : Fld := ⟨0xC074 + 1024 * n, 0, 1, 0x0⟩
def CN_EVT_BUSOFF (n : Nat) : Fld := ⟨0xC074 + 1024 * n, 1, 1, 0x0⟩
def CN_EVT_RECOVERED (n : Nat) : Fld := ⟨0xC074 + 1024 * n, 2, 1, 0x0⟩
def CN_EVT_WARN (n : Nat) : Fld := ⟨0xC074 + 1024 * n, 3, 1, 0x0⟩
def CN_EVT_COLL (n : Nat) : Fld := ⟨0xC074 + 1024 * n, 4, 1, 0x0⟩
def CN_EVT_LOST (n : Nat) : Fld := ⟨0xC074 + 1024 * n, 5, 1, 0x0⟩
def CN_EVT_PEX (n : Nat) : Fld := ⟨0xC074 + 1024 * n, 6, 1, 0x0⟩
def CN_EVT_CHECK (n : Nat) : Fld := ⟨0xC074 + 1024 * n, 7, 1, 0x0⟩
def CN_EVT_WITHDRAWN (n : Nat) : Fld := ⟨0xC074 + 1024 * n, 8, 1, 0x0⟩
def CN_EVCNT_BUSOFF_CNT (n : Nat) : Fld := ⟨0xC078 + 1024 * n, 0, 16, 0x0⟩
def CN_EVCNT_OTHER_CNT (n : Nat) : Fld := ⟨0xC078 + 1024 * n, 16, 16, 0x0⟩
def CN_FRCNT_TXOK (n : Nat) : Fld := ⟨0xC07C + 1024 * n, 0, 16, 0x0⟩
def CN_FRCNT_RXOK (n : Nat) : Fld := ⟨0xC07C + 1024 * n, 16, 16, 0x0⟩

/-! Registers of R317, spec/10_host_rings.md. -/
def HIF_INFO_SQS : Fld := ⟨0xD000, 0, 8, 0x10⟩
def HIF_INFO_CQS : Fld := ⟨0xD000, 8, 8, 0x10⟩
def HIF_INFO_VECS : Fld := ⟨0xD000, 16, 8, 0x20⟩
def HIF_INFO_VER : Fld := ⟨0xD000, 24, 8, 0x1⟩
def HIF_CTL_EN : Fld := ⟨0xD004, 0, 1, 0x0⟩
def HIF_STATUS_READY : Fld := ⟨0xD008, 0, 1, 0x0⟩
def HIF_STATUS_RUNNING : Fld := ⟨0xD008, 1, 1, 0x0⟩
def HIF_STATUS_SPEED : Fld := ⟨0xD008, 2, 2, 0x0⟩
def HIF_STATUS_WIDTH : Fld := ⟨0xD008, 4, 2, 0x0⟩
def HIF_POLL_INTERVAL : Fld := ⟨0xD00C, 0, 10, 0x4⟩
def HIF_DBPAGE_LO_ADDR : Fld := ⟨0xD010, 12, 20, 0x0⟩
def HIF_DBPAGE_HI_ADDR : Fld := ⟨0xD014, 0, 32, 0x0⟩
def HIF_SHPAGE_LO_ADDR : Fld := ⟨0xD018, 12, 20, 0x0⟩
def HIF_SHPAGE_HI_ADDR : Fld := ⟨0xD01C, 0, 32, 0x0⟩
def HIF_EVT_DESC_CRC : Fld := ⟨0xD020, 0, 1, 0x0⟩
def HIF_EVT_SQFAULT : Fld := ⟨0xD020, 1, 1, 0x0⟩
def HIF_EVT_CQFAULT : Fld := ⟨0xD020, 2, 1, 0x0⟩
def HIF_EVT_DBFAIL : Fld := ⟨0xD020, 3, 1, 0x0⟩
def HIF_EVT_CQFULL : Fld := ⟨0xD020, 4, 1, 0x0⟩
def HIF_EVT_CFGREJ : Fld := ⟨0xD020, 5, 1, 0x0⟩
def HIF_EVT_PERST : Fld := ⟨0xD020, 6, 1, 0x0⟩
def HIF_EVT_SHFAIL : Fld := ⟨0xD020, 7, 1, 0x0⟩
def HIF_EVCNT_DESC_CNT : Fld := ⟨0xD024, 0, 16, 0x0⟩
def HIF_EVCNT_FAULT_CNT : Fld := ⟨0xD024, 16, 16, 0x0⟩
def HIF_SQFAULT_RINGS (b : Nat) : Fld := ⟨0xD028, b, 1, 0x0⟩
def HIF_CQFAULT_RINGS (b : Nat) : Fld := ⟨0xD02C, b, 1, 0x0⟩
def HIF_INPROG_COUNT : Fld := ⟨0xD030, 0, 7, 0x0⟩
def HIF_EVVEC_VEC : Fld := ⟨0xD034, 0, 5, 0x0⟩
def HIF_SNAP_PENDING (b : Nat) : Fld := ⟨0xD038, b, 1, 0x0⟩

/-! Registers of R318, spec/10_host_rings.md. -/
def HIF_SQ_BASE_LO_ADDR (r : Nat) : Fld := ⟨0xD100 + 16 * r, 12, 20, 0x0⟩
def HIF_SQ_BASE_HI_ADDR (r : Nat) : Fld := ⟨0xD104 + 16 * r, 0, 32, 0x0⟩
def HIF_SQ_CFG_EN (r : Nat) : Fld := ⟨0xD108 + 16 * r, 0, 1, 0x0⟩
def HIF_SQ_CFG_SIZE (r : Nat) : Fld := ⟨0xD108 + 16 * r, 1, 3, 0x0⟩
def HIF_SQ_CFG_CQ (r : Nat) : Fld := ⟨0xD108 + 16 * r, 4, 4, 0x0⟩
def HIF_SQ_STAT_HEAD (r : Nat) : Fld := ⟨0xD10C + 16 * r, 0, 12, 0x0⟩
def HIF_SQ_STAT_IDLE (r : Nat) : Fld := ⟨0xD10C + 16 * r, 12, 1, 0x1⟩
def HIF_SQ_STAT_FAULT (r : Nat) : Fld := ⟨0xD10C + 16 * r, 13, 1, 0x0⟩
def HIF_SQ_STAT_FCAUSE (r : Nat) : Fld := ⟨0xD10C + 16 * r, 14, 2, 0x0⟩
def HIF_SQ_STAT_INPROG (r : Nat) : Fld := ⟨0xD10C + 16 * r, 16, 4, 0x0⟩

/-! Registers of R319, spec/10_host_rings.md. -/
def HIF_CQ_BASE_LO_ADDR (r : Nat) : Fld := ⟨0xD200 + 16 * r, 12, 20, 0x0⟩
def HIF_CQ_BASE_HI_ADDR (r : Nat) : Fld := ⟨0xD204 + 16 * r, 0, 32, 0x0⟩
def HIF_CQ_CFG_EN (r : Nat) : Fld := ⟨0xD208 + 16 * r, 0, 1, 0x0⟩
def HIF_CQ_CFG_SIZE (r : Nat) : Fld := ⟨0xD208 + 16 * r, 1, 3, 0x0⟩
def HIF_CQ_CFG_VEC (r : Nat) : Fld := ⟨0xD208 + 16 * r, 4, 5, 0x0⟩
def HIF_CQ_CFG_IEN (r : Nat) : Fld := ⟨0xD208 + 16 * r, 9, 1, 0x0⟩
def HIF_CQ_STAT_TAIL (r : Nat) : Fld := ⟨0xD20C + 16 * r, 0, 12, 0x0⟩
def HIF_CQ_STAT_PHASE (r : Nat) : Fld := ⟨0xD20C + 16 * r, 12, 1, 0x1⟩
def HIF_CQ_STAT_FAULT (r : Nat) : Fld := ⟨0xD20C + 16 * r, 13, 1, 0x0⟩
def HIF_CQ_STAT_FULL (r : Nat) : Fld := ⟨0xD20C + 16 * r, 14, 1, 0x0⟩
def HIF_CQ_STAT_LOST (r : Nat) : Fld := ⟨0xD20C + 16 * r, 16, 16, 0x0⟩
def HIF_VMOD_COUNT (v : Nat) : Fld := ⟨0xD300 + 4 * v, 0, 8, 0x1⟩
def HIF_VMOD_TIME (v : Nat) : Fld := ⟨0xD300 + 4 * v, 8, 10, 0x0⟩

/-! Registers of R349, spec/11_bridge_and_companions.md. -/
def BR_INFO_PCIE_OPS : Fld := ⟨0xE000, 0, 8, 0x80⟩
def BR_INFO_CL_OPS : Fld := ⟨0xE000, 8, 8, 0x40⟩
def BR_INFO_SEMS : Fld := ⟨0xE000, 16, 8, 0x40⟩
def BR_INFO_LINES : Fld := ⟨0xE000, 24, 8, 0x40⟩
def BR_CFG_CTO : Fld := ⟨0xE004, 0, 2, 0x1⟩
def BR_CFG_SEMTO : Fld := ⟨0xE004, 2, 10, 0x64⟩
def BR_OPS_PCIE : Fld := ⟨0xE008, 0, 8, 0x0⟩
def BR_OPS_CL : Fld := ⟨0xE008, 8, 8, 0x0⟩
def BR_OPS_LINES : Fld := ⟨0xE008, 16, 7, 0x0⟩
def BR_OPSMAX_PCIE : Fld := ⟨0xE00C, 0, 8, 0x0⟩
def BR_OPSMAX_CL : Fld := ⟨0xE00C, 8, 8, 0x0⟩
def BR_OPSMAX_LINES : Fld := ⟨0xE00C, 16, 7, 0x0⟩
def BR_ALERT_WORD : Fld := ⟨0xE010, 0, 32, 0x0⟩
def BR_ALERTSW_SW : Fld := ⟨0xE014, 16, 16, 0x0⟩
def BR_PALERT_WORD (i : Nat) : Fld := ⟨0xE018 + 4 * i, 0, 32, 0x0⟩
def BR_SEMCMD_SEM : Fld := ⟨0xE028, 0, 6, 0x0⟩
def BR_SEMCMD_OP : Fld := ⟨0xE028, 6, 2, 0x0⟩
def BR_SEMCMD_TAG : Fld := ⟨0xE028, 8, 8, 0x0⟩
def BR_SEMBUSY (m : Nat) : Fld := ⟨0xE02C + 4 * (m / 32), m % 32, 1, 0⟩
def BR_EVT_UNCLAIMED : Fld := ⟨0xE034, 0, 1, 0x0⟩
def BR_EVT_HOLDTO : Fld := ⟨0xE034, 1, 1, 0x0⟩
def BR_EVT_WRFAIL : Fld := ⟨0xE034, 2, 1, 0x0⟩
def BR_EVT_CTO : Fld := ⟨0xE034, 3, 1, 0x0⟩
def BR_EVT_SEMTO : Fld := ⟨0xE034, 4, 1, 0x0⟩
def BR_EVT_PARTNER : Fld := ⟨0xE034, 5, 1, 0x0⟩
def BR_EVT_LATECPL : Fld := ⟨0xE034, 6, 1, 0x0⟩
def BR_EVCNT_HOLDTO_CNT : Fld := ⟨0xE038, 0, 16, 0x0⟩
def BR_EVCNT_OTHER_CNT : Fld := ⟨0xE038, 16, 16, 0x0⟩
def BR_CLR_MAXCLR : Fld := ⟨0xE03C, 0, 1, 0x0⟩
def BR_SEM_OWNER (m : Nat) : Fld := ⟨0xE100 + 4 * m, 0, 8, 0xFF⟩
def BR_SEM_CONTEND (m : Nat) : Fld := ⟨0xE100 + 4 * m, 16, 16, 0x0⟩

/-! Registers of R350, spec/11_bridge_and_companions.md. -/
def CL_CFG_ROLE (k : Nat) : Fld := ⟨0xF000 + 64 * k, 0, 2, 0x0⟩
def CL_CFG_DLYADJ (k : Nat) : Fld := ⟨0xF000 + 64 * k, 8, 8, 0x0⟩
def CL_STAT_STATE (k : Nat) : Fld := ⟨0xF004 + 64 * k, 0, 3, 0x0⟩
def CL_STAT_PDEVID (k : Nat) : Fld := ⟨0xF004 + 64 * k, 3, 2, 0x0⟩
def CL_STAT_PSIDE (k : Nat) : Fld := ⟨0xF004 + 64 * k, 5, 1, 0x0⟩
def CL_STAT_PROLE (k : Nat) : Fld := ⟨0xF004 + 64 * k, 6, 2, 0x0⟩
def CL_DELAY_DELAY (k : Nat) : Fld := ⟨0xF008 + 64 * k, 0, 8, 0xFF⟩
def CL_OPS_OUT (k : Nat) : Fld := ⟨0xF00C + 64 * k, 0, 5, 0x0⟩
def CL_OPS_INQ (k : Nat) : Fld := ⟨0xF00C + 64 * k, 5, 5, 0x0⟩
def CL_OPS_CREDITS (k : Nat) : Fld := ⟨0xF00C + 64 * k, 10, 5, 0x0⟩
def CL_ERRCNT_CRCERR (k : Nat) : Fld := ⟨0xF010 + 64 * k, 0, 16, 0x0⟩
def CL_ERRCNT_REPLAYS (k : Nat) : Fld := ⟨0xF010 + 64 * k, 16, 16, 0x0⟩
def CL_RETRAIN_RETRAINS (k : Nat) : Fld := ⟨0xF014 + 64 * k, 0, 16, 0x0⟩
def CL_EVT_UP (k : Nat) : Fld := ⟨0xF018 + 64 * k, 0, 1, 0x0⟩
def CL_EVT_DOWN (k : Nat) : Fld := ⟨0xF018 + 64 * k, 1, 1, 0x0⟩
def CL_EVT_REFUSED (k : Nat) : Fld := ⟨0xF018 + 64 * k, 2, 1, 0x0⟩
def CL_EVT_REPLAYX (k : Nat) : Fld := ⟨0xF018 + 64 * k, 3, 1, 0x0⟩
def CL_EVT_ACKTO (k : Nat) : Fld := ⟨0xF018 + 64 * k, 4, 1, 0x0⟩
def CL_EVCNT_LINK_CNT (k : Nat) : Fld := ⟨0xF01C + 64 * k, 0, 16, 0x0⟩
def CL_EVCNT_FAULT_CNT (k : Nat) : Fld := ⟨0xF01C + 64 * k, 16, 16, 0x0⟩

/-! Registers of R351, spec/11_bridge_and_companions.md. -/
def GRP_CFG_EN : Fld := ⟨0xF100, 0, 1, 0x0⟩
def GRP_CFG_SIZE : Fld := ⟨0xF100, 1, 2, 0x0⟩
def GRP_CFG_TSRC : Fld := ⟨0xF100, 3, 1, 0x0⟩
def GRP_CFG_DL : Fld := ⟨0xF100, 4, 7, 0xC⟩
def GRP_SETID_ID : Fld := ⟨0xF104, 0, 32, 0x0⟩
def GRP_STAT_DEVID : Fld := ⟨0xF108, 0, 2, 0x0⟩
def GRP_STAT_PRESENT (b : Nat) : Fld := ⟨0xF108, 2 + b, 1, 0x0⟩
def GRP_STAT_COMPLETE : Fld := ⟨0xF108, 6, 1, 0x0⟩
def GRP_STAT_TSTATE : Fld := ⟨0xF108, 7, 3, 0x0⟩
def GRP_TOFS_M : Fld := ⟨0xF10C, 0, 16, 0x0⟩
def GRP_XSEL_SLICE : Fld := ⟨0xF110, 0, 2, 0x0⟩
def GRP_XCTX0_OFFSET : Fld := ⟨0xF114, 0, 16, 0x0⟩
def GRP_XCTX0_TASK : Fld := ⟨0xF114, 16, 4, 0x0⟩
def GRP_XCTX0_EN : Fld := ⟨0xF114, 20, 1, 0x0⟩
def GRP_XCTX1_LEN : Fld := ⟨0xF118, 0, 12, 0x0⟩
def GRP_XCTX2_SCID : Fld := ⟨0xF11C, 0, 32, 0x0⟩
def GRP_XCTX3_CRC : Fld := ⟨0xF120, 0, 32, 0x0⟩
def GRP_XSTAT_SEQ : Fld := ⟨0xF124, 0, 32, 0x0⟩
def GRP_ISEL_IMPORT : Fld := ⟨0xF128, 0, 4, 0x0⟩
def GRP_ICTX0_OFFSET : Fld := ⟨0xF12C, 0, 16, 0x0⟩
def GRP_ICTX0_TASK : Fld := ⟨0xF12C, 16, 4, 0x0⟩
def GRP_ICTX0_EN : Fld := ⟨0xF12C, 20, 1, 0x0⟩
def GRP_ICTX0_SAFETY : Fld := ⟨0xF12C, 21, 1, 0x0⟩
def GRP_ICTX0_SUBMODE : Fld := ⟨0xF12C, 22, 1, 0x0⟩
def GRP_ICTX1_SRCDEV : Fld := ⟨0xF130, 0, 2, 0x0⟩
def GRP_ICTX1_SRCSLICE : Fld := ⟨0xF130, 2, 2, 0x0⟩
def GRP_ICTX1_LEN : Fld := ⟨0xF130, 16, 12, 0x0⟩
def GRP_ICTX2_AGE_LIM : Fld := ⟨0xF134, 0, 8, 0x3⟩
def GRP_ICTX3_SCID : Fld := ⟨0xF138, 0, 32, 0x0⟩
def GRP_ICTX4_CRC : Fld := ⟨0xF13C, 0, 32, 0x0⟩
def GRP_ISTAT_AGE : Fld := ⟨0xF140, 0, 8, 0xFF⟩
def GRP_ISTAT_STALE : Fld := ⟨0xF140, 8, 1, 0x1⟩
def GRP_ISTAT_REJECT : Fld := ⟨0xF140, 16, 16, 0x0⟩
def GRP_STALE_IMPORTS (b : Nat) : Fld := ⟨0xF144, b, 1, 0x1⟩
def GRP_EVT_MEMBER : Fld := ⟨0xF148, 0, 1, 0x0⟩
def GRP_EVT_XLATE : Fld := ⟨0xF148, 1, 1, 0x0⟩
def GRP_EVT_STALE : Fld := ⟨0xF148, 2, 1, 0x0⟩
def GRP_EVT_REJECT : Fld := ⟨0xF148, 3, 1, 0x0⟩
def GRP_EVT_TIME : Fld := ⟨0xF148, 4, 1, 0x0⟩
def GRP_EVT_CFGMIS : Fld := ⟨0xF148, 5, 1, 0x0⟩
def GRP_EVCNT_STALE_CNT : Fld := ⟨0xF14C, 0, 16, 0x0⟩
def GRP_EVCNT_OTHER_CNT : Fld := ⟨0xF14C, 16, 16, 0x0⟩

/-! Registers of R376, spec/12_twin_pair.md. -/
def TW_CFG_EN : Fld := ⟨0x10000, 0, 1, 0x0⟩
def TW_CFG_LTASK : Fld := ⟨0x10000, 1, 4, 0x0⟩
def TW_CFG_LEASE : Fld := ⟨0x10000, 5, 6, 0x2⟩
def TW_CFG_MARGIN : Fld := ⟨0x10000, 11, 17, 0x1F4⟩
def TW_SCID_SCID : Fld := ⟨0x10004, 0, 32, 0x0⟩
def TW_TASKS_TASKS (b : Nat) : Fld := ⟨0x10008, b, 1, 0x0⟩
def TW_NET_TXFLOW : Fld := ⟨0x1000C, 0, 9, 0x0⟩
def TW_NET_RXFLOW : Fld := ⟨0x1000C, 9, 9, 0x0⟩
def TW_NET_NETEN : Fld := ⟨0x1000C, 18, 1, 0x0⟩
def TW_MIRROR_DMAX : Fld := ⟨0x10010, 0, 13, 0x100⟩
def TW_STAT_ROLE : Fld := ⟨0x10014, 0, 3, 0x0⟩
def TW_STAT_ACTIVE : Fld := ⟨0x10014, 3, 1, 0x0⟩
def TW_STAT_SOLO : Fld := ⟨0x10014, 4, 1, 0x0⟩
def TW_STAT_FIT : Fld := ⟨0x10014, 5, 1, 0x0⟩
def TW_STAT_FROZEN : Fld := ⟨0x10014, 6, 1, 0x0⟩
def TW_STAT_COMMIT : Fld := ⟨0x10014, 7, 1, 0x0⟩
def TW_STAT_PROLE : Fld := ⟨0x10014, 8, 3, 0x0⟩
def TW_STAT_PFIT : Fld := ⟨0x10014, 11, 1, 0x0⟩
def TW_STAT_PATH_CL : Fld := ⟨0x10014, 12, 1, 0x0⟩
def TW_STAT_PATH_TN : Fld := ⟨0x10014, 13, 1, 0x0⟩
def TW_EXP_LO_F : Fld := ⟨0x10018, 0, 32, 0x0⟩
def TW_EXP_HI_F : Fld := ⟨0x1001C, 0, 32, 0x0⟩
def TW_SOLOREQ_GO : Fld := ⟨0x10020, 31, 1, 0x0⟩
def TW_SOLOSTAT_OUTCOME : Fld := ⟨0x10024, 0, 2, 0x0⟩
def TW_SOLOSTAT_REASON : Fld := ⟨0x10024, 2, 3, 0x0⟩
def TW_SYNC_RESYNC (b : Nat) : Fld := ⟨0x10028, b, 1, 0x0⟩
def TW_SYNC_PROB (b : Nat) : Fld := ⟨0x10028, 16 + b, 1, 0x0⟩
def TW_EVT_TAKEOVER : Fld := ⟨0x1002C, 0, 1, 0x0⟩
def TW_EVT_PASSIVE : Fld := ⟨0x1002C, 1, 1, 0x0⟩
def TW_EVT_RELINQ : Fld := ⟨0x1002C, 2, 1, 0x0⟩
def TW_EVT_MISMATCH : Fld := ⟨0x1002C, 3, 1, 0x0⟩
def TW_EVT_OVERRUN : Fld := ⟨0x1002C, 4, 1, 0x0⟩
def TW_EVT_MSGREJ : Fld := ⟨0x1002C, 5, 1, 0x0⟩
def TW_EVT_CONFLICT : Fld := ⟨0x1002C, 6, 1, 0x0⟩
def TW_EVT_UNFIT : Fld := ⟨0x1002C, 7, 1, 0x0⟩
def TW_EVT_FREEZE : Fld := ⟨0x1002C, 8, 1, 0x0⟩
def TW_EVCNT_SWITCH_CNT : Fld := ⟨0x10030, 0, 16, 0x0⟩
def TW_EVCNT_FAULT_CNT : Fld := ⟨0x10030, 16, 16, 0x0⟩

/-! Registers of R377, spec/12_twin_pair.md. -/
def TW_TSTAT_SHADOW (t : Nat) : Fld := ⟨0x10100 + 16 * t, 0, 2, 0x0⟩
def TW_TSTAT_PROB (t : Nat) : Fld := ⟨0x10100 + 16 * t, 2, 7, 0x0⟩
def TW_TSTAT_RESTARTS (t : Nat) : Fld := ⟨0x10100 + 16 * t, 9, 2, 0x0⟩
def TW_TMIS_MIS (t : Nat) : Fld := ⟨0x10104 + 16 * t, 0, 16, 0x0⟩
def TW_TMIS_XCHK (t : Nat) : Fld := ⟨0x10104 + 16 * t, 16, 16, 0x0⟩
def TW_TSLOT_OFFSET (t : Nat) : Fld := ⟨0x10108 + 16 * t, 0, 20, 0x0⟩

/-! Registers of R393, spec/13_event_recorder.md. -/
def REC_INFO_SLOTS : Fld := ⟨0x11000, 0, 16, 0x2000⟩
def REC_INFO_RECBYTES : Fld := ⟨0x11000, 16, 8, 0x20⟩
def REC_INFO_VER : Fld := ⟨0x11000, 24, 8, 0x1⟩
def REC_STAT_READY : Fld := ⟨0x11004, 0, 1, 0x0⟩
def REC_STAT_FCLOSED : Fld := ⟨0x11004, 1, 1, 0x0⟩
def REC_STAT_WRAPPED : Fld := ⟨0x11004, 2, 1, 0x0⟩
def REC_STAT_EXHAUST : Fld := ⟨0x11004, 3, 1, 0x0⟩
def REC_STAT_QDEPTH : Fld := ⟨0x11004, 16, 10, 0x0⟩
def REC_NEWSEQ_SEQ : Fld := ⟨0x11008, 0, 32, 0x0⟩
def REC_NEWSLOT_SLOT : Fld := ⟨0x1100C, 0, 13, 0x0⟩
def REC_NEWSLOT_AREA : Fld := ⟨0x1100C, 13, 1, 0x0⟩
def REC_OLDSEQ_SEQ : Fld := ⟨0x11010, 0, 32, 0x0⟩
def REC_OLDSLOT_SLOT : Fld := ⟨0x11014, 0, 13, 0x0⟩
def REC_OPTIME_LO_MS : Fld := ⟨0x11018, 0, 32, 0x0⟩
def REC_OPTIME_HI_MS : Fld := ⟨0x1101C, 0, 16, 0x0⟩
def REC_PCYC_COUNT : Fld := ⟨0x11020, 0, 32, 0x0⟩
def REC_LOSS_COUNT : Fld := ⟨0x11024, 0, 32, 0x0⟩
def REC_MERGE_COUNT : Fld := ⟨0x11028, 0, 32, 0x0⟩
def REC_EVT_QLOSS : Fld := ⟨0x1102C, 0, 1, 0x0⟩
def REC_EVT_TORN : Fld := ⟨0x1102C, 1, 1, 0x0⟩
def REC_EVT_WRERR : Fld := ⟨0x1102C, 2, 1, 0x0⟩
def REC_EVT_FCLOSE : Fld := ⟨0x1102C, 3, 1, 0x0⟩
def REC_EVT_RESTORE : Fld := ⟨0x1102C, 4, 1, 0x0⟩
def REC_EVCNT_QLOSS_CNT : Fld := ⟨0x11030, 0, 16, 0x0⟩
def REC_EVCNT_OTHER_CNT : Fld := ⟨0x11030, 16, 16, 0x0⟩

/-! Registers of R416, spec/14_update_and_trust.md. -/
def UPD_INFO_KINDS : Fld := ⟨0x12000, 0, 8, 0x5⟩
def UPD_INFO_KEYS : Fld := ⟨0x12000, 8, 8, 0x8⟩
def UPD_INFO_VER : Fld := ⟨0x12000, 24, 8, 0x1⟩
def UPD_CFG_CWIN : Fld := ⟨0x12004, 0, 10, 0x1E⟩
def UPD_CBIND_OFFSET : Fld := ⟨0x12008, 0, 16, 0x0⟩
def UPD_CBIND_TASK : Fld := ⟨0x12008, 16, 4, 0x0⟩
def UPD_CBIND_EN : Fld := ⟨0x12008, 20, 1, 0x0⟩
def UPD_SBIND_OFFSET : Fld := ⟨0x1200C, 0, 16, 0x0⟩
def UPD_SBIND_TASK : Fld := ⟨0x1200C, 16, 4, 0x0⟩
def UPD_SBIND_EN : Fld := ⟨0x1200C, 20, 1, 0x0⟩
def UPD_NET_RXFLOW : Fld := ⟨0x12010, 0, 9, 0x0⟩
def UPD_NET_TXFLOW : Fld := ⟨0x12010, 9, 9, 0x0⟩
def UPD_NET_NETEN : Fld := ⟨0x12010, 18, 1, 0x0⟩
def UPD_NET_TWINEN : Fld := ⟨0x12010, 19, 1, 0x0⟩
def UPD_SESSION_HOLDER : Fld := ⟨0x12014, 0, 2, 0x0⟩
def UPD_SESSION_OPEN (b : Nat) : Fld := ⟨0x12014, 4 + b, 1, 0x0⟩
def UPD_SESSION_VERIFIED (b : Nat) : Fld := ⟨0x12014, 9 + b, 1, 0x0⟩
def UPD_SESSION_LAPSE_S : Fld := ⟨0x12014, 16, 6, 0x0⟩
def UPD_STAT_PROB : Fld := ⟨0x12018, 0, 1, 0x0⟩
def UPD_STAT_PKINDS : Fld := ⟨0x12018, 1, 4, 0x0⟩
def UPD_STAT_CONF_S : Fld := ⟨0x12018, 5, 10, 0x0⟩
def UPD_STAT_LAST : Fld := ⟨0x12018, 15, 2, 0x0⟩
def UPD_STAT_FBCAUSE : Fld := ⟨0x12018, 17, 2, 0x0⟩
def UPD_STAT_LOADED : Fld := ⟨0x12018, 19, 1, 0x0⟩
def UPD_STAT_JSTATE : Fld := ⟨0x12018, 20, 3, 0x0⟩
def UPD_REFUSE_REASON : Fld := ⟨0x1201C, 0, 8, 0x0⟩
def UPD_REFUSE_SOURCE : Fld := ⟨0x1201C, 8, 2, 0x0⟩
def UPD_REFUSE_OPCODE : Fld := ⟨0x1201C, 10, 8, 0x0⟩
def UPD_SVN_SVN (i : Nat) : Fld := ⟨0x12020 + 4 * i, 0, 32, 0x0⟩
def UPD_FLOOR_FLOOR (i : Nat) : Fld := ⟨0x12040 + 4 * i, 0, 32, 0x0⟩
def UPD_FUSE_USED : Fld := ⟨0x12060, 0, 9, 0x0⟩
def UPD_FUSE_RECOK : Fld := ⟨0x12060, 9, 1, 0x0⟩
def UPD_SCHEMA_ACTIVE : Fld := ⟨0x12064, 0, 16, 0x0⟩
def UPD_SCHEMA_READ : Fld := ⟨0x12064, 16, 16, 0x0⟩
def UPD_KEYS_ENROLLED (b : Nat) : Fld := ⟨0x12068, b, 1, 0x0⟩
def UPD_KEYS_DEBUG (b : Nat) : Fld := ⟨0x12068, 8 + b, 1, 0x0⟩
def UPD_EVT_BUSY : Fld := ⟨0x1206C, 0, 1, 0x0⟩
def UPD_EVT_REFUSED : Fld := ⟨0x1206C, 1, 1, 0x0⟩
def UPD_EVT_VFAIL : Fld := ⟨0x1206C, 2, 1, 0x0⟩
def UPD_EVT_UNDO : Fld := ⟨0x1206C, 3, 1, 0x0⟩
def UPD_EVT_FALLBACK : Fld := ⟨0x1206C, 4, 1, 0x0⟩
def UPD_EVT_CONFIRM : Fld := ⟨0x1206C, 5, 1, 0x0⟩
def UPD_EVT_SETTINGS : Fld := ⟨0x1206C, 6, 1, 0x0⟩
def UPD_EVT_FLOOR : Fld := ⟨0x1206C, 7, 1, 0x0⟩
def UPD_EVCNT_FALLBACK_CNT : Fld := ⟨0x12070, 0, 16, 0x0⟩
def UPD_EVCNT_OTHER_CNT : Fld := ⟨0x12070, 16, 16, 0x0⟩
def UPD_ACTSET_ACTIVE : Fld := ⟨0x12074, 0, 1, 0x0⟩
def UPD_ACTSET_PREV : Fld := ⟨0x12074, 1, 1, 0x0⟩

/-! Registers of R433, spec/15_power_states.md. -/
def PWR_INFO_STATES : Fld := ⟨0x1000, 0, 8, 0x5⟩
def PWR_INFO_BANKS : Fld := ⟨0x1000, 8, 8, 0x17⟩
def PWR_INFO_RETMAX : Fld := ⟨0x1000, 16, 8, 0x8⟩
def PWR_INFO_VER : Fld := ⟨0x1000, 24, 8, 0x1⟩
def PWR_CFG_RTASK : Fld := ⟨0x1004, 0, 4, 0x0⟩
def PWR_CFG_RTASK_EN : Fld := ⟨0x1004, 4, 1, 0x0⟩
def PWR_REQ_TARGET : Fld := ⟨0x1008, 0, 3, 0x0⟩
def PWR_REQ_GO : Fld := ⟨0x1008, 31, 1, 0x0⟩
def PWR_STATUS_STATE : Fld := ⟨0x100C, 0, 3, 0x0⟩
def PWR_STATUS_TARGET : Fld := ⟨0x100C, 3, 3, 0x0⟩
def PWR_STATUS_OUTCOME : Fld := ⟨0x100C, 6, 2, 0x0⟩
def PWR_STATUS_REASON : Fld := ⟨0x100C, 8, 4, 0x0⟩
def PWR_STATUS_REFUSER : Fld := ⟨0x100C, 12, 4, 0x0⟩
def PWR_STATUS_SOURCE : Fld := ⟨0x100C, 16, 2, 0x0⟩
def PWR_STATUS_STEP : Fld := ⟨0x100C, 18, 4, 0x0⟩
def PWR_RET_BANKS (b : Nat) : Fld := ⟨0x1010, b, 1, 0x0⟩
def PWR_WCFG_WAKEN_EN : Fld := ⟨0x1014, 0, 1, 0x1⟩
def PWR_WCFG_LW_EN (b : Nat) : Fld := ⟨0x1014, 1 + b, 1, 0x0⟩
def PWR_WCFG_LW_POL (b : Nat) : Fld := ⟨0x1014, 5 + b, 1, 0x0⟩
def PWR_WCFG_PCIE_EN : Fld := ⟨0x1014, 9, 1, 0x1⟩
def PWR_WCFG_FILT : Fld := ⟨0x1014, 10, 8, 0x21⟩
def PWR_WAKE_SRC : Fld := ⟨0x1018, 0, 4, 0x0⟩
def PWR_WAKE_FROM : Fld := ⟨0x1018, 4, 3, 0x0⟩
def PWR_WAKE_DUR : Fld := ⟨0x1018, 16, 16, 0x0⟩
def PWR_WFAULT_WRITTEN : Fld := ⟨0x101C, 0, 4, 0x0⟩
def PWR_WFAULT_DROPPED : Fld := ⟨0x101C, 4, 8, 0x0⟩
def PWR_BLK_STOPPED (b : Nat) : Fld := ⟨0x1020, b, 1, 0x0⟩
def PWR_EVT_REFUSED : Fld := ⟨0x1024, 0, 1, 0x0⟩
def PWR_EVT_WAKEFAIL : Fld := ⟨0x1024, 1, 1, 0x0⟩
def PWR_EVT_RETLOST : Fld := ⟨0x1024, 2, 1, 0x0⟩
def PWR_EVT_WFDROP : Fld := ⟨0x1024, 3, 1, 0x0⟩
def PWR_EVT_PFAIL : Fld := ⟨0x1024, 4, 1, 0x0⟩
def PWR_EVCNT_REFUSED_CNT : Fld := ⟨0x1028, 0, 16, 0x0⟩
def PWR_EVCNT_OTHER_CNT : Fld := ⟨0x1028, 16, 16, 0x0⟩

/-! Registers of R455, spec/16_balls_and_electrical.md. -/
def GLB_STRAP_DEVID : Fld := ⟨0x20, 0, 2, 0x0⟩
def GLB_STRAP_TWIN_SIDE : Fld := ⟨0x20, 2, 1, 0x0⟩
def GLB_STRAP_PORST : Fld := ⟨0x20, 3, 1, 0x0⟩
def GLB_SUPPLY_PG_CORE : Fld := ⟨0x24, 0, 1, 0x1⟩
def GLB_SUPPLY_PG_IO : Fld := ⟨0x24, 1, 1, 0x1⟩
def GLB_SUPPLY_PFAIL : Fld := ⟨0x24, 2, 1, 0x0⟩
def GLB_SUPPLY_LANE_OK (b : Nat) : Fld := ⟨0x24, 3 + b, 1, 0x1⟩
def GLB_SUPPLY_BANK_OK (b : Nat) : Fld := ⟨0x24, 6 + b, 1, 0x0⟩
def GLB_SUPPLY_MRAM_OK : Fld := ⟨0x24, 8, 1, 0x1⟩
def GLB_SUPPLY_GP_OK : Fld := ⟨0x24, 9, 1, 0x1⟩
def GLB_TEMP_T_LA : Fld := ⟨0x28, 0, 8, 0x0⟩
def GLB_TEMP_T_LB : Fld := ⟨0x28, 8, 8, 0x0⟩
def GLB_TEMP_T_LC : Fld := ⟨0x28, 16, 8, 0x0⟩
def GLB_TEMP_T_SOC : Fld := ⟨0x28, 24, 8, 0x0⟩
def GLB_START_CFG_MS : Fld := ⟨0x2C, 0, 16, 0x0⟩
def GLB_START_SCAN_MS : Fld := ⟨0x2C, 16, 16, 0x0⟩

end Reg
end Sys2Proof.Machine
end

