-- ==== Sys2Proof/Machine/Sparse.lean ====
section
/-! DEFINITION. Sparse tables: a list of (key, value) pairs in one canonical form, keys strictly rising and no entry
equal to what an unlisted key reads as. Registers, memories and per-lane or per-task records are such tables. -/

namespace Sys2Proof.Machine.Sparse

/-- What the table holds at `k`; `d` where it lists nothing. -/
def get {α : Type} : List (Nat × α) → Nat → α → α
  | [], _, d => d
  | (k', v) :: r, k, d => if k' = k then v else get r k d

/-- Writes `v` at `k`, keeping the keys in rising order. -/
def put {α : Type} : List (Nat × α) → Nat → α → List (Nat × α)
  | [], k, v => [(k, v)]
  | (k', v') :: r, k, v =>
    if k < k' then (k, v) :: (k', v') :: r
    else if k = k' then (k, v) :: r
    else (k', v') :: put r k v

/-- Removes `k`. -/
def del {α : Type} (m : List (Nat × α)) (k : Nat) : List (Nat × α) := m.filter fun p => p.1 ≠ k

/-- Writes `v` at `k`, where an unlisted key reads `d`: writing `d` removes the entry. -/
def set {α : Type} [DecidableEq α] (m : List (Nat × α)) (k : Nat) (d v : α) : List (Nat × α) :=
  if v = d then del m k else put m k v

/-- The canonical form's first half: every key is at least `lo` and the keys rise strictly. -/
def rising {α : Type} : Nat → List (Nat × α) → Bool
  | _, [] => true
  | lo, (k, _) :: r => decide (lo ≤ k) && rising (k + 1) r

/-- The canonical form's second half: no entry is the default `d`. -/
def noDefault {α : Type} [DecidableEq α] (d : α) (m : List (Nat × α)) : Bool := m.all fun p => p.2 ≠ d

/-- The canonical form. -/
def wf {α : Type} [DecidableEq α] (d : α) (m : List (Nat × α)) : Bool := rising 0 m && noDefault d m

/-- Drops every entry with `lo ≤ key < lo + n`. -/
def clear {α : Type} (m : List (Nat × α)) (lo n : Nat) : List (Nat × α) :=
  m.filter fun p => !(decide (lo ≤ p.1) && decide (p.1 < lo + n))

/-- The entries with `lo ≤ key < lo + n`, in order. -/
def range {α : Type} (m : List (Nat × α)) (lo n : Nat) : List (Nat × α) :=
  m.filter fun p => decide (lo ≤ p.1) && decide (p.1 < lo + n)

/-- Makes `[dst, dst + n)` hold what `[src, src + n)` holds. -/
def copy {α : Type} (m : List (Nat × α)) (src dst n : Nat) : List (Nat × α) :=
  (range m src n).foldl (fun acc p => put acc (p.1 - src + dst) p.2) (clear m dst n)

end Sys2Proof.Machine.Sparse
end

