-- ==== Sys2Proof/Machine/Ops.lean ====
section
/-! DEFINITION. The named operations over fields, memories and per-lane records that every meaning is written in. -/

namespace Sys2Proof.Machine
open Reg Hid

/-! ### Fields -/

/-- The value of a field: what was last put there, or its reset value (R14). -/
def State.get (s : State) (f : Fld) : Nat := Sparse.get s.fld f.key f.reset

/-- Puts a value into a field, cut to the field's width. -/
def State.set (s : State) (f : Fld) (v : Nat) : State :=
  { s with fld := Sparse.set s.fld f.key f.reset (v % 2 ^ f.w) }

/-- A field that reads as not zero. -/
def State.on (s : State) (f : Fld) : Bool := s.get f != 0

/-- Puts a truth value into a field. -/
def State.put (s : State) (f : Fld) (b : Bool) : State := s.set f (bit b)

/-- Adds `n` to a counter that stays at its largest value (R77). -/
def State.add (s : State) (f : Fld) (n : Nat) : State := s.set f (satAdd f.w (s.get f) n)

/-- Adds one to a saturating counter. -/
def State.inc (s : State) (f : Fld) : State := s.add f 1

/-- Sets an event flag and counts it in its companion counter (R14). -/
def State.raise (s : State) (f c : Fld) : State := (s.set f 1).inc c

/-- Sets a field on a condition. -/
def State.setIf (s : State) (b : Bool) (f : Fld) (v : Nat) : State := if b then s.set f v else s

/-- The `n` hidden fields of one kind from `f` on go back to their reset values. -/
def State.restore (s : State) (f : Fld) (n : Nat) : State := { s with fld := Sparse.clear s.fld f.key (32 * n) }

/-- The registers at the `n` addresses from `a` go back to their reset values. -/
def State.resetRegs (s : State) (a n : Nat) : State := { s with fld := Sparse.clear s.fld (32 * a) (32 * n) }

/-- Does `f` on a condition. -/
def State.when (s : State) (b : Bool) (f : State → State) : State := if b then f s else s

/-- Does `f` for each element of a list, in order. -/
def State.each {α : Type} (s : State) (l : List α) (f : State → α → State) : State := l.foldl f s

/-- The numbers below `n`. -/
def upto (n : Nat) : List Nat := List.range n

/-- The device is out of internal reset and neither in SLEEP, DEEP SLEEP nor OFF: its blocks have clock and power (R418,
R442). -/
def State.powered (s : State) : Bool := decide (s.get PW_STATE ≤ 1) && !s.on IN_RESET

/-- The block of a step of the stop sequence is stopped (R421). -/
def State.blk (s : State) (n : Nat) : Bool := s.on (PWR_BLK_STOPPED (n - 1))

/-- What a command does that can happen only when `b` holds, in whatever power state: where it does not hold, the event is
none and nothing changes (log 7). -/
def happens (b : Bool) (s : State) (f : State → State) : Host.Outcome State Fault Refusal :=
  .next (if b then f s else s)

/-- What a command does that can happen only in a device that has power, when `b` holds (log 7). -/
def occurs (b : Bool) (s : State) (f : State → State) : Host.Outcome State Fault Refusal := happens (s.powered && b) s f

/-! ### Byte memories; words are little-endian (R13, R40) -/

/-- What a byte that nothing has written reads as: a free value where the contents have been destroyed, 0 elsewhere
(log 2, log 4). -/
def unwritten : List Junk → Nat → Byte
  | [], _ => 0
  | j :: r, a =>
    if j.base ≤ a ∧ a < j.base + j.len then Config.freeByte j.draw (a - j.base + j.off) else unwritten r a

/-- The byte at an address. -/
def State.byte (s : State) (a : Nat) : Byte := Sparse.get s.mem a (unwritten s.junk a)

/-- Writes one byte. -/
def State.setByte (s : State) (a : Nat) (b : Byte) : State :=
  { s with mem := Sparse.set s.mem a (unwritten s.junk a) b }

/-- `n` bytes from `a`, as a little-endian number. -/
def State.rd (s : State) (a : Nat) : Nat → Nat
  | 0 => 0
  | n + 1 => (s.byte a).toNat + 256 * s.rd (a + 1) n

/-- Writes `n` bytes at `a`, little-endian. -/
def State.wr (s : State) (a : Nat) : Nat → Nat → State
  | 0, _ => s
  | n + 1, v => (s.setByte a (BitVec.ofNat 8 v)).wr (a + 1) n (v / 256)

/-- The word at `a`. -/
def State.word (s : State) (a : Nat) : Word := BitVec.ofNat 32 (s.rd a 4)

/-- Writes a word at `a`. -/
def State.setWord (s : State) (a : Nat) (w : Word) : State := s.wr a 4 w.toNat

/-- The `n` words from `a`. -/
def State.words (s : State) (a : Nat) : Nat → List Word
  | 0 => []
  | n + 1 => s.word a :: s.words (a + 4) n

/-- Writes words from `a` on. -/
def State.setWords (s : State) (a : Nat) : List Word → State
  | [] => s
  | w :: r => (s.setWord a w).setWords (a + 4) r

/-- The `n` bytes from `a`. -/
def State.bytes (s : State) (a : Nat) : Nat → List Byte
  | 0 => []
  | n + 1 => s.byte a :: s.bytes (a + 1) n

/-- Writes bytes from `a` on. -/
def State.setBytes (s : State) (a : Nat) : List Byte → State
  | [] => s
  | b :: r => (s.setByte a b).setBytes (a + 1) r

/-- What is left of a destroyed region outside `[lo, lo + n)`. -/
def Junk.outside (j : Junk) (lo n : Nat) : List Junk :=
  let l := min j.len (lo - j.base)
  let h := max 0 (lo + n - j.base)
  (if 0 < l then [{ j with len := l }] else []) ++
    (if h < j.len then [{ j with base := j.base + h, len := j.len - h, off := j.off + h }] else [])

/-- What a destroyed region has inside `[src, src + n)`, moved to `dst`. -/
def Junk.moved (j : Junk) (src dst n : Nat) : List Junk :=
  let lo := max j.base src
  let hi := min (j.base + j.len) (src + n)
  if lo < hi then [{ base := lo - src + dst, len := hi - lo, draw := j.draw, off := j.off + (lo - j.base) }] else []

/-- Makes `[dst, dst + n)` hold what `[src, src + n)` holds. -/
def State.copy (s : State) (src dst n : Nat) : State :=
  { s with mem := Sparse.copy s.mem src dst n,
           junk := s.junk.flatMap (fun j => j.moved src dst n) ++ s.junk.flatMap fun j => j.outside dst n }

/-- Sets `n` bytes from `a` to 0. -/
def State.zero (s : State) (a n : Nat) : State :=
  { s with mem := Sparse.clear s.mem a n, junk := s.junk.flatMap fun j => j.outside a n }

/-- Destroys the contents of `n` bytes from `a`: each is a free value until it is written (log 4). -/
def State.destroy (s : State) (a n : Nat) : State :=
  { s with mem := Sparse.clear s.mem a n, freeCount := s.freeCount + 1,
           junk := { base := a, len := n, draw := s.freeCount, off := 0 } :: s.junk.flatMap fun j => j.outside a n }

/-! ### Per-lane and per-task records -/

/-- The key of a lane and a task. -/
def ltKey (l : Lane) (t : Nat) : Nat := l.idx * 16 + t

/-- The context of a task in a lane (R38). -/
def State.ctx (s : State) (l : Lane) (t : Nat) : Ctx := Sparse.get s.ctxs (ltKey l t) Ctx.start

/-- Puts a context. -/
def State.setCtx (s : State) (l : Lane) (t : Nat) (c : Ctx) : State :=
  { s with ctxs := Sparse.set s.ctxs (ltKey l t) Ctx.start c }

/-- What a lane holds ready to present for a task. -/
def State.presOf (s : State) (l : Lane) (t : Nat) : Option Pres := Sparse.get s.pres (ltKey l t) none

/-- Puts what a lane holds ready to present. -/
def State.setPres (s : State) (l : Lane) (t : Nat) (p : Option Pres) : State :=
  { s with pres := Sparse.set s.pres (ltKey l t) none p }

/-- The balance of a task. -/
def State.bal (s : State) (t : Nat) : Balance := Sparse.get s.bals t Balance.empty

/-- Puts the balance of a task. -/
def State.setBal (s : State) (t : Nat) (b : Balance) : State :=
  { s with bals := Sparse.set s.bals t Balance.empty b }

/-- The latched SYS values of a task (R61). -/
def State.sys (s : State) (t : Nat) : SysLatch := Sparse.get s.sysLatch t SysLatch.start

/-- Puts the latched SYS values of a task. -/
def State.setSys (s : State) (t : Nat) (v : SysLatch) : State :=
  { s with sysLatch := Sparse.set s.sysLatch t SysLatch.start v }

/-- The latched state of a flow for a task (R60). -/
def State.flowSeen (s : State) (t f : Nat) : FlowLatch := Sparse.get s.flowLatch (t * 512 + f) FlowLatch.unconfigured

/-- Puts the latched state of a flow for a task. -/
def State.setFlowSeen (s : State) (t f : Nat) (v : FlowLatch) : State :=
  { s with flowLatch := Sparse.set s.flowLatch (t * 512 + f) FlowLatch.unconfigured v }

/-- The SYS state of a task as words: WA of the functions 0x00 to 0x07 (R61, R369). -/
def SysLatch.words (y : SysLatch) : List Word :=
  [y.lanes, y.sync, y.lease, y.lane, BitVec.ofNat 32 y.period, y.first, BitVec.ofNat 32 (bit y.powerFwd), y.furlong]

/-- The SYS state that words give (R61, R369). -/
def SysLatch.ofRecord (ws : List Word) : SysLatch :=
  let w := fun (i : Nat) => ws.getD i 0
  { lanes := w 0, allIn := (w 0).toNat % 8 == 7, sync := w 1, inSync := (w 1).toNat == 4, lease := w 2,
    active := (w 2).toNat.testBit 1, lane := w 3, period := (w 4).toNat, first := w 5, powerFwd := (w 6).toNat.testBit 0,
    furlong := w 7 }

/-- The latched state of a flow as a word, as record A lays it out: the ages, STALE and repeat (R60, R369). -/
def FlowLatch.word (x : FlowLatch) : Word :=
  BitVec.ofNat 32 (x.rxAge % 256 + 256 * (x.sndAge % 256) + 65536 * bit x.stale + 131072 * bit x.rep)

/-- The state of a flow that a word gives. -/
def FlowLatch.ofWord (w : Word) : FlowLatch :=
  { rxAge := w.toNat % 256, sndAge := w.toNat / 256 % 256, stale := w.toNat.testBit 16, rep := w.toNat.testBit 17 }

/-- The sample-dissent run count of a lane for a source of a task (R82). -/
def State.run (s : State) (src t : Nat) (l : Lane) : Nat := Sparse.get s.runs ((src * 16 + t) * 3 + l.idx) 0

/-- Puts a run count. -/
def State.setRun (s : State) (src t : Nat) (l : Lane) (n : Nat) : State :=
  { s with runs := Sparse.set s.runs ((src * 16 + t) * 3 + l.idx) 0 n }

/-! ### Free values -/

/-- A free value below `2 ^ w` and the state after drawing it (log 4). -/
def State.free (s : State) (w : Nat) : Nat × State :=
  (Config.freeValue s.freeCount % 2 ^ w, { s with freeCount := s.freeCount + 1 })

/-! ### Time -/

/-- Grains in a microsecond and in a millisecond (4 ns a grain). -/
def grainsUs : Nat := 250
/-- Grains in a millisecond. -/
def grainsMs : Nat := 250000

/-- The free-running grain count. -/
def State.now (s : State) : Nat := s.get FREE

/-- The middle one of three numbers. -/
def median3 (a b c : Nat) : Nat := max (min a b) (min (max a b) c)

/-- Network time as the device takes it: the median of the three lanes' times (R234). -/
def State.netTime (s : State) : Nat := median3 (s.get (TNET 0)) (s.get (TNET 1)) (s.get (TNET 2))

/-- The furlong in grains. -/
def State.furlongGrains (s : State) : Nat := s.get TN_FURLONG_LEN_US * grainsUs

/-- The furlong number (R233). -/
def State.furlong (s : State) : Nat := s.netTime / s.furlongGrains

/-- The network time of the first action instant of a task at or after `from`: T = F × F_g + OFFSET with F mod k equal
to PHASE (R257). -/
def State.instantFrom (s : State) (t start : Nat) : Nat :=
  let k := s.get (TSK_CFG_KPER t) + 1
  let f := ceilDiv (start - s.get (TSK_OFFSET_OFFSET t)) s.furlongGrains
  let f := f + (s.get (TSK_OFFSET_PHASE t) + k - f % k) % k
  f * s.furlongGrains + s.get (TSK_OFFSET_OFFSET t)

/-- A field's value read as two's complement of `w` bits. -/
def signed (w v : Nat) : Int := if v < 2 ^ (w - 1) then v else (v : Int) - (2 ^ w : Nat)

/-- Two's complement of `w` bits. -/
def unsigned (w : Nat) (i : Int) : Nat := (i % (2 ^ w : Nat)).toNat

/-- A number held between two limits. -/
def clampI (lo hi i : Int) : Int := if i < lo then lo else if hi < i then hi else i

/-- The fraction of network time after `n` ticks at the applied rate, before its carries are taken off (R242). -/
def State.rateSum (s : State) (n : Nat) : Int := s.get RATE_FRAC + n * signed 32 (s.get TN_RATE_RATE)

/-- How many of the slew's steps fall in the next `n` ticks: one every 64th tick, from the boundary on (R242). -/
def State.slewSteps (s : State) (n : Nat) : Nat :=
  let t := s.get SLEW_T
  min (signed 16 (s.get SLEW_N)).natAbs (ceilDiv (t + n) 64 - ceilDiv t 64)

/-- By how much network time advances in `n` ticks (R233, R242). -/
def State.netGain (s : State) (n : Nat) : Int :=
  n + s.rateSum n / 4294967296 + (signed 16 (s.get SLEW_N)).sign * s.slewSteps n

/-- Time passes: `n` grains of the timebase (R233, R242, log 3). -/
def State.elapse (s : State) (n : Nat) : State :=
  let gain := s.netGain n
  let left := signed 16 (s.get SLEW_N) - (signed 16 (s.get SLEW_N)).sign * s.slewSteps n
  let s := s.each Lane.all fun s l => s.set (TNET l.idx) ((s.get (TNET l.idx) : Int) + gain).toNat
  let s := (s.set RATE_FRAC (s.rateSum n % 4294967296).toNat).set SLEW_T (if left = 0 then 0 else s.get SLEW_T + n)
  (s.set SLEW_N (unsigned 16 left)).set FREE (s.now + n)

/-- One grain of the timebase passes, where the device has power (R233, log 28). -/
def State.tick (s : State) : State := if s.powered then s.elapse 1 else s

/-- A timed event happens when it is due: where that lies ahead, time passes until then (log 3). -/
def State.elapseTo (s : State) (due : Nat) : State := if s.now < due then s.elapse (due - s.now) else s

/-- The search of `ticksTo` from `n` ticks on: it goes forward by fewer ticks than are certain to be wanting, one at a time near
the end, since 32 ticks never gain more than 34. -/
def State.ticksFrom (s : State) (d : Nat) : Nat → Nat → Nat
  | 0, n => n
  | fuel + 1, n =>
    let short := ((d : Int) - s.netGain n).toNat
    if short = 0 then n else State.ticksFrom s d fuel (n + max 1 (short - short / 32 - 3))

/-- The least number of ticks in which network time advances by `d` grains (R233, R242). -/
def State.ticksTo (s : State) (d : Nat) : Nat := s.ticksFrom d 64 (d - d / 32 - 3)

/-- Time passes until network time has reached `due`, where that lies ahead (log 3). -/
def State.elapseNet (s : State) (due : Nat) : State :=
  if due ≤ s.netTime then s else s.elapse (s.ticksTo (due - s.netTime))

/-- Operating time in ms (R382). -/
def State.opTime (s : State) : Nat := s.get REC_OPTIME_LO_MS + 2 ^ 32 * s.get REC_OPTIME_HI_MS

/-! ### Reserved bits of contexts that a register shows (R16, R217, R351) -/

/-- The defined bits of the words of a flow context (R217). -/
def flowBits : List Nat := [0x07FF00DF, 0x003FFFFF, 0xFFFFFFFF, 0x003FFFFF, 0x000003FF, 0, 0, 0xFFFFFFFF]

/-- The defined bits of the words of an export context (R351). -/
def exportBits : List Nat := [0x001FFFFF, 0x00000FFF, 0xFFFFFFFF, 0xFFFFFFFF]

/-- The defined bits of the words of an import context (R351). -/
def importBits : List Nat := [0x007FFFFF, 0x0FFF000F, 0x000000FF, 0xFFFFFFFF, 0xFFFFFFFF]

/-- Word `i` of a context with its reserved bits read as 0 (R16). -/
def definedBits (masks : List Nat) (i w : Nat) : Nat := w &&& masks.getD i 0

/-! ### The recorder's front (R379 to R381, R384, R386 to R388) -/

/-- The severity of a code (R381, R394 and the tables of the chapters that state their own). -/
def severity (code : Nat) : Nat :=
  if code = 0x1016 then 4
  else if [0x1004, 0x1006, 0x100A, 0x1015, 0x2001, 0x3001, 0x3003, 0x3005, 0x4001, 0x4003, 0x4004, 0x4006, 0x5001,
    0x600C, 0x7123, 0x8003, 0x8004, 0x8005, 0x900A, 0x9010].contains code then 3
  else if [0x1013, 0x1021, 0x1040, 0x1050, 0x2010, 0x2012, 0x2013, 0x2020, 0x2022, 0x2024, 0x2030, 0x2031, 0x2040,
    0x2041, 0x3002, 0x3004, 0x3006, 0x4002, 0x4008, 0x400B, 0x5002, 0x500C, 0x500E, 0x5801, 0x5804, 0x5805, 0x5806,
    0x580E, 0x580F, 0x5810, 0x6002, 0x6004, 0x6007, 0x7001, 0x7110, 0x7120, 0x7124, 0x7127, 0x8001, 0x8012, 0x8013,
    0x8016, 0xA001, 0xA002, 0xA007, 0x9001, 0x9003, 0x9005, 0x9008, 0x9009, 0x900B, 0x900D, 0x0001, 0x0003, 0x0010, 0x0012, 0x0013].contains code then 1
  else 2

/-- Codes whose third 16-bit parameter carries data; these are never merged (R388). -/
def carriesThird (code : Nat) : Bool :=
  [0x0011, 0x0020, 0x2012, 0x2041, 0x5005, 0x7103, 0x7110].contains code

/-- The source byte of a record: the code's own source, the device identity and the twin side (R379). -/
def State.srcByte (s : State) (src : Nat) : Nat :=
  src % 16 + 16 * s.get GLB_STRAP_DEVID + (if s.on TW_CFG_EN then 64 * s.get GLB_STRAP_TWIN_SIDE else 0)

/-- A record merged with one more occurrence (R388). -/
def Rec.merge (r : Rec) : Rec := { r with flags := r.flags ||| 1, c := min (r.c + 1) 65535 }

/-- Whether an event with this code and source byte at this time merges into the record (R388). -/
def State.merges (s : State) (code src : Nat) (r : Rec) : Bool :=
  r.code == code && r.src == src && decide (s.opTime < r.time + 1000) && !carriesThird code &&
    !(s.on REC_STAT_FCLOSED && decide ((r.seq.getD 8193) ≤ 8192))

/-- Merges the event into the record that it repeats: in the queue while it is there, for a rewrite of its slot
otherwise (R388). -/
def State.mergeInto (s : State) (r : Rec) : State :=
  let up := fun (x : Rec) => if x.id = r.id then x.merge else x
  let queued := s.recQ.any fun x => x.id == r.id
  let s := { s with recQ := s.recQ.map up, recRecent := s.recRecent.map up }
  let s := if queued then s
    else if s.recRew.any fun x => x.id == r.id then { s with recRew := s.recRew.map up }
    else { s with recRew := s.recRew ++ [r.merge] }
  s.inc REC_MERGE_COUNT

/-- Puts a record at the end of the queue with the next SEQ, if the start search is done (R384). -/
def State.enqueueRec (s : State) (code src p32 a b c flags : Nat) : State :=
  let n := s.get REC_NEXT
  let ready := s.on REC_STAT_READY
  let r : Rec := { id := s.get REC_ID, seq := if ready then some n else none, code := code, src := src, flags := flags,
                   time := s.opTime, pcyc := s.get REC_PCYC_COUNT, p32 := p32 % 2 ^ 32, a := a % 2 ^ 16,
                   b := b % 2 ^ 16, c := c % 2 ^ 16, written := 0 }
  let s := { s with recQ := s.recQ ++ [r], recRecent := (r :: s.recRecent).take 32 }
  let s := s.set REC_ID (s.get REC_ID + 1)
  let s := if ready then s.set REC_NEXT (if n = 8192 then 8194 else n + 1) else s
  s.set REC_STAT_QDEPTH s.recQ.length

/-- An event of a block: merged, queued, or lost to a full queue or an exhausted recorder (R384, R387, R388).
`src` is the low four bits of the source byte; `p32`, `a`, `b`, `c` are the parameters of the code's table. -/
def State.ev (s : State) (code src p32 : Nat) (a : Nat := 0) (b : Nat := 0) (c : Nat := 0) : State :=
  let sb := s.srcByte src
  match s.recRecent.find? (s.merges code sb) with
  | some r => s.mergeInto r
  | none =>
    if s.on REC_STAT_EXHAUST then s.inc REC_LOSS_COUNT
    else if s.recQ.length ≥ 512 then
      let s := if s.get REC_LOST = 0 then (s.set REC_LCODE code).set REC_LSRC sb else s
      ((s.inc REC_LOSS_COUNT).inc REC_LOST).raise REC_EVT_QLOSS REC_EVCNT_QLOSS_CNT
    else s.enqueueRec code sb p32 a b c 0

/-! ### Lane states (R98) -/

/-- The states of a lane. -/
inductive LaneState where
  | start | vote | probation | assay | seeding | retired
  deriving DecidableEq, Repr

/-- The code of a lane state. -/
def LaneState.code : LaneState → Nat
  | .start => 0 | .vote => 1 | .probation => 2 | .assay => 3 | .seeding => 4 | .retired => 5

/-- The lane state of a code; the reserved codes 6 and 7 never occur and read as RETIRED. -/
def LaneState.ofCode (n : Nat) : LaneState :=
  if n = 0 then .start else if n = 1 then .vote else if n = 2 then .probation
  else if n = 3 then .assay else if n = 4 then .seeding else .retired

/-- The state of a lane, as LN_STATUS shows it. -/
def State.lane (s : State) (l : Lane) : LaneState := .ofCode (s.get (LN_STATUS_ST l.idx))

/-- A lane in VOTE or PROBATION: it drives its enables and its SAFEOK toggles (R98). -/
def State.voting (s : State) (l : Lane) : Bool :=
  match s.lane l with
  | .vote | .probation => true
  | _ => false

/-- A lane that takes part in agreement and balance: VOTE, PROBATION, or START until it leaves it (R81, R98). -/
def State.inVote (s : State) (l : Lane) : Bool := s.voting l || s.lane l == .start

/-- A lane that is out: in ASSAY, SEEDING or RETIRED. -/
def State.out (s : State) (l : Lane) : Bool := !s.inVote l

/-- Whether a lane takes part in a task's vote: in the vote, or seeding and already seeded in the task (R98, R102). -/
def State.votes (s : State) (l : Lane) (t : Nat) : Bool :=
  s.inVote l || (s.lane l == .seeding && s.on (SEEDED l.idx t))

/-- The lanes in a task's vote, in letter order. -/
def State.voters (s : State) (t : Nat) : List Lane := Lane.all.filter fun l => s.votes l t

/-- The lane that a task's vote exercise uses in this period, if any; the exercise is suspended while fewer than three
lanes are in the vote (R95, R97). -/
def State.exercisedLane (s : State) (t : Nat) : Option Lane :=
  if (s.voters t).length = 3 then Lane.ofCode (s.get (VEX_NOW t)) else none

/-- The presentation of the lane that the vote exercise uses this period counts toward no agreement (R95). -/
def State.exercised (s : State) (t : Nat) (l : Lane) : Bool := s.exercisedLane t == some l

/-- The bit mask of the lanes that satisfy a test: bit 0 LA. -/
def laneMask (p : Lane → Bool) : Nat := bit (p .la) + 2 * bit (p .lb) + 4 * bit (p .lc)

/-- Puts a lane state and the DUPLEX flag that follows from the three (R115). -/
def State.setLane (s : State) (l : Lane) (x : LaneState) : State :=
  let s := s.set (LN_STATUS_ST l.idx) x.code
  s.put LN_STATUS_DUPLEX ((Lane.all.filter s.inVote).length == 2)

/-- The device safe state (R106). -/
def State.safe (s : State) : Bool := s.on LN_STATUS_SAFE

/-! ### Tasks (R65) -/

/-- The sixteen task numbers. -/
def tasks : List Nat := upto 16

/-- An enabled task. -/
def State.enabled (s : State) (t : Nat) : Bool := s.on (TSK_CFG_EN t)

/-- A safety task. -/
def State.isSafety (s : State) (t : Nat) : Bool := s.on (TSK_CFG_SAFETY t)

/-- The lane of a SINGLE task, none for a TRIPLE task (TSK_STATE.MODE). -/
def State.singleLane (s : State) (t : Nat) : Option Lane := Lane.ofCode (s.get (TSK_STATE_MODE t))

/-- A TRIPLE task. -/
def State.isTriple (s : State) (t : Nat) : Bool := (s.singleLane t).isNone

/-- The enabled TRIPLE tasks. -/
def State.tripleTasks (s : State) : List Nat := tasks.filter fun t => s.enabled t && s.isTriple t

/-- The task period T in µs: k furlongs (R65). -/
def State.periodUs (s : State) (t : Nat) : Nat := (s.get (TSK_CFG_KPER t) + 1) * s.get TN_FURLONG_LEN_US

/-- The task period in grains. -/
def State.periodGrains (s : State) (t : Nat) : Nat := s.periodUs t * grainsUs

/-- Where a task executes: its one lane, or the lanes in its vote. -/
def State.lanesOf (s : State) (t : Nat) : List Lane :=
  match s.singleLane t with
  | some l => [l]
  | none => s.voters t

/-- The tasks ordered by priority, highest first (R34, R69). -/
def State.byPriority (s : State) : List Nat :=
  (upto 16).filterMap fun p => tasks.find? fun t => s.enabled t && s.get (TSK_CFG_PRIO t) == p

/-- The program states of R119. -/
inductive ProgState where
  | stop | run | hold | safe
  deriving DecidableEq, Repr

/-- The code of a program state. -/
def ProgState.code : ProgState → Nat
  | .stop => 0 | .run => 1 | .hold => 2 | .safe => 3

/-- The program state of a code. -/
def ProgState.ofCode (n : Nat) : ProgState :=
  if n = 0 then .stop else if n = 1 then .run else if n = 2 then .hold else .safe

/-- The program state, as DBG_PSTATE shows it. -/
def State.prog (s : State) : ProgState := .ofCode (s.get DBG_PSTATE_STATE)

/-- A task that is tripped (R72). -/
def State.tripped (s : State) (t : Nat) : Bool := s.on (TSK_STATE_TRIPPED t)

/-- A task stopped under R111 or R112. -/
def State.stopped (s : State) (t : Nat) : Bool := s.on (DBG_TSTAT_STOPPED t)

/-- A halted task (R132). -/
def State.halted (s : State) (t : Nat) : Bool := s.on (DBG_TSTAT_HALTED t)

/-- Whether a task scans: enabled, in RUN or HOLD, started, and neither tripped, stopped nor halted (R119, R133). -/
def State.scans (s : State) (t : Nat) : Bool :=
  s.enabled t && (s.prog == .run || s.prog == .hold) && s.on (STARTED t) && !s.tripped t && !s.stopped t && !s.halted t

/-- The permits (R122). -/
def State.standPermit (s : State) : Bool := s.on DBG_PSTATE_STAND
/-- The maintenance permit. -/
def State.maintPermit (s : State) : Bool := s.on DBG_PSTATE_MAINT

end Sys2Proof.Machine
end

