-- ==== Sys2Proof/Machine/BridgeOps.lean ====
section
/-! DEFINITION. The bridge's shared operations: operations in flight and their limits, held reads, far-side writes and
their ends, the packets of a companion link and a link that leaves UP (R321 to R327, R334 to R338). Far sides are
numbered 0 PCIe, 1 to 4 CL0 to CL3. -/

namespace Sys2Proof.Machine
open Reg Hid

/-- The companion links. -/
def links : List Nat := upto 4

/-- A link in state UP (R336). -/
def State.linkUp (s : State) (k : Nat) : Bool := s.get (CL_STAT_STATE k) == 4

/-- A link that is UP and has the role TWIN. -/
def State.twinLink (s : State) : Option Nat := links.find? fun k => s.get (CL_CFG_ROLE k) == 2 && s.linkUp k

/-- The link sends a packet: the next sequence, the last good sequence acknowledged (R334, R335). -/
def State.sendCl (s : State) (k : Nat) (p : ClPacket) : State :=
  let q := (s.get (CL_TXS k) + 1) % 256
  let s := s.set (CL_TXS k) q
  { s with lastCl := Sparse.set s.lastCl k none (some { p with seq := q, ack := s.get (CL_RXS k) }) }

/-! ### Operations in flight (R322, R323) -/

/-- A 64-byte line count. -/
def linesOf (len : Nat) : Nat := ceilDiv len 64

/-- A write of initiator 5 to the completion rings or the shadow page, or a doorbell poll of initiator 8: what the eight
reserved PCIe operations are for (R322). -/
def State.reserved (s : State) (o : FarOp) : Bool :=
  let page := o.addr / 4096 * 4096
  let sh := s.get HIF_SHPAGE_LO_ADDR * 4096 + s.get HIF_SHPAGE_HI_ADDR * 2 ^ 32
  let inRing := (upto 16).any fun r =>
    let b := s.get (HIF_CQ_BASE_LO_ADDR r) * 4096 + s.get (HIF_CQ_BASE_HI_ADDR r) * 2 ^ 32
    s.on (HIF_CQ_CFG_EN r) && decide (b ≤ o.addr) && decide (o.addr < b + 1024 * 2 ^ s.get (HIF_CQ_CFG_SIZE r))
  (o.ini == 5 && o.kind == 2 && (page == sh || inRing)) || (o.ini == 8 && o.kind == 0)

/-- The operations in flight on a far side. -/
def State.flying (s : State) (far : Nat) : List FarOp := s.farOps.filter fun o => o.far == far && o.st == .flying

/-- The operations of a far side that still hold a place there: in flight, or given up with the response to come. -/
def State.placed (s : State) (far : Nat) : List FarOp :=
  s.farOps.filter fun o => o.far == far && (o.st == .flying || o.st == .orphan)

/-- Whether an operation of the right class is free (R322). -/
def State.opFree (s : State) (o : FarOp) : Bool :=
  let busy := s.placed o.far
  if o.far = 0 then
    decide (busy.length < 128) &&
      (s.reserved o || decide ((busy.filter fun x => !s.reserved x).length < 120))
  else
    decide (busy.length < 16) && (o.kind == 1 || decide ((busy.filter fun x => x.kind != 1).length < 12)) &&
      s.on (CL_OPS_CREDITS (o.far - 1))

/-- The lines that the reads of a class hold: retry reads, or held reads (R324). -/
def State.lines (s : State) (p : FarOp → Bool) : Nat :=
  (s.farOps.filter fun o => p o && o.kind != 2 && (o.st == .flying || o.st == .buffered)).foldl
    (fun n o => n + linesOf o.len) 0

/-- Whether return-buffer lines are free for a read: 16 for held reads, 48 for retry reads and 16 of one initiator
(R324). -/
def State.linesFree (s : State) (o : FarOp) : Bool :=
  if o.kind = 2 then true
  else if o.kind = 1 then decide (s.lines (fun x => x.kind == 1) + linesOf o.len ≤ 16)
  else
    decide (s.lines (fun x => x.kind == 0) + linesOf o.len ≤ 48) &&
      decide (s.lines (fun x => x.kind == 0 && x.ini == o.ini) + linesOf o.len ≤ 16)

/-- Shows the operations in flight and keeps their largest numbers (R349, R350). -/
def State.showBr (s : State) : State :=
  let p := (s.flying 0).length
  let c := (links.map fun k => (s.flying (k + 1)).length).foldl (· + ·) 0
  let n := s.lines fun _ => true
  let s := ((s.set BR_OPS_PCIE p).set BR_OPS_CL c).set BR_OPS_LINES n
  let s := (s.set BR_OPSMAX_PCIE (max p (s.get BR_OPSMAX_PCIE))).set BR_OPSMAX_CL (max c (s.get BR_OPSMAX_CL))
  let s := s.set BR_OPSMAX_LINES (max n (s.get BR_OPSMAX_LINES))
  s.each links fun s k => s.set (CL_OPS_OUT k) (s.flying (k + 1)).length

/-- The lowest tag that no operation of a far side holds (R334). -/
def State.freeTag (s : State) (far : Nat) : Nat :=
  ((upto 128).find? fun n => !(s.placed far).any fun o => o.tag == n).getD 0

/-- Replaces an operation. -/
def State.putOp (s : State) (o o' : FarOp) : State := { s with farOps := s.farOps.map fun x => if x = o then o' else x }

/-- Removes an operation. -/
def State.dropOp (s : State) (o : FarOp) : State := { s with farOps := s.farOps.filter fun x => x ≠ o }

/-- Issues an operation that waits: a link request takes a credit and leaves as a packet. A completion timeout counts from
here, a hold timeout from the presentation (R322, R325, R327, R338). -/
def State.issue (s : State) (o : FarOp) : State :=
  let tag := s.freeTag o.far
  let s := s.putOp o { o with st := .flying, tag := tag, began := if o.kind = 1 then o.began else s.now }
  if o.far = 0 then s
  else
    let k := o.far - 1
    (s.set (CL_OPS_CREDITS k) (s.get (CL_OPS_CREDITS k) - 1)).sendCl k
      { kind := if o.kind = 2 then 2 else 0, tag := tag, seq := 0, ack := 0, addr := o.addr, len := o.len, spec := 0,
        data := if o.kind = 2 then o.data else [] }

/-- The waiting request of lowest initiator ID that can be issued (R323). -/
def State.nextWaiting (s : State) : Option FarOp :=
  (upto 9).findSome? fun i => s.farOps.find? fun o => o.st == .waiting && o.ini == i && s.opFree o && s.linesFree o

/-- Issues waiting requests as long as operations are free, at most `n` of them. -/
def State.pumpN (s : State) : Nat → State
  | 0 => s
  | n + 1 => match s.nextWaiting with
    | some o => (s.issue o).pumpN n
    | none => s

/-- Issues what can be issued and shows the operations in flight. -/
def State.pump (s : State) : State := (s.pumpN 16).showBr

/-! ### Requests -/

/-- Puts a held read or a write at its initiator's port, where it waits for an operation (R323, R325, R327). -/
def State.presentOp (s : State) (kind ini far addr len : Nat) (sharers : List Nat) (data : List Byte) : State :=
  let o : FarOp :=
    { kind := kind, ini := ini, sharers := sharers, far := far, tag := 0, addr := addr, len := len, data := data,
      st := .waiting, began := s.now, arrived := 0 }
  State.pump { s with farOps := s.farOps ++ [o] }

/-- A write fails at its initiator: 0 error response, 1 timeout, 2 link down (R327). -/
def State.writeFailed (s : State) (o : FarOp) (cause : Nat) : State :=
  let s := (s.raise BR_EVT_WRFAIL BR_EVCNT_OTHER_CNT).ev 0x7103 0 (o.addr % 2 ^ 32) o.ini o.far cause
  (s.dropOp o).set (BR_ANS o.ini) 3

/-- A far-side write of an initiator; toward a link that is not UP it fails at once (R327, R337). -/
def State.farWrite (s : State) (ini far addr : Nat) (data : List Byte) : State :=
  if far ≠ 0 ∧ s.linkUp (far - 1) = false then
    ((s.raise BR_EVT_WRFAIL BR_EVCNT_OTHER_CNT).ev 0x7103 0 (addr % 2 ^ 32) ini far 2).set (BR_ANS ini) 3
  else s.presentOp 2 ini far addr data.length [ini] data

/-- The initiator has a write that has not completed (R327). -/
def State.writing (s : State) (ini : Nat) : Bool := s.farOps.any fun o => o.kind == 2 && o.ini == ini

/-- The mirroring engine makes its next write, when its last one has completed (R327). -/
def State.pumpTwin (s : State) : State :=
  match s.twinOut, s.twinLink with
  | (a, d) :: r, some k =>
    if s.writing 4 then s else State.farWrite { s with twinOut := r } 4 (k + 1) a d
  | _, _ => s

/-- Cuts data into writes of at most 512 bytes. -/
def chunks512 : Nat → Nat → List Byte → List (Nat × List Byte)
  | 0, _, _ => []
  | n + 1, a, d => if d.isEmpty then [] else (a, d.take 512) :: chunks512 n (a + 512) (d.drop 512)

/-- The mirroring engine writes to the partner's window, when the TWIN link is UP (R327, R357). -/
def State.twinSend (s : State) (addr : Nat) (d : List Byte) : State :=
  match s.twinLink with
  | some _ => State.pumpTwin { s with twinOut := s.twinOut ++ chunks512 (d.length / 512 + 1) addr d }
  | none => s

/-- An operation in flight on a far side under a tag. -/
def State.tagged (s : State) (far tag : Nat) : Option FarOp :=
  s.farOps.find? fun o => o.far == far && o.tag == tag && (o.st == .flying || o.st == .orphan)

/-! ### Presence (R343) -/

/-- The member that a group link leads to (R340). -/
def State.memberOf (s : State) (k : Nat) : Nat := (s.get GRP_STAT_DEVID + k + 1) % 4

/-- A link that is wanted: its role is not off, and a group link leads to a DEVID below N (R336, R340). -/
def State.wanted (s : State) (k : Nat) : Bool :=
  s.on (CL_CFG_ROLE k) && (s.get (CL_CFG_ROLE k) != 1 || (decide (k < 3) && decide (s.memberOf k ≤ s.get GRP_CFG_SIZE)))

/-- A member is present through a link: UP, role GROUP, the partner not lost. -/
def State.presentVia (s : State) (k : Nat) : Bool :=
  s.linkUp k && s.get (CL_CFG_ROLE k) == 1 && !s.on (PAL_LOST k)

/-- The members of the group that are present, as a mask with this device's own bit. -/
def State.memberMask (s : State) : Nat :=
  (upto 3).foldl (fun n k => if s.presentVia k then n ||| 2 ^ s.memberOf k else n) (2 ^ s.get GRP_STAT_DEVID)

/-- Shows the members present; a member lost and a group completed are events (R343). -/
def State.showGroup (s : State) : State :=
  if !s.on GRP_CFG_EN then s
  else
    let n := s.get GRP_CFG_SIZE + 1
    let was := (upto 4).foldl (fun m d => m + s.get (GRP_STAT_PRESENT d) * 2 ^ d) 0
    let new := s.memberMask
    let s := s.each (upto 4) fun s d => s.put (GRP_STAT_PRESENT d) (new.testBit d)
    let s := s.each ((upto 3).filter fun k => was.testBit (s.memberOf k) && !new.testBit (s.memberOf k)) fun s k =>
      (s.raise GRP_EVT_MEMBER GRP_EVCNT_OTHER_CNT).ev 0x7121 0 (s.memberOf k) k
    let all := (upto n).all fun d => new.testBit d
    let s := if all && !s.on GRP_STAT_COMPLETE then s.ev 0x7120 0 new else s
    s.put GRP_STAT_COMPLETE all

/-! ### Imports being read (R346) -/

/-- The import that the task image loaders read now. -/
def State.importing (s : State) : Option Nat := (upto 12).find? fun i => s.on (IMP_ON i)

/-- The loaders of some lanes get no record of the import they read: a read failed or timed out (R346). -/
def State.loadersFail (s : State) (inis : List Nat) : State :=
  match s.importing with
  | none => s
  | some i =>
    let s := s.each (Lane.all.filter fun l => inis.contains l.idx) fun s l => s.set (IMP_CHK l.idx i) 6
    if s.farOps.any fun o => o.kind == 1 && decide (o.ini < 3) && o.st != .buffered && o.st != .orphan then s
    else (s.set (IMP_ON i) 0).set (IMP_DONE i) 1

/-! ### A link leaves UP (R335 to R337) -/

/-- Every operation of a link fails: writes with cause 2, held reads at once, retry reads at their next reissue (R337). -/
def State.failLink (s : State) (k : Nat) : State :=
  let s := s.each (s.farOps.filter fun o => o.far == k + 1) fun s o =>
    if o.kind = 2 then s.writeFailed o 2
    else if o.kind = 1 then
      let live := o.st == .waiting || o.st == .flying
      let s := s.each o.sharers (fun s i => s.setIf live (BR_ANS i) 3) |>.dropOp o
      if live && decide (o.ini < 3) then s.loadersFail o.sharers else s
    else if o.st = .flying then s.putOp o { o with st := .failed }
    else s
  let s := ((s.set (CL_OPS_INQ k) 0).set (CL_OPS_CREDITS k) 0).set (BR_PALERT_WORD k) 0
  (if s.get (CL_CFG_ROLE k) = 2 then { s with twinOut := [] } else s).pump

/-- A link leaves UP, with the cause of event 0x7111, for the state `to` (R336, R337). -/
def State.linkDown (s : State) (k cause goal : Nat) : State :=
  let up := s.linkUp k
  let s := ((s.set (CL_STAT_STATE k) goal).set (CL_WAITAT k) s.now).set (CL_ALIGN k) 0
  if up then
    let secs := (s.now - s.get (CL_UPAT k)) / (1000 * grainsMs)
    let s := (s.raise (CL_EVT_DOWN k) (CL_EVCNT_LINK_CNT k)).ev 0x7111 0 k cause (min 65535 secs)
    (((s.failLink k).set (CL_DELAY_DELAY k) 0xFF).set (PAL_LOST k) 0).showGroup
  else s

/-! ### Group time at a furlong boundary (R344) -/

/-- Member 0 sends a TIME packet on each group link; another member that takes its time from it misses one more, and the
eighth furlong without one loses group time (R344). -/
def State.groupBoundary (s : State) : State :=
  if !s.on GRP_CFG_EN || !s.on GRP_CFG_TSRC then s
  else if s.get GRP_STAT_DEVID = 0 then
    s.each ((upto 3).filter fun k => s.linkUp k && s.get (CL_CFG_ROLE k) == 1) fun s k =>
      s.sendCl k { kind := 5, tag := 0, seq := 0, ack := 0, addr := 0, len := 8, spec := 0, data := leBytes 8 s.netTime }
  else
    let st := s.get GRP_STAT_TSTATE
    let n := min 8 (s.get GRP_TF + 1)
    let s := s.set GRP_TF n
    if n = 8 ∧ (st = 2 ∨ st = 3) then
      ((s.set GRP_STAT_TSTATE 4).raise GRP_EVT_TIME GRP_EVCNT_OTHER_CNT).ev 0x7126 0 0x7FFFFFFF 1
    else s

/-! ### The alert word (R330) -/

/-- Every enabled export slice was ready by its deadline in the last furlong (R330). -/
def State.exportsReady (s : State) : Bool :=
  (upto 4).all fun x => !((Sparse.get s.cfg.exports x []).getD 0 0).testBit 20 || s.get (EXP_LATEF x) != s.furlong

/-- The alert word with a given heartbeat and twin attention bit (R330). -/
def State.alertWord (s : State) (beat attention : Nat) : Nat :=
  beat % 256 + 256 * s.get DBG_PSTATE_STATE + 1024 * bit s.safe + 2048 * bit s.exportsReady + 4096 * attention +
    65536 * s.get BR_ALERTSW_SW

/-- The alert word as it reads now (R330). -/
def State.alertNow (s : State) : Nat := s.alertWord (s.get BR_ALERT_WORD) (s.get BR_ALERT_WORD / 4096 % 2)

end Sys2Proof.Machine
end

