-- ==== Sys2Proof/Machine/Images.lean ====
section
/-! DEFINITION. Image containers, operator keys, and what the spec names of published cryptographic standards without
giving it: the hash, the signatures and this device's fused and derived keys are opaque, as are the payload formats of logic
images and configuration sets (R9, R395 to R398, R413, log 5). -/

namespace Sys2Proof.Config
open Sys2Proof.Machine

/-- SHA3-512 of bytes (FIPS 202, R9). -/
opaque sha3 : List Byte → Nat
/-- Whether a signature of a 64-byte digest verifies with an ML-DSA-87 public key (FIPS 204, R9). -/
opaque mldsaVerify : List Byte → Nat → List Byte → Bool
/-- The bytes of the ML-DSA-87 signature of a digest with the device's identity key (R414). -/
opaque signByte : Nat → Nat → Byte
/-- The bytes of the identity public key, derived from the device-unique secret (R413). -/
opaque identityKey : Nat → Byte
/-- The bytes of the device certificate that the spec does not state: the serial, the remaining header, the root key block
and the signature (R413). -/
opaque deviceCertByte : Nat → Byte
/-- The fused hash of the root public key (R397). -/
opaque rootKeyHash : Nat
/-- What the payload of a logic image says, none where it is none (log 5). -/
opaque decodeLogic : List Byte → Option LogicImage
/-- What the payload of a configuration set says, none where it is none (log 5). -/
opaque decodeConfig : List Byte → Option ConfigSet

end Sys2Proof.Config

namespace Sys2Proof.Machine
open Reg Hid

/-- The 64 bytes of a hash. -/
def hashBytes (h : Nat) : List Byte := beBytes 64 h

/-! ### Containers (R395 to R397) -/

/-- A container's header (R396). -/
structure ImgHdr where
  marker : Nat
  ver : Nat
  kind : Nat
  olc : Bool
  flagsOk : Bool
  part : Nat
  maj : Nat
  min : Nat
  signer : Nat
  plen : Nat
  svn : Nat
  floor : Nat
  layout : Nat
  base : Nat
  schema : Nat
  zeroOk : Bool
  deriving DecidableEq, Repr

/-- Reads a header from its 128 bytes. -/
def imgHdr (b : List Byte) : ImgHdr :=
  let w := fun (i n : Nat) => ofLe (slice b i n)
  { marker := w 0 4, ver := w 4 1, kind := w 5 1 % 16, olc := (w 5 1).testBit 4, flagsOk := decide (w 5 1 < 32),
    part := w 6 2, maj := w 8 1, min := w 9 1, signer := w 10 1, plen := w 12 4, svn := w 16 8, floor := w 24 8,
    layout := w 32 8, base := w 40 8, schema := w 48 2,
    zeroOk := w 11 1 == 0 && w 50 2 == 0 && w 56 72 == 0 }

/-- The length of the signer key block (R396). -/
def ImgHdr.keyLen (h : ImgHdr) : Nat := if h.signer = 0xFF then 2592 else 0

/-- The length of a container (R396). -/
def ImgHdr.total (h : ImgHdr) : Nat := 128 + h.plen + h.keyLen + 4628

/-- The place of a kind in the image area, and the size of its slot (R395). -/
def kindSlot (k : Nat) : Nat × Nat :=
  match k with
  | 0 => (0, 0x100000)
  | 1 => (0x100000, 0x200000)
  | 2 => (0x300000, 0xC0000)
  | 3 => (0, 0x100000)
  | _ => (0, 9972)

/-- The header checks of R402 that give reason 4: marker, version, kind, part code, stepping, reserved fields, the bounds
of FLOOR and of the layout fields (R396). -/
def ImgHdr.formOk (h : ImgHdr) (k maj min : Nat) : Bool :=
  h.marker == 0x4C5A4331 && h.ver == 1 && h.kind == k && h.flagsOk && (!h.olc || k == 1) && h.part == 0x3C64 &&
    decide (h.maj * 256 + h.min ≤ maj * 256 + min) && h.plen % 4 == 0 && decide (h.floor ≤ h.svn) && h.zeroOk &&
    (k == 1 || (h.layout == 0 && h.base == 0)) && (h.olc || h.base == 0) && (k == 1 || k == 3 || h.schema == 0) &&
    (k != 4 || h.plen == 2624)

/-- The digest of a container: every byte before the signature (R397). -/
def containerDigest (b : List Byte) : Nat := Config.sha3 (b.take (128 + (imgHdr b).plen + (imgHdr b).keyLen))

/-- The signature of a container. -/
def containerSig (b : List Byte) : List Byte := slice b (128 + (imgHdr b).plen + (imgHdr b).keyLen) 4627

/-- The payload of a container. -/
def containerPayload (b : List Byte) : List Byte := slice b 128 (imgHdr b).plen

/-- The logic image of a container, with the hashes of its header. -/
def logicOf (b : List Byte) : Option LogicImage :=
  (Config.decodeLogic (containerPayload b)).map fun im =>
    { im with layoutHash := (imgHdr b).layout, baseHash := (imgHdr b).base }

/-- The configuration set of a container. -/
def configOf (b : List Byte) : Option ConfigSet := Config.decodeConfig (containerPayload b)

/-! ### Operator keys (R398) -/

/-- The permissions of a key index, 0 where it is empty. -/
def State.keyPerms (s : State) (i : Nat) : Nat := s.rd (keyStore i + 1) 1
/-- The key SVN of a key index. -/
def State.keySvn (s : State) (i : Nat) : Nat := s.rd (keyStore i + 4) 4
/-- The public key of a key index. -/
def State.keyBytes (s : State) (i : Nat) : List Byte := s.bytes (keyStore i + 32) 2592

/-- Whether a signer may sign a kind: the root key for kinds 0, 4 and 5, an enrolled key with the permission for kinds 1
to 3 (R395, R398). -/
def State.signerOk (s : State) (k signer : Nat) : Bool :=
  if k = 0 ∨ 4 ≤ k then signer == 0xFF
  else decide (signer < 8) && (s.keyPerms signer).testBit (k - 1)

/-- Whether the signature of a container holds (R397). -/
def State.sigOk (s : State) (b : List Byte) : Bool :=
  let h := imgHdr b
  if h.signer = 0xFF then
    let key := slice b (128 + h.plen) 2592
    Config.sha3 key == Config.rootKeyHash && Config.mldsaVerify key (containerDigest b) (containerSig b)
  else Config.mldsaVerify (s.keyBytes h.signer) (containerDigest b) (containerSig b)

/-- Shows the enrolled keys and those with a debug permission (R416). -/
def State.showKeys (s : State) : State :=
  s.each (upto 8) fun s i =>
    (s.put (UPD_KEYS_ENROLLED i) (s.keyPerms i != 0)).put (UPD_KEYS_DEBUG i) (s.keyPerms i / 8 % 16 != 0)

/-- SHA3-512 of the identity public key (R414). -/
def identityHash : Nat := Config.sha3 ((upto 2592).map Config.identityKey)

/-- A byte of the device certificate: marker, version, kind, part code, signer, payload length, the zeros and the identity
public key as the spec states them, the rest opaque (R396, R413). -/
def deviceCert (i : Nat) : Byte :=
  if i < 4 then (leBytes 4 0x4C5A4331).getD i 0
  else if i = 4 then 1 else if i = 5 then 5
  else if i < 8 then (leBytes 2 0x3C64).getD (i - 6) 0
  else if i = 10 then 0xFF else if i = 11 then 0
  else if 12 ≤ i ∧ i < 16 then (leBytes 4 2624).getD (i - 12) 0
  else if (32 ≤ i ∧ i < 52) ∨ (56 ≤ i ∧ i < 128) ∨ (144 ≤ i ∧ i < 160) ∨ i = 9971 then 0
  else if 160 ≤ i ∧ i < 2752 then Config.identityKey (i - 160)
  else Config.deviceCertByte i

end Sys2Proof.Machine
end

