-- ==== Sys2Proof/Machine/RingOps.lean ====
section
/-! DEFINITION. The host rings' shared operations: host memory, MSI-X, descriptors in progress and their outcomes
(R292 to R310). -/

namespace Sys2Proof.Machine
open Reg Hid

/-! ### Host memory and MSI-X -/

/-- Writes bytes to host memory at a bus address. -/
def State.hostWrite (s : State) (a : Nat) : List Byte → State
  | [] => s
  | b :: r => ({ s with hostMem := Sparse.put s.hostMem a b }).hostWrite (a + 1) r

/-- Message address of a vector in the MSI-X table (R319, PRESUMED PCI Express, log 16). -/
def MSIX_ADDR_LO (v : Nat) : Fld := ⟨0xD800 + 16 * v, 0, 32, 0⟩
/-- Upper message address. -/
def MSIX_ADDR_HI (v : Nat) : Fld := ⟨0xD804 + 16 * v, 0, 32, 0⟩
/-- Message data. -/
def MSIX_DATA (v : Nat) : Fld := ⟨0xD808 + 16 * v, 0, 32, 0⟩
/-- Vector mask: every vector is masked at reset. -/
def MSIX_MASK (v : Nat) : Fld := ⟨0xD80C + 16 * v, 0, 1, 1⟩
/-- Pending bit of a vector. -/
def MSIX_PENDING (v : Nat) : Fld := ⟨0xDA00, v, 1, 0⟩

/-- A vector's message is sent, or its pending bit set while it is masked (R309). -/
def State.msix (s : State) (v : Nat) : State :=
  if s.on (MSIX_MASK v) then s.set (MSIX_PENDING v) 1 else s.inc (V_MSG v)

/-- Every fault of the host interface raises a message on HIF_EVVEC (R310). -/
def State.faultMsg (s : State) : State := s.msix (s.get HIF_EVVEC_VEC)

/-- The vector's posted completions are signalled (R309). -/
def State.signal (s : State) (v : Nat) : State := (s.set (V_CNT v) 0).msix v

/-- A completion is posted on a ring that signals: the message goes at COUNT, or at once with TIME 0 (R309). -/
def State.countVector (s : State) (v : Nat) : State :=
  let s := s.setIf (!s.on (V_CNT v)) (V_AT v) s.now
  let s := s.inc (V_CNT v)
  if max 1 (s.get (HIF_VMOD_COUNT v)) ≤ s.get (V_CNT v) ∨ s.get (HIF_VMOD_TIME v) = 0 then s.signal v else s

/-! ### Rings -/

/-- The entries of a ring of this size code; the reserved code holds none (R318). -/
def ringSize (code : Nat) : Nat := if code < 7 then 64 * 2 ^ code else 0

/-- The entries of a submission ring. -/
def State.sqSize (s : State) (r : Nat) : Nat := ringSize (s.get (HIF_SQ_CFG_SIZE r))
/-- The entries of a completion ring. -/
def State.cqSize (s : State) (r : Nat) : Nat := ringSize (s.get (HIF_CQ_CFG_SIZE r))

/-- The shadow page's bus address. -/
def State.shPage (s : State) : Nat := s.get HIF_SHPAGE_LO_ADDR * 4096 + s.get HIF_SHPAGE_HI_ADDR * 2 ^ 32

/-- Writes words of the shadow page (R294). A write that fails is kept and made again with the next one (R310); `ok` says
whether the host's memory takes this one. -/
def State.shadow (s : State) (ok : Bool) (ws : List (Nat × Nat)) : State :=
  let q := ws.foldl (fun (q : List (Nat × Nat)) (w : Nat × Nat) => Sparse.put q w.1 w.2) s.shadowQ
  let s := { s with shadowQ := q }
  if ok then
    State.each { s with shadowQ := [] } q fun s w => s.hostWrite (s.shPage + w.1) (leBytes 4 w.2)
  else ((s.raise HIF_EVT_SHFAIL HIF_EVCNT_FAULT_CNT).ev 0x700A 0 (ws.headD (0, 0)).1).faultMsg

/-- The host interface polls and processes rings: enabled and not in D3hot (R289, R311). -/
def State.hifOn (s : State) : Bool := s.on HIF_CTL_EN && !s.on D3 && !s.on PERST && !s.blk 8

/-- A submission ring stops fetching, with its cause (R310). -/
def State.sqMark (s : State) (r cause : Nat) : State :=
  let s := ((s.set (HIF_SQ_STAT_FAULT r) 1).set (HIF_SQ_STAT_FCAUSE r) cause).set (HIF_SQFAULT_RINGS r) 1
  s.raise HIF_EVT_SQFAULT HIF_EVCNT_FAULT_CNT

/-- A submission ring faults on its own (R310). -/
def State.sqFault (s : State) (r cause : Nat) : State :=
  ((s.sqMark r cause).ev 0x7004 0 r cause (s.get (HIF_SQ_STAT_HEAD r))).faultMsg

/-- The enabled submission rings that have not faulted. -/
def State.sqLive (s : State) (r : Nat) : Bool := s.on (HIF_SQ_CFG_EN r) && !s.on (HIF_SQ_STAT_FAULT r)

/-- The descriptors of a submission ring. -/
def State.ringDescs (s : State) (r : Nat) : List Desc := s.descs.filter fun d => d.ring == r

/-- Shows how many descriptors are in progress (R317, R318). -/
def State.showProg (s : State) : State :=
  let s := s.set HIF_INPROG_COUNT s.descs.length
  s.each (upto 16) fun s r =>
    let n := (s.ringDescs r).length
    (s.set (HIF_SQ_STAT_INPROG r) n).put (HIF_SQ_STAT_IDLE r) (n == 0)

/-- The submission rings that name a completion ring. -/
def State.ringsOf (s : State) (c : Nat) : List Nat := (upto 16).filter fun r => s.get (HIF_SQ_CFG_CQ r) == c

/-- A completion ring faults: its finished descriptors are discarded, its submission rings stop (R310). -/
def State.cqFault (s : State) (c kind : Nat) : State :=
  let lost := s.descs.filter fun d => (s.ringsOf c).contains d.ring && (match d.st with | .done _ _ => true | _ => false)
  let s := (s.set (HIF_CQ_STAT_FAULT c) 1).set (HIF_CQFAULT_RINGS c) 1
  let s := s.add (HIF_CQ_STAT_LOST c) lost.length
  let s := ({ s with descs := s.descs.filter fun d => !lost.contains d }).showProg
  let s := (s.raise HIF_EVT_CQFAULT HIF_EVCNT_FAULT_CNT).ev 0x7005 0 c kind lost.length
  s.faultMsg.each ((s.ringsOf c).filter s.sqLive) fun s r => s.sqMark r 3

/-! ### Descriptors in progress (R299, R301, R304) -/

/-- Replaces a descriptor in progress, found by its ring and slot. -/
def State.putDesc (s : State) (d : Desc) : State :=
  { s with descs := s.descs.map fun x => if x.ring = d.ring ∧ x.slot = d.slot then d else x }

/-- A descriptor finishes with a status and a result; its completion is posted later (R301, R304). -/
def State.finish (s : State) (d : Desc) (status : Nat) (result : Nat := 0) : State :=
  s.putDesc { d with st := .done status result }

/-- A descriptor waits for its block's outcome. -/
def State.await (s : State) (d : Desc) : State := s.putDesc { d with st := .waiting }

/-- The waiting descriptors of an opcode that satisfy a test finish with a status and a result. -/
def State.settle (s : State) (op : Nat) (p : Desc → Bool) (status result : Nat) : State :=
  { s with descs := s.descs.map fun d =>
      if d.op = op ∧ d.st = .waiting ∧ p d = true then { d with st := .done status result } else d }

/-- The descriptor of a ring that starts next: the first one not started, unless a fence holds it back (R299). -/
def State.nextDesc (s : State) (r : Nat) : Option Desc :=
  let ds := s.ringDescs r
  match (if s.powered then ds.find? fun d => d.st = .queued else none) with
  | none => none
  | some d =>
    let before := ds.takeWhile fun x => x.st ≠ .queued
    if before.any (fun x => x.fence) || (d.fence && !before.isEmpty) then none else some d

/-- Starts the next descriptor of a ring when it has this opcode (R299, R301). -/
def State.start (s : State) (r op : Nat) (f : State → Desc → State) : State :=
  match s.nextDesc r with
  | some d => if d.op = op then f s d else s
  | none => s

/-- Status codes of R304. -/
def stSuccess : Nat := 0
/-- A reserved field or unused parameter is not 0, or a parameter is out of range. -/
def stBadParam : Nat := 3
/-- Address not a multiple of 4, or length outside the opcode's range. -/
def stBadBuffer : Nat := 4
/-- A host-memory access for the buffer failed. -/
def stHostMem : Nat := 5
/-- Unlock or scope missing. -/
def stNoUnlock : Nat := 6
/-- A permit needed by the command itself is false. -/
def stNoPermit : Nat := 7
/-- The target block refused. -/
def stRefused : Nat := 8
/-- An update session is held by another source. -/
def stSessionBusy : Nat := 9
/-- Flow, object or task is not of the kind the opcode needs. -/
def stNotTarget : Nat := 10
/-- Resource occupied. -/
def stBusy : Nat := 11
/-- Refused in the device safe state. -/
def stSafe : Nat := 12
/-- A waited-for action was cancelled. -/
def stAborted : Nat := 13
/-- Snapshot not captured within its attempts. -/
def stTimeout : Nat := 14
/-- Task not scanning. -/
def stNotScanning : Nat := 15
/-- Buffer shorter than needed. -/
def stBufferSmall : Nat := 16
/-- Internal failure. -/
def stDeviceError : Nat := 17

/-- A host-memory access for a descriptor's buffer failed: the descriptor completes with HOST_MEM, and like every fault this
raises a message on HIF_EVVEC (R310). -/
def State.bufferFailed (s : State) (d : Desc) : State := (s.finish d stHostMem).faultMsg

/-- Writes bytes to a descriptor's buffer and finishes it with their number; too small a buffer, or host memory that
does not answer, is a status of its own (R301, R304). -/
def State.answer (s : State) (d : Desc) (memOk : Bool) (bs : List Byte) : State :=
  if d.len < bs.length then s.finish d stBufferSmall bs.length
  else if !memOk then s.bufferFailed d
  else (s.hostWrite d.buf bs).finish d stSuccess bs.length

/-- A relayed session ends with the TWIN link: its command is answered ABORTED (R403). -/
def State.relayEnd (s : State) : State :=
  let s := if s.on REL_BUSY then s.settle (s.get REL_OP) (fun _ => true) stAborted 0 else s
  (s.set REL_BUSY 0).set REL_ON 0

/-- Finishes a request of a block: refused with its reason, or waiting for the outcome (R301, R302). -/
def State.outcome (s : State) (d : Desc) (pending : Bool) (reason : Nat) : State :=
  if reason ≠ 0 then s.finish d (if s.safe then stSafe else stRefused) reason
  else if pending then s.await d else s.finish d stSuccess

end Sys2Proof.Machine
end

