-- ==== Sys2Proof/Machine/CanOps.lean ====
section
/-! DEFINITION. The CAN controllers' objects, requests, receptions and latches: what the CAN commands, the task
instants and the host ring share (R266 to R286). -/

namespace Sys2Proof.Machine
open Reg Hid

/-! ### Objects (R268, R269) -/

/-- The configuration of a message object. -/
structure CanObj where
  dir : Nat
  ide : Bool
  fdf : Bool
  brs : Bool
  safety : Bool
  trig : Nat
  collPol : Bool
  host : Bool
  accFmt : Nat
  len : Nat
  id : Nat
  mask : Nat
  off : Nat
  task : Nat
  en : Bool
  soff : Nat
  sen : Bool
  crcOk : Bool
  deriving DecidableEq, Repr

/-- Reads an object from its configuration words in the message memory (R269). -/
def State.canObj (s : State) (n k : Nat) : CanObj :=
  let w := fun (i : Nat) => s.rd (canMem n k + 4 * i) 4
  { dir := w 0 % 4, ide := (w 0).testBit 2, fdf := (w 0).testBit 3, brs := (w 0).testBit 4, safety := (w 0).testBit 5,
    trig := w 0 / 64 % 4, collPol := (w 0).testBit 8, host := (w 0).testBit 9, accFmt := w 0 / 1024 % 4,
    len := w 0 / 4096 % 128, id := w 1 % 2 ^ 29, mask := w 2 % 2 ^ 29, off := w 3 % 65536, task := w 3 / 65536 % 16,
    en := (w 3).testBit 20, soff := w 4 % 65536, sen := (w 4).testBit 16,
    crcOk := w 7 == crc32c (s.bytes (canMem n k) 28) }

/-- The direction of an object, its context's DIR (R269). -/
def State.objDir (s : State) (n k : Nat) : Nat := (s.byte (canMem n k)).toNat % 4

/-- The four controllers. -/
def cans : List Nat := upto 4

/-- The objects of a controller in a direction (1 SEND, 2 RECEIVE) that are in use. -/
def State.objects (s : State) (n dir : Nat) : List Nat :=
  (upto 128).filter fun k => s.objDir n k == dir && !s.on (CO_DIS n k)

/-- The objects that have a request pending. -/
def State.canPending (s : State) (n : Nat) : List Nat := (upto 128).filter fun k => s.on (CN_PEND n k)

/-- Writes word 8 of an object: its flags, run and LOST count (R268). -/
def State.showObj (s : State) (n k : Nat) : State :=
  s.wr (canMem n k + 0x20) 4 (s.get (CN_PEND n k) + 2 * s.get (CN_COLL n k) + 4 * s.get (CO_STOP n k) +
    256 * s.get (CO_RUN n k) + 65536 * s.get (CO_LOST n k))

/-- The controller's objects are loaded again from the configuration set (R271). -/
def State.reloadObjects (s : State) (n : Nat) : State :=
  s.each (s.cfg.bytes.filter fun p => decide (canMem n 0 ≤ p.1) && decide (p.1 < canMem n 0 + 0x4000)) fun s p =>
    s.setByte p.1 p.2

/-- An object fails its check: skipped for this use, the objects reloaded; a second failure within 1 s disables it
(R271). -/
def State.objectFailure (s : State) (n k : Nat) : State :=
  let again := s.on (CO_FAILAT n k) && decide (s.now + 1 ≤ s.get (CO_FAILAT n k) + 1000 * grainsMs)
  let s := ((s.raise (CN_EVT_CHECK n) (CN_EVCNT_OTHER_CNT n)).ev 0x600B n k (bit again)).set (CO_FAILAT n k) (s.now + 1)
  if again then s.set (CO_DIS n k) 1 else s.reloadObjects n

/-- The data lengths of a frame format (R266). -/
def canLens (fd : Bool) : List Nat := [0, 1, 2, 3, 4, 5, 6, 7, 8] ++ if fd then [12, 16, 20, 24, 32, 48, 64] else []

/-- A nominal bit in CAN clock periods (R281). -/
def State.nominalBit (s : State) (n : Nat) : Nat :=
  (s.get (CN_NBT_N_PRE n) + 1) * (3 + s.get (CN_NBT_N_PH1 n) + s.get (CN_NBT_N_PH2 n))

/-- Eleven recessive bits in grains: a CAN clock period of 12.5 ns is 25/8 grains (R266, R281). -/
def State.integration (s : State) (n : Nat) : Nat := ceilDiv (11 * s.nominalBit n * 25) 8

/-- The controllers' pins float: internal reset, start-up before the configuration set is applied, and the power states in which
the controllers are off (R267, R418, R437). -/
def State.canFloats (s : State) : Bool := s.on IN_RESET || decide (s.get START_STEP < 3) || decide (2 ≤ s.get PW_STATE)

/-- What a CNn_TX pin carries: it floats, it is recessive, or it carries the frame in progress of an object (R267). -/
inductive CanTx where
  | floating | recessive
  | frame (k : Nat)
  deriving DecidableEq, Repr

/-- The CNn_TX pin: a frame leaves only in NORMAL mode; in MONITOR and LOOPBACK it is held recessive (R267). -/
def State.canTx (s : State) (n : Nat) : CanTx :=
  if s.canFloats then .floating
  else if s.get (CN_CTL_MODE n) = 1 ∧ s.on (CN_TXOBJ n) = true then .frame (s.get (CN_TXOBJ n) - 1) else .recessive

/-- The CNn_STB pin: none while it floats, else its level (R267). -/
def State.canStb (s : State) (n : Nat) : Option Bool := if s.canFloats then none else some (s.on (CN_STB n))

/-! ### Requests (R272 to R274, R285, R286) -/

/-- The CAN_SEND descriptors that wait for an object's frame finish: with its timestamp when it is sent, ABORTED when the
request is removed (R301). -/
def State.canAnswer (s : State) (n k status result : Nat) : State :=
  s.settle 0x30 (fun d => d.p0 % 512 == n + 4 * k) status result

/-- Removes a request; a frame in progress completes and is not retried (R272, R286). -/
def State.canRemove (s : State) (n k : Nat) : State :=
  let s := (s.set (CO_AGAIN n k) 0).set (CO_STREQ n k) 0
  if s.get (CN_TXOBJ n) = k + 1 then s.set (CO_DROP n k) 1
  else if s.on (CN_PEND n k) then ((s.set (CN_PEND n k) 0).showObj n k).canAnswer n k stAborted 0
  else s.showObj n k

/-- A request with data becomes pending: it replaces one not started, and waits for a frame in progress (R274). A
stopped object and a safety object in the device safe state make none (R285, R286). -/
def State.canRequest (s : State) (n k : Nat) (data : List Byte) : State :=
  if s.on (CO_STOP n k) || (s.safe && (s.canObj n k).safety) then s
  else
    let s := (s.zero (canReq n k) 64).setBytes (canReq n k) data
    let s := s.set (CO_HAVE n k) 1
    if s.get (CN_TXOBJ n) = k + 1 then s.set (CO_AGAIN n k) 1
    else (s.set (CN_PEND n k) 1).showObj n k

/-- Removes every pending safety request in the device safe state (R286). -/
def State.canWithdrawSafety (s : State) : State :=
  s.each cans fun s n =>
    let ks := (s.canPending n).filter fun k => (s.canObj n k).safety
    let s := s.each ((s.objects n 1).filter fun k => (s.canObj n k).safety) fun s k => s.set (CO_STREQ n k) 0
    if ks.isEmpty then s
    else
      let s := s.each ks fun s k => s.canRemove n k
      (s.raise (CN_EVT_WITHDRAWN n) (CN_EVCNT_OTHER_CNT n)).ev 0x600C n ks.length

/-- The SEND objects that a task's output slice feeds (R272). -/
def State.canSends (s : State) (n t : Nat) : List Nat :=
  (s.objects n 1).filter fun k => (s.canObj n k).en && (s.canObj n k).task == t && !(s.canObj n k).host

/-- The staged entry of an object: word 0 and the data (R272). -/
def State.canEntry (s : State) (o : CanObj) : Nat × List Byte :=
  (s.rd (stagedImg + o.off) 4, s.bytes (stagedImg + o.off + 4) o.len)

/-- What an object's staged entry asks for: withdrawal, or a request as TRIG directs (R272). -/
def State.canStageObj (s : State) (n k : Nat) : State :=
  let o := s.canObj n k
  let e := s.canEntry o
  let req := e.1 % 2 == 1
  let go := match o.trig with
    | 0 => true
    | 1 => !s.on (CO_HAVE n k) || e.2 != s.bytes (canReq n k) o.len
    | _ => req && !s.on (CO_REQ n k)
  let s := s.put (CO_REQ n k) req
  if e.1.testBit 1 then s.canRemove n k
  else if go then ((s.zero (canStaged n k) 64).setBytes (canStaged n k) e.2).set (CO_STREQ n k) 1
  else s

/-- At a task's staging the controllers evaluate its staged entries (R272, R273). -/
def State.canStage (s : State) (t : Nat) : State :=
  s.each cans fun s n => s.each (s.canSends n t) fun s k => s.canStageObj n k

/-- At the action instant the requests made at staging become pending (R272). -/
def State.canLaunch (s : State) (t : Nat) : State :=
  s.each cans fun s n => s.each (s.canSends n t) fun s k =>
    if s.on (CO_STREQ n k) then (s.set (CO_STREQ n k) 0).canRequest n k (s.bytes (canStaged n k) (s.canObj n k).len)
    else s

/-- A restart of a task: no request has been made since (R272). -/
def State.canRestart (s : State) (t : Nat) : State :=
  s.each cans fun s n => s.each (s.canSends n t) fun s k => s.set (CO_HAVE n k) 0

/-! ### Transmit order (R276) -/

/-- An object's arbitration field in the order of the bus: base identifier, base before extended, extension, object
number. -/
def CanObj.rank (o : CanObj) (k : Nat) : Nat :=
  let base := if o.ide then o.id / 2 ^ 18 else o.id % 2 ^ 11
  ((base * 2 + bit o.ide) * 2 ^ 18 + if o.ide then o.id % 2 ^ 18 else 0) * 128 + k

/-- The first of some objects in transmit order. -/
def State.canFirst (s : State) (n : Nat) (ks : List Nat) : Option Nat :=
  ks.foldl (fun best k => match best with
    | some b => if (s.canObj n k).rank k < (s.canObj n b).rank b then some k else some b
    | none => some k) none

/-! ### Receiving (R278, R279) -/

/-- Whether a RECEIVE object takes a frame (R278). -/
def CanObj.takes (o : CanObj) (f : CanFrame) : Bool :=
  o.ide == f.ide && (o.accFmt == 0 || (o.accFmt == 1 && !f.fdf) || (o.accFmt == 2 && f.fdf)) &&
    (f.id &&& o.mask) == (o.id &&& o.mask)

/-- Words 9 to 11 and the data of a frame in an object's memory (R268). -/
def State.putFrame (s : State) (n k : Nat) (f : CanFrame) (sof : Nat) : State :=
  let s := (s.wr (canMem n k + 0x24) 4 (sof % 2 ^ 32)).wr (canMem n k + 0x28) 4
    (f.id + 2 ^ 29 * bit f.fdf + 2 ^ 30 * bit f.brs + 2 ^ 31 * bit f.esi)
  let s := s.wr (canMem n k + 0x2C) 4 f.data.length
  (s.zero (canMem n k + 0x40) 64).setBytes (canMem n k + 0x40) (f.data.take 64)

/-- Stores a received frame in an object; one not latched yet is lost (R278, R279). -/
def State.storeFrame (s : State) (n k : Nat) (f : CanFrame) (sof : Nat) : State :=
  let o := s.canObj n k
  let s := if o.en && s.on (CO_CNT n k) then
      let s := s.inc (CO_LOST n k)
      (s.raise (CN_EVT_LOST n) (CN_EVCNT_OTHER_CNT n)).ev 0x6009 n f.id k (s.get (CO_LOST n k))
    else s
  let s := (s.copy (canMem n k + 0x24) (canPrev n k) 12).copy (canMem n k + 0x40) (canPrev n k + 16) 64
  let s := (s.set (CO_RXT2 n k) (s.get (CO_RXT n k))).set (CO_RXT n k) (s.now + 1)
  ((s.putFrame n k f sof).inc (CO_CNT n k)).showObj n k

/-- A received frame goes to the lowest-numbered object that takes it, after that object's check (R271, R278). -/
def State.canStore (s : State) (n : Nat) (f : CanFrame) (sof : Nat) : State :=
  match (s.objects n 2).find? fun k => (s.canObj n k).takes f with
  | none => s
  | some k => if (s.canObj n k).crcOk then s.storeFrame n k f sof else s.objectFailure n k

/-- The input entry of a RECEIVE object: the newest frame stored at least 250 grains ago (R279). -/
def State.canRxEntry (s : State) (n k : Nat) : List Word :=
  let o := s.canObj n k
  let young := s.on (CO_RXT n k) && decide (s.now < s.get (CO_RXT n k) + 249)
  let base := if young then canPrev n k else canMem n k + 0x24
  let data := if young then canPrev n k + 16 else canMem n k + 0x40
  let cnt := s.get (CO_CNT n k) - bit young
  let idw := s.rd (base + 4) 4
  let len := s.rd (base + 8) 4 % 128
  let age := if 0 < cnt then 0 else s.get (CO_RXAGE n k)
  BitVec.ofNat 32 (len + 128 * bit (decide (0 < cnt)) + 256 * bit (decide (1 < cnt)) + 512 * (idw / 2 ^ 29) + 65536 * age) ::
    BitVec.ofNat 32 (idw % 2 ^ 29 + 2 ^ 29 * bit o.ide) :: BitVec.ofNat 32 (s.rd base 4) ::
    (upto (ceilDiv o.len 4)).map fun i => BitVec.ofNat 32 (ofLe ((upto 4).map fun j =>
      if 4 * i + j < min o.len len then s.byte (data + 4 * i + j) else 0))

/-- The status entry of a SEND object (R275). -/
def State.canTxEntry (s : State) (n k : Nat) : List Word :=
  [BitVec.ofNat 32 (s.get (CN_PEND n k) + 2 * s.get (CN_COLL n k) + 4 * s.get (CO_STOP n k) +
      8 * bit (s.get (CN_STATUS_STATE n) == 3) + 16 * bit (s.get (CN_STATUS_STATE n) == 2) +
      256 * s.get (CO_RUN n k) + 65536 * s.get (CO_TXAGE n k)),
   BitVec.ofNat 32 (s.rd (canMem n k + 0x24) 4)]

/-- After a latch of a task's entries: frames too young stay for the next one, and every age is one period older
(R275, R279). -/
def State.canAge (s : State) (t : Nat) : State :=
  s.each cans fun s n =>
    let s := s.each ((s.objects n 2).filter fun k => (s.canObj n k).en && (s.canObj n k).task == t) fun s k =>
      let young := s.on (CO_RXT n k) && decide (s.now < s.get (CO_RXT n k) + 249)
      let fresh := decide (bit young < s.get (CO_CNT n k))
      let s := s.set (CO_CNT n k) (bit young)
      if fresh then s.set (CO_RXAGE n k) 1
      else if s.get (CO_RXAGE n k) < 255 then s.inc (CO_RXAGE n k) else s
    s.each ((s.objects n 1).filter fun k => (s.canObj n k).sen && (s.canObj n k).task == t) fun s k =>
      if s.get (CO_TXAGE n k) < 255 then s.inc (CO_TXAGE n k) else s

/-! ### Collisions and clears (R285) -/

/-- Clears COLL and STOPPED of an object; `src` 0 register, 1 ring, 2 activation (R285). -/
def State.canClear (s : State) (n k src : Nat) : State :=
  let s := ((s.set (CN_COLL n k) 0).set (CO_STOP n k) 0).showObj n k
  s.ev 0x6007 n (s.canObj n k).id k src

/-- Why a clear request is refused, 0 for none (R285). -/
def State.clearRefusal (s : State) (n k : Nat) : Nat :=
  if (s.canObj n k).safety && !s.maintPermit then 1 else if !s.on (CN_COLL n k) then 2 else 0

/-- A clear request, from CN_OBJCLR (source 0) or the ring (1) (R285). -/
def State.objClear (s : State) (n k src : Nat) : State :=
  let r := s.clearRefusal n k
  let s := s.set (CN_OBJCLRSTAT_REASON n) r
  if r = 0 then (s.canClear n k src).set (CN_OBJCLRSTAT_OUTCOME n) 2
  else (s.set (CN_OBJCLRSTAT_OUTCOME n) 3).ev 0x6008 n r 1 k

/-- Why a recovery request is refused, 0 for none (R284). -/
def State.recoverRefusal (s : State) (n : Nat) : Nat :=
  if s.get (CN_STATUS_STATE n) ≠ 3 then 1 else if s.on (CN_CTL_RECOV n) then 0 else 2

/-- A request for bus-off recovery, from CN_REQ or the ring (R284). -/
def State.canRecover (s : State) (n : Nat) : State :=
  let r := s.recoverRefusal n
  let s := s.set (CN_REQSTAT_REASON n) r
  if r = 0 then (s.set (CN_REQSTAT_OUTCOME n) 1).set (CN_STATUS_RECOVERING n) 1
  else (s.set (CN_REQSTAT_OUTCOME n) 3).ev 0x6008 n r 0

end Sys2Proof.Machine
end

