-- ==== Sys2Proof/Machine/TwinMsg.lean ====
section
/-! DEFINITION. The twin's role, its lease messages and relinquishing; and data of a SEND flow becoming ready, which a lease
message needs (R220, R353 to R366). -/

namespace Sys2Proof.Machine
open Reg Hid

/-- Data of a SEND flow becomes ready: the newest takes the place of the one before it (R220). -/
def State.sendReady (s : State) (f : Nat) (payload : List Byte) : State :=
  let s := (s.set (SND_RDY2 f) (s.get (SND_RDY f))).set (SND_RF2 f) (s.get (SND_RF f))
  let s := (s.set (SND_SENT2 f) (s.get (SND_SENT f))).copy (sendBuf f 0) (sendBuf f 1) 2048
  let s := ((s.set (SND_RDY f) (s.now + 1)).set (SND_RF f) s.furlong).set (SND_SENT f) 0
  (s.zero (sendBuf f 0) 2048).setBytes (sendBuf f 0) payload

/-! ### Roles (R354, R366) -/

/-- The roles of a unit. -/
inductive Role where
  | none | init | lead | standby | passive
  deriving DecidableEq, Repr

/-- The code of a role. -/
def Role.code : Role → Nat
  | .none => 0 | .init => 1 | .lead => 2 | .standby => 3 | .passive => 4

/-- The role of a code; the reserved codes never occur and read as PASSIVE. -/
def Role.ofCode (n : Nat) : Role :=
  if n = 0 then .none else if n = 1 then .init else if n = 2 then .lead else if n = 3 then .standby else .passive

/-- The unit's role. -/
def State.role (s : State) : Role := .ofCode (s.get TW_STAT_ROLE)

/-- A twin-controlled task of a twin member. -/
def State.twinTask (s : State) (t : Nat) : Bool := s.on TW_CFG_EN && s.on (TW_TASKS_TASKS t)

/-- The twin-controlled tasks in priority order. -/
def State.twinTasks (s : State) : List Nat := s.byPriority.filter s.twinTask

/-- The lease task. -/
def State.leaseTask (s : State) : Nat := s.get TW_CFG_LTASK

/-- L × k_L: the lease in furlongs (R359). -/
def State.leaseFurlongs (s : State) : Nat := (s.get TW_CFG_LEASE + 1) * (s.get (TSK_CFG_KPER s.leaseTask) + 1)

/-- The network time of the expiry instant: the lease task's action instant in a furlong (R359). -/
def State.expiryAt (s : State) (f : Nat) : Nat := f * s.furlongGrains + s.get (TSK_OFFSET_OFFSET s.leaseTask)

/-- Sets E_L or E_S and shows it (R376). -/
def State.setExpiry (s : State) (f : Nat) : State := ((s.set TW_E f).set TW_EXP_LO_F f).set TW_EXP_HI_F (f / 2 ^ 32)

/-- Pending CAN requests of the twin-controlled tasks are removed when the unit stops being ACTIVE (R355). -/
def State.twinCanRemove (s : State) : State :=
  s.each s.twinTasks fun s t => s.each cans fun s n =>
    s.each ((s.canSends n t).filter fun k => s.on (CN_PEND n k)) fun s k => s.canRemove n k

/-- No twin task shadows: only a STANDBY's do (R371). -/
def State.shadowsOff (s : State) : State :=
  let s := s.each tasks fun s t => ((s.set (TW_TSTAT_SHADOW t) 0).set (TW_TSTAT_PROB t) 0).set (TW_TSTAT_RESTARTS t) 0
  let s := s.each tasks fun s t => (s.set (TW_SYNC_RESYNC t) 0).set (TW_SYNC_PROB t) 0
  (s.restore (TW_RXON 0) 16).restore (TW_MISSF 0) 16

/-- The role changes, with the row of R366 as its cause: only a LEAD is ACTIVE or SOLO, only a STANDBY is FIT or
committed (R354, R366). -/
def State.setRole (s : State) (r : Role) (cause : Nat) : State :=
  let old := s.get TW_STAT_ROLE
  let s := if s.role == .lead && r != .lead then s.twinCanRemove else s
  let s := ((s.set TW_STAT_ROLE r.code).put TW_STAT_ACTIVE (r == .lead)).set TW_STAT_FROZEN 0
  let s := if r == .lead then s else (s.set TW_STAT_SOLO 0).set TW_ATKO 0
  let s := if r == .standby then s else ((s.set TW_STAT_FIT 0).set TW_STAT_COMMIT 0).shadowsOff
  s.ev 0x8001 0 r.code old cause

/-- A lead goes passive: 0 expiry, 1 conflict, 2 relinquish (R360, R364, R365). -/
def State.goPassive (s : State) (why cause : Nat) : State :=
  let s := (s.raise TW_EVT_PASSIVE TW_EVCNT_SWITCH_CNT).ev 0x8003 0 (s.get TW_E % 2 ^ 32) why
  s.setRole .passive cause

/-! ### Lease messages (R356) -/

/-- The sequence after `n`: 1 follows the largest. -/
def nextSeq (n : Nat) : Nat := if n = 2 ^ 32 - 1 then 1 else n + 1

/-- The bytes of a lease message. -/
def State.leaseBytes (s : State) (req grant rel : Bool) (freq seq : Nat) : List Byte :=
  let b := leBytes 4 0x54574C31 ++
    leBytes 1 (s.get GLB_STRAP_TWIN_SIDE + 2 * s.get TW_STAT_ROLE + 16 * s.get TW_STAT_ACTIVE + 32 * s.get TW_STAT_SOLO +
      64 * s.get TW_STAT_FIT + 128 * bit rel) ++
    leBytes 1 (bit req + 2 * bit grant) ++ leBytes 1 (s.get TW_CFG_LEASE + 1) ++ leBytes 1 0 ++ leBytes 8 s.furlong ++
    leBytes 8 (if grant then freq else 0) ++ leBytes 4 seq
  b ++ leBytes 4 (crc32cFrom (s.get TW_SCID_SCID) b)

/-- At least two lanes can present a message identically (R23). -/
def State.twoLanes (s : State) : Bool := decide (2 ≤ (Lane.all.filter s.inVote).length)

/-- A lease message is formed and leaves on both paths (R356, R357). -/
def State.sendLease (s : State) (req grant rel : Bool) (freq : Nat) : State :=
  if s.twoLanes then
    let seq := nextSeq (s.get TW_SEQ)
    let m := s.leaseBytes req grant rel freq seq
    let s := (s.set TW_SEQ seq).twinSend 0x100000 m
    if s.on TW_NET_NETEN then s.sendReady (s.get TW_NET_TXFLOW) m else s
  else s

/-! ### Relinquishing (R364) -/

/-- Both pads of a channel are energised by the majority of the lanes' drive enables (R92, R177). -/
def State.padEnergised (s : State) (c : Nat) : Bool :=
  [0, 1].all fun p => decide (2 ≤ (Lane.all.filter fun l => s.on (DRIVE l.idx c p)).length)

/-- Shows whether a group's pad is energised. Where that changes, the period is not compared with the readback (R166, R191,
R200). -/
def State.showPad (s : State) (g : Nat) : State :=
  let c := s.get (BRK_CFG_OUTCH g)
  let new := s.padEnergised c
  let s := if new == s.on (BRK_STAT_PAD g) then s else (s.set (PADCHG g) 1).set (REQ_CHG c) 1
  s.put (BRK_STAT_PAD g) new

/-- The drive enables of a twin-controlled task's channels and brake groups go de-energised (R364). -/
def State.twinDriveOff (s : State) : State :=
  let gs := (upto 16).filter fun g => s.on (BRK_CFG_EN g)
  let cs := (upto 64).filter fun c => (s.on (FC_QBIND_EN c) && s.twinTask (s.get (FC_QBIND_TASK c))) ||
    gs.any fun g => s.get (BRK_CFG_OUTCH g) == c && s.twinTask (s.get (BRK_CFG_TASK g))
  let s := s.each cs fun s c => s.each Lane.all fun s l => (s.set (DRIVE l.idx c 0) 0).set (DRIVE l.idx c 1) 0
  s.each gs State.showPad

/-- A unit relinquishes: 0 device safe state, 1 PFAIL_N. A LEAD or STANDBY sends one message, if two lanes can present it;
nothing follows it, and the unit takes no part until it has started again. In the device safe state every role becomes
PASSIVE (R364, R366). -/
def State.relinquish (s : State) (cause : Nat) (able : Bool) : State :=
  let r := s.role
  if r == .none || s.on TW_OUTF || (cause == 1 && r != .lead && r != .standby) then s
  else
    let sends := able && s.twoLanes && (r == .lead || r == .standby)
    let s := if r == .lead then s.twinDriveOff else s
    let s := if sends then
        let s := State.sendLease { s with twinOut := [] } false false true 0
        ((s.set TW_REL 1).raise TW_EVT_RELINQ TW_EVCNT_SWITCH_CNT).ev 0x8006 0 0 cause
      else s
    let s := if r == .lead then s.goPassive 2 (if sends then 5 else 10)
      else if r == .passive then s else s.setRole .passive 10
    s.set TW_OUTF 1

/-- At a furlong boundary after the expiry instant a lead that is not SOLO goes passive (R360). -/
def State.leaseBoundary (s : State) : State :=
  if s.role == .lead && !s.on TW_STAT_SOLO && decide (s.get TW_E < s.furlong) then s.goPassive 0 4 else s

end Sys2Proof.Machine
end

