-- ==== Sys2Proof/Machine/UpdStore.lean ====
section
/-! DEFINITION. The undo journal, the running images, the floors, and the end of an update session: what the session
commands, fallback and start-up share (R399 to R408). -/

namespace Sys2Proof.Machine
open Reg Hid

/-! ### The journal (R406 to R408) -/

/-- The kinds of a mask below `n`. -/
def maskKinds (n mask : Nat) : List Nat := (upto n).filter fun k => mask.testBit k

/-- The kinds open in the session, as a mask. -/
def State.openMask (s : State) : Nat := (upto 5).foldl (fun m k => m + s.get (UPD_SESSION_OPEN k) * 2 ^ k) 0
/-- The verified kinds of the session, as a mask. -/
def State.verifiedMask (s : State) : Nat := (upto 5).foldl (fun m k => m + s.get (UPD_SESSION_VERIFIED k) * 2 ^ k) 0

/-- Writes the journal header: 0 IDLE, 1 WRITING, 2 VERIFIED, 3 PROBATION, with the kinds concerned (R407). -/
def State.setJournal (s : State) (st kinds : Nat) : State :=
  ((s.set NV_JSTATE st).set NV_JKINDS kinds).set UPD_STAT_JSTATE st

/-- An image block has a valid journal entry (R406). -/
def State.undoValid (s : State) (b : Nat) : Bool :=
  let e := s.bytes (undoEntry b) 12
  s.rd (undoEntry b + 12) 4 == crc32c e && s.rd (undoEntry b) 4 == b

/-- The first time a session overwrites an image block: its copy and its journal entry (R406). -/
def State.saveBlock (s : State) (b : Nat) : State :=
  if s.undoValid b then s
  else
    let s := s.copy (imageArea + 4096 * b) (undoArea + 4096 * b) 4096
    let e := leBytes 4 b ++ leBytes 4 (crc32c (s.bytes (undoArea + 4096 * b) 4096)) ++ leBytes 4 (s.get SES_NO)
    s.setBytes (undoEntry b) (e ++ leBytes 4 (crc32c e))

/-- The image blocks of a kind; settings and certificates have none. -/
def kindBlocks (k : Nat) : List Nat :=
  if k < 3 then (upto ((kindSlot k).2 / 4096)).map fun i => (kindSlot k).1 / 4096 + i else []

/-- The undo of some kinds is replayed: every block with a valid entry gets its old contents, the entries become invalid
and the header IDLE when no kind is left in it; a staged settings copy is marked invalid. Event 0x9007 carries the cause
where a block was restored (R408). -/
def State.replay (s : State) (kinds : List Nat) (cause : Nat) : State :=
  let bs := (kinds.flatMap kindBlocks).filter s.undoValid
  let s := s.each bs fun s b =>
    (s.copy (undoArea + 4096 * b) (imageArea + 4096 * b) 4096).zero (undoEntry b) 16
  let s := if kinds.contains 3 && s.on (SES_N 3) then (s.set UPD_ACTSET_PREV 0).set NV_SETBAD 1 else s
  let left := (maskKinds 5 (s.get NV_JKINDS)).filter fun k => !kinds.contains k
  let s := if left.isEmpty then s.setJournal 0 0
    else s.setJournal (s.get NV_JSTATE) (left.foldl (fun m k => m + 2 ^ k) 0)
  if bs.isEmpty then s
  else (s.raise UPD_EVT_UNDO UPD_EVCNT_OTHER_CNT).ev 0x9007 0 bs.length cause

/-! ### The running images (R395, R399, R407) -/

/-- Bytes of the image area as a reader of the running image finds them: blocks with a valid entry come from the undo area
in WRITING and VERIFIED (R407). -/
def State.imageBytes (s : State) (off n : Nat) : List Byte :=
  let undo := s.get NV_JSTATE == 1 || s.get NV_JSTATE == 2
  (upto (ceilDiv n 4096)).flatMap fun i =>
    let a := off + 4096 * i
    s.bytes ((if undo && s.undoValid (a / 4096) then undoArea else imageArea) + a) (min 4096 (n - 4096 * i))

/-- The place of a kind's running image as bytes: the image area, or the active settings copy. -/
def State.runningBytes (s : State) (k n : Nat) : List Byte :=
  if k = 3 then s.bytes (settingsCopy (s.get UPD_ACTSET_ACTIVE)) n else s.imageBytes (kindSlot k).1 n

/-- The header of a kind's running image. -/
def State.runningHdr (s : State) (k : Nat) : ImgHdr := imgHdr (s.runningBytes k 128)

/-- The container of a kind's running image. -/
def State.running_ (s : State) (k : Nat) : List Byte := s.runningBytes k (min (s.runningHdr k).total (kindSlot k).2)

/-- The SVN of a kind's running image, 0 where there is none. -/
def State.runSvn (s : State) (k : Nat) : Nat := if s.on (KIND_OK k) then (s.runningHdr k).svn else 0

/-- The digest of a kind's running image, 0 where there is none. -/
def State.runDigest (s : State) (k : Nat) : Nat := if s.on (KIND_OK k) then containerDigest (s.running_ k) else 0

/-- A kind's floor (R399). -/
def State.floorOf (s : State) (k : Nat) : Nat := s.get (UPD_FLOOR_FLOOR (2 * k)) + 2 ^ 32 * s.get (UPD_FLOOR_FLOOR (2 * k + 1))

/-- Sets a kind's floor. -/
def State.setFloor (s : State) (k v : Nat) : State :=
  (s.set (UPD_FLOOR_FLOOR (2 * k)) v).set (UPD_FLOOR_FLOOR (2 * k + 1)) (v / 2 ^ 32)

/-- The schema of the active settings, 0 where there is none. -/
def State.setSchema (s : State) : Nat := if s.on (KIND_OK 3) then (s.runningHdr 3).schema else 0

/-- The schema that the running logic image reads. -/
def State.readSchema (s : State) : Nat := if s.on (KIND_OK 1) then (s.runningHdr 1).schema else 0

/-- Shows the running SVNs and the schemas (R416). -/
def State.showImages (s : State) : State :=
  let s := s.each (upto 4) fun s k =>
    (s.set (UPD_SVN_SVN (2 * k)) (s.runSvn k)).set (UPD_SVN_SVN (2 * k + 1)) (s.runSvn k / 2 ^ 32)
  (s.set UPD_SCHEMA_ACTIVE s.setSchema).set UPD_SCHEMA_READ s.readSchema

/-! ### The floor record (R400) -/

/-- The bytes of the floor record: the floors, the key SVNs, the epoch and their CRC-32C. The spec gives no layout (log 21). -/
def State.floorBytes (s : State) : List Byte :=
  let b := ((upto 4).flatMap fun k => leBytes 8 (s.floorOf k)) ++ ((upto 8).flatMap fun i => leBytes 4 (s.keySvn i)) ++
    leBytes 4 (s.get NV_FUSE)
  b ++ leBytes 4 (crc32c b)

/-- Writes the floor record, in its two copies. -/
def State.writeFloors (s : State) : State :=
  let b := s.floorBytes
  (s.setBytes (floorRec 0) b).setBytes (floorRec 1) b

/-- Raises a floor: the next fuse position is burned first, then the record is written; with every position burned the
floor stays (R400). -/
def State.raiseFloor (s : State) (k v : Nat) : State :=
  if v ≤ s.floorOf k then s
  else if 256 ≤ s.get NV_FUSE then s.ev 0x900C 0 k
  else
    let n := s.get NV_FUSE + 1
    let s := (((s.set NV_FUSE n).set UPD_FUSE_USED n).setFloor k v).writeFloors
    (s.raise UPD_EVT_FLOOR UPD_EVCNT_OTHER_CNT).ev 0x900B 0 k n

/-! ### Settings windows (R411) -/

/-- The window of the running logic image is loaded in some lanes: the settings payload where the schemas are equal, zeros
otherwise (R411). -/
def State.loadWindow (s : State) (ls : List Lane) : State :=
  match s.image with
  | none => s
  | some im =>
    if im.setLen = 0 then s
    else if s.on (KIND_OK 3) && s.setSchema == s.readSchema then
      let p := ((containerPayload (s.running_ 3)) ++ List.replicate im.setLen 0).take im.setLen
      (s.each ls fun s l => s.setBytes (dataBase l + im.setAddr) p).set UPD_STAT_LOADED 1
    else
      let s := (s.each ls fun s l => s.zero (dataBase l + im.setAddr) im.setLen).set UPD_STAT_LOADED 0
      (s.raise UPD_EVT_SETTINGS UPD_EVCNT_OTHER_CNT).ev 0x900E 0 s.setSchema s.readSchema

/-! ### Sessions (R401, R403) -/

/-- Sends a session message to a source: over the maintenance flow (2) or the TWIN link (3). -/
def State.sendUpd (s : State) (src : Nat) (b : List Byte) : State :=
  if src = 2 then
    let f := s.get UPD_NET_TXFLOW
    let len := bits11 (Sparse.get s.flowTab f [])
    s.sendReady f (b ++ List.replicate (len - b.length) 0)
  else s.twinSend 0x160000 b
where
  bits11 (ws : List Nat) : Nat := ws.getD 0 0 / 65536 % 2048

/-- The bytes of a session message without data (R403). -/
def updMsg (op status cmd p0 word : Nat) (data : List Byte) : List Byte :=
  let b := leBytes 4 0x54575550 ++ leBytes 1 op ++ leBytes 1 status ++ leBytes 2 cmd ++ leBytes 4 p0 ++ leBytes 4 word ++
    leBytes 2 data.length ++ leBytes 2 0 ++ data
  b ++ leBytes 4 (crc32c b)

/-- Answers the last command of a message source, and keeps the answer for its copies (R403). -/
def State.updReply (s : State) (src status result : Nat) : State :=
  let s := (s.set (UPD_LST src) status).set (UPD_LRES src) result
  s.sendUpd src (updMsg (s.get (UPD_LOP src)) status (s.get (UPD_ID src) - 1) 0 result [])

/-- A message source's UPD_APPLY_ONLINE gets its answer (R136, R402). -/
def State.olcReply (s : State) (status result : Nat) : State :=
  let src := s.get OLC_ASK
  if src = 0 then s else (s.set OLC_ASK 0).updReply src status result

/-- The session's kinds are closed. -/
def State.closeKinds (s : State) : State :=
  (s.each (upto 5) fun s k =>
    ((s.set (UPD_SESSION_OPEN k) 0).set (UPD_SESSION_VERIFIED k) 0).set (SES_N k) 0).set SES_KIND 0

/-- The lock is released: 0 close, 1 lapse, 2 PERST_N, 3 link down. What has not been activated is discarded, but for an
accepted on-line change (R401, R408). -/
def State.release (s : State) (cause : Nat) : State :=
  let h := s.get UPD_SESSION_HOLDER
  if h = 0 then s
  else
    let m := s.openMask
    let s := (s.set UPD_SESSION_HOLDER 0).set UPD_SESSION_LAPSE_S 0
    let s := s.ev 0x9003 0 m h cause
    let s := if m = 0 ∨ s.on SES_APPLIED then s else s.replay (maskKinds 5 m) 0
    s.closeKinds

/-- Probation of some kinds begins, with its confirm window (R410). -/
def State.beginProbation (s : State) (m : Nat) : State :=
  let s := ((s.set UPD_STAT_PROB 1).set UPD_STAT_PKINDS m).set PROB_FROM s.opTime
  s.set UPD_STAT_CONF_S (s.get UPD_CFG_CWIN)

/-- A companion link goes down; with the TWIN link a session of the twin is released and a relayed one ends (R336, R401,
R403). -/
def State.linkLost (s : State) (k cause goal : Nat) : State :=
  let twin := s.get (CL_CFG_ROLE k) == 2 && s.linkUp k
  let s := s.linkDown k cause goal
  if twin then (if s.get UPD_SESSION_HOLDER = 3 then s.release 3 else s).relayEnd else s

end Sys2Proof.Machine
end

