-- ==== Sys2Proof/Machine/Blocks.lean ====
section
/-! DEFINITION. Operations of single blocks that the lanes' fault handling calls: ending scans, letting go of outputs,
withdrawing safety messages. -/

namespace Sys2Proof.Machine
open Reg Hid

/-- Ends a task's scan in one lane without a result: the context returns to the start of a scan (R37). -/
def State.dropScan (s : State) (l : Lane) (t : Nat) : State := (s.setCtx l t Ctx.start).setPres l t none

/-- Whether a task may be the pace reference: an enabled TRIPLE task that scans (R64). -/
def State.paceable (s : State) (t : Nat) : Bool := s.isTriple t && s.scans t

/-- The pace reference task in use: SCN_CFG.PACE_TASK, or the scanning TRIPLE task of highest priority (R64). -/
def State.paceRef (s : State) : Option Nat :=
  let t := s.get SCN_CFG_PACE_TASK
  if s.paceable t then some t else s.byPriority.find? s.paceable

/-- What follows for the pace registers where the reference in use may have changed: SCN_CFG shows it, a new one is measured from
its next action instant on, and without one no pace is valid (R64, R76). -/
def State.paceNote (s : State) : State :=
  match s.paceRef with
  | none =>
    let s := s.each Lane.all fun s l => s.set (LN_PACE_VALID l.idx) 0
    (((s.set SCN_CFG_NONE 1).set SCN_CFG_SUBST 0).set PACE_NEW 1).set PACE_DUE 0
  | some t =>
    let s := if s.on SCN_CFG_NONE || s.get SCN_CFG_USED != t then (s.set PACE_NEW 1).set PACE_DUE 0 else s
    ((s.set SCN_CFG_NONE 0).set SCN_CFG_USED t).put SCN_CFG_SUBST (t != s.get SCN_CFG_PACE_TASK)

/-- An action instant of the reference task: its period ends and the next one begins (R64, R94). -/
def State.pacePeriod (s : State) (t : Nat) : State :=
  let s := s.paceNote
  if s.paceRef == some t then
    if s.on PACE_NEW then (s.each Lane.all fun s l => s.set (PACE_W l.idx) 0).set PACE_NEW 0 else s.set PACE_DUE 1
  else s

/-- Abandons a task's unfinished scan in every lane, with its balance (R72). -/
def State.abandonScan (s : State) (t : Nat) : State :=
  ((s.each Lane.all fun s l => s.dropScan l t).setBal t Balance.empty).set (SCANNING t) 0

/-- A lane lets go of every output: each of its drive enables goes to the de-energised level (R91). -/
def State.driveOff (s : State) (l : Lane) : State :=
  let s := s.each (upto 64) fun s c => ((s.set (DRIVE l.idx c 0) 0).set (DRIVE l.idx c 1) 0).set (LAUNCHED l.idx c) 0
  s.each ((upto 16).filter fun g => s.on (BRK_CFG_EN g)) State.showPad

/-- The lanes that hold a brake group, in the vote or not: the spec counts the lanes whose hold is set (R166, R178, R199, log 79). -/
def State.holders (s : State) (g : Nat) : List Lane := Lane.all.filter fun l => s.on (BRK_HOLD l.idx g)

/-- What follows from the lanes that hold a group: BRK_SUMMARY, event 0x4001 when two come to hold on a demand, and 0x4002
when they no longer do (R199, R201, log 79). -/
def State.summarise (s : State) (g : Nat) : State :=
  let two := decide (2 ≤ (s.holders g).length)
  let s := (s.put (BRK_SUMMARY_LATCHED g) (s.on (BRK_STAT_LATCHED g))).put (BRK_SUMMARY_DEMAND g)
    (s.on (BRK_STAT_LATCHED g) || two)
  let at_ := s.get (HOLD_AT g)
  if two then
    if at_ = 0 then
      let s := (s.raise (BRK_EVT_HOLD g) (BRK_EVCNT_HOLD_CNT g)).set (HOLD_AT g) (s.now + 1)
      s.ev 0x4001 0 (s.get (HOLD_CH g)) g (laneMask (s.holders g).contains)
    else s
  else if at_ = 0 then s
  else
    let s := s.set (HOLD_AT g) 0
    if at_ = 1 then s else s.ev 0x4002 0 ((s.now + 1 - at_) / grainsMs) g

/-- A SINGLE task that runs on its lane alone. -/
def State.alone (s : State) (t : Nat) : Option Lane := if s.stopped t then none else s.singleLane t

/-- A request of a SINGLE task that aims at a safety target is refused: TSK_EVT.REFUSED, and event 0x2009 with the block and the
index in it (R24, R77, R146). -/
def State.refuseAlone (s : State) (t block index : Nat) : State :=
  match s.singleLane t with
  | some l => (s.raise (TSK_EVT_REFUSED t) (TSK_EVCNT1_FAULT_CNT t)).ev 0x2009 l.code (block * 65536 + index) t l.code
  | none => s

/-- Abandons an on-line change that has not switched yet, with a reason as DBG_OLC.ABORT (R136). -/
def State.olcAbort (s : State) (reason : Nat) : State :=
  let st := s.get DBG_OLC_STATE
  if st = 1 ∨ st = 2 then
    let s := (s.set DBG_OLC_STATE 4).set DBG_OLC_ABORT reason
    let s := s.raise DBG_EVT_OLC_ABORT DBG_EVCNT_FAULT_CNT
    let s := (s.each Lane.all fun s l => s.set (OLC_OK l.idx) 0).ev 0x2042 0 reason st
    let s := State.settle { s with olcImage := none } 0x64 (fun _ => true) stAborted 0
    let s := (s.olcReply stAborted 0).set SES_APPLIED 0
    if s.get UPD_SESSION_HOLDER = 0 then s.replay [1] 0 else s
  else s


end Sys2Proof.Machine
end

