-- ==== Sys2Proof/Machine/PowerBack.lean ====
section
/-! DEFINITION. Planned restarts of tasks, and the end of a power-state entry that does not complete: its rollback, the
restart of stopped blocks, and what the request's status and completion show (R129, R421 to R423, R430). -/

namespace Sys2Proof.Machine
open Reg Hid

/-- A task's restart becomes pending: kind 1 warm or 2 cold, the occasion's row of R129, and the grain from which it may
take effect. -/
def State.planRestart (s : State) (t kind occ start : Nat) : State :=
  (((s.set (RESTART t) kind).set (RESTART_OCC t) occ).set (RESTART_AT t) start).set (PS_REACHED t) 0

/-- Every enabled task restarts at its next action instant; a task stopped under R111 or R112 waits for its own cold
restart. -/
def State.restartAll (s : State) (kind occ : Nat) : State :=
  s.each (tasks.filter fun t => s.enabled t && !s.stopped t) fun s t => s.planRestart t kind occ s.now

/-! ### Rollback of a power-state entry (R423) -/

/-- The request is refused or rolled back: its status and event 0x0011 (R420, R423, R434). -/
def State.powerShow (s : State) (reason refuser : Nat) : State :=
  let mask := (upto 13).foldl (fun m i => m + s.get (PWR_BLK_STOPPED i) * 2 ^ i) 0
  let s := ((s.set PWR_STATUS_OUTCOME 3).set PWR_STATUS_REASON reason).set PWR_STATUS_REFUSER refuser
  (s.raise PWR_EVT_REFUSED PWR_EVCNT_REFUSED_CNT).ev 0x0011 0 reason refuser (s.get PWR_STATUS_TARGET) mask

/-- The levels of the CAN transceivers' standby pins (R267). -/
def State.canPins (s : State) : State :=
  s.each cans fun s n => s.put (CN_STB n) (s.get (CN_CTL_MODE n) == 0 || s.get (CN_CTL_MODE n) == 4)

/-- A stopped block restarts. With the tasks, each restarts warm from the committed copy, at the earliest 8 µs later (R129,
R423, R429). -/
def State.restartBlock (s : State) (n : Nat) : State :=
  if !s.blk n then s
  else
    let s := s.set (PWR_BLK_STOPPED (n - 1)) 0
    if n = 3 then
      let s := s.restore (PARKED 0) 16
      if s.prog == .run then
        s.each (tasks.filter fun t => s.enabled t && !s.stopped t) fun s t => s.planRestart t 1 4 (s.now + 8 * grainsUs)
      else s
    else if n = 7 then s.canPins else s

/-- The stopped blocks restart in the reverse of the stop order (R423, R429). -/
def State.restartBlocks (s : State) : State := s.each (upto 13).reverse fun s i => s.restartBlock (i + 1)

/-- An entry in progress ends without completing: what has been stopped restarts, the status shows why, and a POWER_REQ that
waits is refused (R423, R430). -/
def State.powerBack (s : State) (reason refuser : Nat) : State :=
  if s.get PW_PHASE = 0 then s
  else
    let tasksToo := !s.blk 3 && s.get PWR_STATUS_STEP == 3
    let s := s.powerShow reason refuser
    let s := if tasksToo then s.set (PWR_BLK_STOPPED 2) 1 else s
    let s := ((s.restartBlocks).set PW_PHASE 0).set PWR_STATUS_STEP 0
    s.settle 0x7C (fun _ => true) stRefused (reason + 16 * refuser)

end Sys2Proof.Machine
end

