-- ==== Sys2Proof/Machine/LaneOps.lean ====
section
/-! DEFINITION. Taking a lane out of the vote: assay triggers, retirement, loss of a second lane and the device safe
state (R99, R100, R106, R111, R112). -/

namespace Sys2Proof.Machine
open Reg Hid

/-- The enabled SINGLE tasks that run on a lane now. -/
def State.singlesOn (s : State) (l : Lane) : List Nat :=
  tasks.filter fun t => s.enabled t && s.singleLane t == some l

/-- The device safe state (R106): every task stops, the enables go de-energised, safety CAN requests are withdrawn and
a twin lead relinquishes. SAFEOK follows at its next scheduled change and safety flows at their next rod. -/
def State.enterSafe (s : State) (reason mask : Nat) : State :=
  if s.safe then s
  else
    let old := s.get DBG_PSTATE_STATE
    let s := ((s.set LN_STATUS_SAFE 1).set LN_EVT_SECOND 1).ev 0x1016 0 reason mask
    let s := (s.set DBG_PSTATE_STATE ProgState.safe.code).ev 0x2010 0 ProgState.safe.code old 3
    let s := (s.each tasks fun s t => (s.abandonScan t).set (STARTED t) 0).paceNote
    let s := s.each Lane.all State.driveOff
    let s := s.each [0x78, 0x79, 0x7A, 0x7B] fun s op => s.settle op (fun _ => true) stAborted 0
    (((s.olcAbort 3).canWithdrawSafety).relinquish 0 (reason != 1)).powerBack 12 0

/-- The bit mask of the lanes that are out. -/
def State.outMask (s : State) : Nat := laneMask s.out

/-- Stops the SINGLE tasks of a lane on their safe values (R111). -/
def State.stopSingles (s : State) (l : Lane) : State :=
  s.each (s.singlesOn l) fun s t =>
    (((s.abandonScan t).set (DBG_TSTAT_STOPPED t) 1).set (STOP_CAUSE t) 1).ev 0x1042 0 0 t 0

/-- What a retired lane's SINGLE task does: it moves to its fallback lane, or stays stopped. A lane still in START, which no
retirement or assay has taken out, serves as one in VOTE does (R112, log 78). -/
def State.fallback (s : State) (t : Nat) : State :=
  let s := s.abandonScan t
  match Lane.ofCode (s.get (TSK_CFG_FALLBACK t)) with
  | some m =>
    if s.inVote m then
      let s := ((s.set (TSK_STATE_MODE t) m.code).set (TASK_LANE t) m.code).set (DBG_TSTAT_STOPPED t) 0
      let s := ((s.set (RESTART t) 2).set (RESTART_OCC t) 6).set (RESTART_AT t) s.now
      s.ev 0x1042 0 m.code t 1
    else ((s.set (DBG_TSTAT_STOPPED t) 1).set (STOP_CAUSE t) 2).ev 0x1042 0 0 t 1
  | none => ((s.set (DBG_TSTAT_STOPPED t) 1).set (STOP_CAUSE t) 2).ev 0x1042 0 0 t 1

/-- Retires a lane: it takes no further part, MRAM keeps the state, its SINGLE tasks fall back, and a second
retirement enters the device safe state (R99, R104, R106, R112). Where a trigger against a lane in PROBATION meets another lane
that is RETIRED, reasons 0 and 2 of event 0x1016 both fit; the model gives 2 (the model's choice, log 86). -/
def State.retire (s : State) (l : Lane) (reason : Nat) : State :=
  let singles := s.singlesOn l
  let s := ((s.setLane l .retired).set (LN_EVT_RETIRE l.idx) 1).set (NV_RETIRED l.idx) 1
  let s := (s.set (ASSAY_STEP l.idx) 0).ev 0x1015 l.code reason
  let s := (s.each tasks fun s t => s.dropScan l t).driveOff l
  let s := s.each singles State.fallback
  if l.others.any fun m => s.lane m == .retired then s.enterSafe 2 s.outMask else s

/-- A lane enters assay: it leaves the vote, its enables go de-energised and its SINGLE tasks stop (R99, R101, R111). -/
def State.enterAssay (s : State) (l : Lane) (cause task : Nat) : State :=
  let s := s.setLane l .assay
  let s := s.raise (LN_EVT_ASSAY l.idx) (LN_CNT_ASSAY_CNT l.idx)
  let s := ((s.set LN_ASSAY_LANE l.code).set LN_ASSAY_CAUSE cause).set LN_ASSAY_RESULT 0
  let s := ((s.set LN_ASSAY_DUR 0).set (ASSAY_STEP l.idx) 1).set (ASSAY_T0 l.idx) s.now
  let s := ((s.set (ASSAY_WHY l.idx) cause).set (ASSAY_TASK l.idx) task).set (ASSAY_LATE l.idx) 0xFFFFFFFF
  let s := s.each tasks fun s t => (((s.set (SEEDED l.idx t) 0).set (SEED_JOIN l.idx t) 0).set (SEED_TRY l.idx t) 0).set (PROB_N l.idx t) 0
  let s := (s.driveOff l).ev 0x1010 l.code cause task
  ((s.stopSingles l).olcAbort 1).powerBack 12 0

/-- No majority: the task trips at its next action instant (R87). -/
def State.noMajority (s : State) (t kind : Nat) : State :=
  let s := (s.set (TRIP_NEXT t) 1).raise BAL_EVT_NOMAJ BAL_CNT_NOMAJ_CNT
  s.ev 0x1004 0 (s.furlong) t kind

/-- The tasks concerned by a trigger against a lane and an earlier one against another lane in the same task period: those that
either names and whose period began before both (R100). -/
def State.concerned (s : State) (l : Lane) (task : Nat) : List Nat :=
  l.others.flatMap fun m =>
    if s.on (TRIG_AT m.idx) then
      let u := s.get (TRIG_TASK m.idx)
      (if u = task then [task] else [task, u]).filter fun x => decide (x < 16) && decide (s.get (LAST_A x) < s.get (TRIG_AT m.idx))
    else []

/-- Loss of a second lane by a trigger against a further one: no majority for the tasks concerned where both triggers fall into
one task period, and the device safe state (R100, R106). -/
def State.secondTrigger (s : State) (l : Lane) (task mask : Nat) : State :=
  (s.each (s.concerned l task) fun s t => s.noMajority t 0).enterSafe 0 mask

/-- An assay trigger attributed to a lane, with its cause and the task concerned, 0xFFFF none (R99, R100, R106). -/
def State.trigger (s : State) (l : Lane) (cause : Nat) (task : Nat := 0xFFFF) : State :=
  if s.safe then s
  else match s.lane l with
  | .retired => s
  | .assay | .seeding => s.inc (LN_CNT_ASSAY_CNT l.idx)
  | .probation =>
    let second := l.others.any s.out
    let both := s.concerned l task
    let s := (s.set (TRIG_AT l.idx) (s.now + 1)).set (TRIG_TASK l.idx) task
    let s := ((s.set (LN_EVT_PROBF l.idx) 1).ev 0x1014 l.code cause task).retire l 2
    if second then (s.each both fun s t => s.noMajority t 0).enterSafe 0 s.outMask else s.powerBack 12 0
  | .start | .vote =>
    if l.others.any s.out then s.secondTrigger l task (s.outMask ||| 2 ^ l.idx)
    else ((s.set (TRIG_AT l.idx) (s.now + 1)).set (TRIG_TASK l.idx) task).enterAssay l cause task

/-- Triggers against several lanes in one task period: no majority for the task, and loss of a second lane (R100, R106). -/
def State.triggers (s : State) (ls : List Lane) (cause task : Nat) : State :=
  match ls with
  | [] => s
  | [l] => s.trigger l cause task
  | _ => (s.when (decide (task < 16)) (State.noMajority · task 0)).enterSafe 0 (s.outMask ||| laneMask fun l => ls.contains l)

/-- A task trips as in R72: the tripped state from its next staging on; here the state and the end of its scan. -/
def State.trip (s : State) (t : Nat) : State :=
  (((s.abandonScan t).set (TSK_STATE_TRIPPED t) 1).set (TRIP_NEXT t) 0).paceNote

end Sys2Proof.Machine
end

