-- ==== Sys2Proof/Machine/Bridge.lean ====
section
/-! DEFINITION. The bridge's reads, writes and their timeouts, alert words, semaphores, and the reading of imported
records (R321 to R333, R346, R349). -/

namespace Sys2Proof.Machine
open Reg Hid

/-- Whether an initiator reaches a far side (R321). -/
def State.reaches (s : State) (i far : Nat) : Bool :=
  let role := if far = 0 then 0 else s.get (CL_CFG_ROLE (far - 1))
  decide (far < 5) &&
    (if i < 3 then role == 1
     else if i < 5 then role == 2
     else if i = 5 then far == 0
     else if i = 6 then far == 0 || role == 2
     else decide (i < 9))

/-- A read's length and place: at most 512 bytes, inside one 4 KiB page (R324). -/
def readFits (addr len : Nat) : Bool := decide (0 < len) && decide (len ≤ 512) && decide (addr % 4096 + len ≤ 4096)

/-! ### Reads -/

/-- A retry read is presented or reissued: RETRY, the data, or the error of its fetch (R323, R324). -/
def execRetryRead (i far addr len : Nat) (s : State) : Host.Outcome State Fault Refusal :=
  occurs (decide (5 ≤ i) && s.reaches i far && readFits addr len) s fun s =>
    match s.farOps.find? fun o => o.kind == 0 && o.ini == i && o.far == far && o.addr == addr && o.len == len with
    | some o => match o.st with
      | .buffered => ((s.dropOp o).set (BR_ANS i) 2).pump
      | .failed => ((s.dropOp o).set (BR_ANS i) 3).pump
      | _ => s.set (BR_ANS i) 1
    | none =>
      let o : FarOp :=
        { kind := 0, ini := i, sharers := [i], far := far, tag := 0, addr := addr, len := len, data := [],
          st := .waiting, began := s.now, arrived := 0 }
      let mine := s.farOps.filter fun x => x.kind == 0 && x.ini == i
      let s := s.set (BR_ANS i) 1
      if mine.length < 8 ∧ s.opFree o = true ∧ s.linesFree o = true then
        (State.issue { s with farOps := s.farOps ++ [o] } o).showBr
      else s

/-- The initiator keeps its port on a held read that has not ended (R325). -/
def State.holding (s : State) (i : Nat) : Bool :=
  s.farOps.any fun o => o.kind == 1 && o.sharers.contains i && (o.st == .waiting || o.st == .flying)

/-- A held read is presented: it fails at once toward a link that is down, joins an equal read of another loader or its
buffered copy, or goes to its port (R325, R326). -/
def State.heldRead (s : State) (i far addr len : Nat) (sharers : List Nat) : State :=
  let s := s.each sharers fun s j => s.set (HELD_AT j) s.now
  if s.linkUp (far - 1) = false then s.each sharers (fun s j => s.set (BR_ANS j) 3) |>.loadersFail sharers
  else
    match s.farOps.find? fun o => o.kind == 1 && decide (i < 3) && decide (o.ini < 3) && o.far == far && o.addr == addr &&
        o.len == len && (o.st == .waiting || o.st == .flying || (o.st == .buffered && decide (s.now ≤ o.arrived + 500))) with
    | some o =>
      if o.st = .buffered then s.each sharers fun s j => s.set (BR_ANS j) 2
      else s.putOp o { o with sharers := o.sharers ++ sharers }
    | none =>
      let s := { s with farOps := s.farOps.filter fun o => !(o.kind == 1 && o.st == FarSt.buffered) }
      s.presentOp 1 i far addr len sharers []

/-- A held read is presented by its initiator (R325). -/
def execHeldRead (i far addr len : Nat) (s : State) : Host.Outcome State Fault Refusal :=
  occurs (decide (i < 5) && s.reaches i far && readFits addr len && !s.holding i) s fun s =>
    s.heldRead i far addr len [i]

/-! ### Imported records (R346) -/

/-- A word of an import context; the reserved bits read 0, and AGE_LIM reads 3 where the set gives no context (R16, R351). -/
def State.ictx (s : State) (i w : Nat) : Nat := definedBits importBits w ((Sparse.get s.cfg.imports i [0, 0, 3, 0, 0]).getD w 0)
/-- The task of an import. -/
def State.impTask (s : State) (i : Nat) : Nat := s.ictx i 0 / 2 ^ 16 % 16
/-- An import is enabled. -/
def State.impOn (s : State) (i : Nat) : Bool := (s.ictx i 0).testBit 20
/-- The record's length: L and the 32 bytes around it. -/
def State.impLen (s : State) (i : Nat) : Nat := s.ictx i 1 / 2 ^ 16 % 4096 + 32

/-- The first check of R346 that a record fails in a lane, coded as in event 0x7125 plus 1; 0 for none. -/
def State.impCheck (s : State) (l : Lane) (i : Nat) : Nat :=
  let a := impBuf l i
  let len := s.impLen i
  let seq := s.rd (a + 16) 4
  let fresh := s.get (IMP_SEQE l.idx i) != s.get (LN_EPOCH l.idx) + 1
  let ahead := (seq + 2 ^ 32 - s.get (IMP_SEQ l.idx i)) % 2 ^ 32
  if s.rd a 4 ≠ 0x47525031 ∨ s.rd (a + 4) 1 ≠ s.ictx i 1 % 16 then 1
  else if s.rd (a + 6) 2 + 32 ≠ len then 2
  else if s.rd (a + 8) 8 ≠ s.get (LAST_F (s.impTask i)) then 3
  else if !(seq == 1 || (fresh && seq != 0) || (decide (1 ≤ ahead) && decide (ahead < 2 ^ 31))) then 4
  else if crc32cFrom (s.ictx i 3) (s.bytes a (len - 4)) ≠ s.rd (a + len - 4) 4 then 5
  else 0

/-- A lane checks the record that it has read (R346). -/
def State.impLane (s : State) (i : Nat) (l : Lane) : State :=
  let c := s.impCheck l i
  let s := s.set (IMP_CHK l.idx i) c
  if c = 0 then
    let s := (s.set (IMP_ACC l.idx i) 1).copy (impBuf l i) (impRec l i) (s.impLen i)
    (s.set (IMP_SEQ l.idx i) (s.rd (impBuf l i + 16) 4)).set (IMP_SEQE l.idx i) (s.get (LN_EPOCH l.idx) + 1)
  else s

/-- The next read of an import's record, or the lanes' checks when all of it is there. -/
def State.impNext (s : State) (i far : Nat) (inis : List Nat) : State :=
  let pos := s.get (IMP_POS i)
  let len := s.impLen i
  if pos < len then
    s.heldRead (inis.headD 0) far ((s.ictx i 1 / 4 % 4) * 4096 + pos) (min 512 (len - pos)) inis
  else
    let s := s.each (Lane.all.filter fun l => inis.contains l.idx) fun s l => s.impLane i l
    (s.set (IMP_ON i) 0).set (IMP_DONE i) 1

/-- Data of an import arrive: the lanes that share the read keep it and go on (R326, R346). -/
def State.impData (s : State) (o : FarOp) (d : List Byte) : State :=
  match s.importing with
  | none => s
  | some i =>
    let pos := s.get (IMP_POS i)
    let s := s.each (Lane.all.filter fun l => o.sharers.contains l.idx) fun s l => s.setBytes (impBuf l i + pos) d
    (s.set (IMP_POS i) (pos + o.len)).impNext i o.far o.sharers

/-- At A + DL the loaders of the lanes that vote in the task present the read of an import's record (R346). -/
def execImportRead (i : Nat) (s : State) : Host.Outcome State Fault Refusal :=
  let t := s.impTask i
  occurs (decide (i < 12) && s.impOn i && s.on GRP_CFG_EN && s.get (AGREE t) == 1 && s.importing.isNone && !s.on (IMP_DONE i)) s
    fun s =>
      let s := s.elapseTo (s.get (AGREE_A t) + s.get GRP_CFG_DL * grainsUs)
      let inis := (s.voters t).map Lane.idx
      let s := ((s.set (IMP_ON i) 1).set (IMP_POS i) 0).each Lane.all fun s l =>
        (s.set (IMP_ACC l.idx i) 0).set (IMP_CHK l.idx i) 0
      match (upto 3).find? fun k => s.memberOf k == s.ictx i 1 % 4 with
      | some k => s.impNext i (k + 1) inis
      | none => s.loadersFail inis

/-! ### Responses and timeouts -/

/-- A read's response: data, or an error. A held read gives them to all that share it; a retry read keeps them for its
reissue; one given up is a late completion (R324 to R326). -/
def State.readReturns (s : State) (far tag : Nat) (data : Option (List Byte)) : State :=
  match s.tagged far tag with
  | none => s
  | some o =>
    let bad := data.all fun d => d.length != o.len
    match o.kind, o.st with
    | 2, _ => s
    | _, .orphan => ((s.dropOp o).raise BR_EVT_LATECPL BR_EVCNT_OTHER_CNT).ev 0x7105 0 (o.addr % 2 ^ 32) o.far |>.pump
    | 1, _ =>
      let s := s.each o.sharers fun s j => s.set (BR_ANS j) (if bad then 3 else 2)
      if bad then
        let s := s.dropOp o
        (if o.ini < 3 then s.loadersFail o.sharers else s).pump
      else
        let d := data.getD []
        let s := s.putOp o { o with st := .buffered, data := d, arrived := s.now }
        (if o.ini < 3 then s.impData o d else s).pump
    | _, _ => (s.putOp o { o with st := if bad then .failed else .buffered, data := data.getD [], arrived := s.now }).pump

/-- Read data return from a far side, or the error of a read (R324). -/
def execFarSideData (far tag : Nat) (data : Option (List Byte)) (s : State) : Host.Outcome State Fault Refusal :=
  occurs true s fun s => s.readReturns far tag data

/-- Data not claimed within 100 µs of arrival are discarded (R324). -/
def execUnclaimedDataTimeout (i addr len : Nat) (s : State) : Host.Outcome State Fault Refusal :=
  match s.farOps.find? fun o => o.kind == 0 && o.ini == i && o.addr == addr && o.len == len && o.st == .buffered with
  | none => .next s
  | some o => .next (
      let s := s.elapseTo (o.arrived + 100 * grainsUs)
      let s := (s.dropOp o).raise BR_EVT_UNCLAIMED BR_EVCNT_OTHER_CNT
      (s.ev 0x7101 0 (addr % 2 ^ 32) i (linesOf len)).pump)

/-- The hold timeout of an initiator's held read: it completes with an error, and what comes later is late (R325). -/
def execHoldTimeout (i : Nat) (s : State) : Host.Outcome State Fault Refusal :=
  match s.farOps.find? fun o => o.kind == 1 && o.sharers.contains i && (o.st == .waiting || o.st == .flying) with
  | none => .next s
  | some o => .next (
      let s := s.elapseTo (s.get (HELD_AT i) + 20 * grainsUs)
      let s := (s.raise BR_EVT_HOLDTO BR_EVCNT_HOLDTO_CNT).ev 0x7102 0 (o.addr % 2 ^ 32) i o.far
      let left := o.sharers.filter fun j => j != i
      let s := if left.isEmpty then
          if o.st = .flying then s.putOp o { o with st := .orphan, sharers := [] } else s.dropOp o
        else s.putOp o { o with sharers := left }
      let s := s.set (BR_ANS i) 3
      (if i < 3 then s.loadersFail [i] else s).pump)

/-- A non-posted far-side write is issued; an initiator makes one at a time (R327). -/
def execNearSideWrite (i far addr : Nat) (data : List Byte) (s : State) : Host.Outcome State Fault Refusal :=
  occurs (decide (i < 9) && s.reaches i far && !s.writing i && decide (0 < data.length) &&
      decide (data.length ≤ if far = 0 then 256 else 512)) s fun s => s.farWrite i far addr data

/-- A write completes: the far side has confirmed it (R327). -/
def State.writeDone (s : State) (o : FarOp) : State :=
  let s := if o.far = 0 then o.data.zipIdx.foldl (fun s p =>
      { s with hostMem := Sparse.put s.hostMem (o.addr + p.2) p.1 }) s else s
  (((s.dropOp o).set (BR_ANS o.ini) 2).pump).pumpTwin

/-- The completion of a PCIe write's flush read: the write is complete, or has failed with its status (R327). -/
def execFlushReadCompletion (tag : Nat) (ok : Bool) (s : State) : Host.Outcome State Fault Refusal :=
  match s.tagged 0 tag with
  | none => .next s
  | some o => occurs (o.kind == 2) s fun s => if ok then s.writeDone o else (s.writeFailed o 0).pump

/-- The time that BR_CFG.CTO allows a PCIe completion, in grains; the reserved code allows the longest (R349). -/
def State.ctoGrains (s : State) : Nat :=
  match s.get BR_CFG_CTO with
  | 0 => 50 * grainsUs
  | 1 => grainsMs
  | _ => 10 * grainsMs

/-- A PCIe completion timeout: a read fails at its reissue, a write at its initiator (R327). -/
def execCompletionTimeout (tag : Nat) (s : State) : Host.Outcome State Fault Refusal :=
  match s.tagged 0 tag with
  | none => .next s
  | some o => .next (
      let s := s.elapseTo (o.began + s.ctoGrains)
      let s := (s.raise BR_EVT_CTO BR_EVCNT_OTHER_CNT).ev 0x7104 0 (o.addr % 2 ^ 32) o.ini tag
      (if o.kind = 2 then s.writeFailed o 1 else s.putOp o { o with st := .failed }).pump)

/-- A link write without an answer in 50 µs fails (R327). -/
def execWriteTimeout (k tag : Nat) (s : State) : Host.Outcome State Fault Refusal :=
  match s.tagged (k + 1) tag with
  | none => .next s
  | some o => occurs (decide (k < 4) && o.kind == 2) s fun s =>
      let s := (s.elapseTo (o.began + 50 * grainsUs)).raise (CL_EVT_ACKTO k) (CL_EVCNT_FAULT_CNT k)
      ((s.writeFailed o 1).pump).pumpTwin

/-! ### Alert words -/

/-- The partner of a link is lost: 0 failed reads, 1 heartbeat stalled (R331). -/
def State.partnerLost (s : State) (k kind : Nat) : State :=
  if s.on (PAL_LOST k) then s
  else
    let s := ((s.set (PAL_LOST k) 1).raise BR_EVT_PARTNER BR_EVCNT_OTHER_CNT).ev 0x7107 0 k kind (s.get (CL_STAT_PDEVID k))
    s.showGroup

/-- A partner's alert word is read, every 2 µs while its link is up, or the read fails (R329, R331). -/
def execAlertPoll (k : Nat) (word : Option Word) (s : State) : Host.Outcome State Fault Refusal :=
  occurs (decide (k < 4) && s.linkUp k && (s.get (CL_CFG_ROLE k) == 1 || s.get (CL_CFG_ROLE k) == 2)) s fun s =>
    let s := s.elapseTo (s.get (PAL_AT k))
    let s := s.set (PAL_AT k) (s.now + 2 * grainsUs)
    match word with
    | none =>
      let n := min 3 (s.get (PAL_FAIL k) + 1)
      let s := (s.set (PAL_FAIL k) n).set (PAL_HBAT k) 0
      if n = 3 then s.partnerLost k 0 else s
    | some w =>
      let same := s.on (PAL_HBAT k) && decide (s.get (BR_PALERT_WORD k) % 256 = w.toNat % 256)
      let s := (s.set (BR_PALERT_WORD k) w.toNat).set (PAL_FAIL k) 0
      if same then
        if s.get (PAL_HBAT k) + grainsMs ≤ s.now + 1 then s.partnerLost k 1 else s
      else s.set (PAL_HBAT k) (s.now + 1)

/-- Every 100 µs the heartbeat of the alert word increments. No rule says when the twin attention bit of a twin member is
set: it is a free value (R330, log 4). -/
def execAlertHeartbeat (s : State) : Host.Outcome State Fault Refusal :=
  occurs true s fun s =>
    let s := s.elapseTo (s.get ALERT_AT + 100 * grainsUs)
    let beat := s.get BR_ALERT_WORD + 1
    if s.on TW_CFG_EN then
      ((s.free 1).2.set BR_ALERT_WORD (s.alertWord beat (s.free 1).1)).set ALERT_AT s.now
    else (s.set BR_ALERT_WORD (s.alertWord beat 0)).set ALERT_AT s.now

/-! ### Semaphores -/

/-- A valid owner tag: bits 7:6 are 0 (R332). -/
def tagOk (tag : Nat) : Bool := decide (tag < 64)

/-- Takes a semaphore when it is free; otherwise the take is ignored and counted (R332). -/
def State.semTake (s : State) (n tag : Nat) : State :=
  if s.get (BR_SEM_OWNER n) = 0xFF then
    ((s.set (BR_SEM_OWNER n) tag).set (BR_SEMBUSY n) 1).set (SEM_AT n) s.now
  else s.inc (BR_SEM_CONTEND n)

/-- Releases a semaphore of its owner (R332). -/
def State.semRelease (s : State) (n tag : Nat) : State :=
  if s.get (BR_SEM_OWNER n) = tag then (s.set (BR_SEM_OWNER n) 0xFF).set (BR_SEMBUSY n) 0 else s

/-- A take, from a near-side initiator or a partner (R332). -/
def execSemaphoreTake (n tag : Nat) (s : State) : Host.Outcome State Fault Refusal :=
  occurs (decide (n < 64) && tagOk tag) s fun s => s.semTake n tag

/-- A release (R332). -/
def execSemaphoreRelease (n tag : Nat) (s : State) : Host.Outcome State Fault Refusal :=
  occurs (decide (n < 64) && tagOk tag) s fun s => s.semRelease n tag

/-- A semaphore held for SEMTO ms is released by the device (R333). -/
def execSemaphoreTimeout (n : Nat) (s : State) : Host.Outcome State Fault Refusal :=
  occurs (decide (n < 64) && s.get (BR_SEM_OWNER n) != 0xFF) s fun s =>
    let s := s.elapseTo (s.get (SEM_AT n) + s.get BR_CFG_SEMTO * grainsMs)
    let tag := s.get (BR_SEM_OWNER n)
    let ms := (s.now - s.get (SEM_AT n)) / grainsMs
    let s := (s.raise BR_EVT_SEMTO BR_EVCNT_OTHER_CNT).ev 0x7106 0 n tag (min 65535 ms)
    s.semRelease n tag

/-- The highest counts of operations in flight return to 0 (R349). -/
def State.bridgeMaxClear (s : State) : State := ((s.set BR_OPSMAX_PCIE 0).set BR_OPSMAX_CL 0).set BR_OPSMAX_LINES 0

/-- BR_CLR.MAXCLR (R349). -/
def execBrMaxclr (s : State) : Host.Outcome State Fault Refusal := occurs true s State.bridgeMaxClear

end Sys2Proof.Machine
end

