-- ==== Sys2Proof/Machine/NetOps.lean ====
section
/-! DEFINITION. The timed network's frames, rods, flow contexts, ports and receive front: what the network commands share
(R202 to R226, R246). Ports are numbered 0 TNA0, 1 TNA1, 2 TNB0, 3 TNB1. -/

namespace Sys2Proof.Machine
open Reg Hid

/-! ### Rod entries and flow contexts (R213, R217) -/

/-- A rod entry. -/
structure Rod where
  start : Nat
  kind : Nat
  len : Nat
  flow : Nat
  paired : Bool
  tx0 : Bool
  tx1 : Bool
  rx0 : Bool
  rx1 : Bool
  hop0 : Nat
  hop1 : Nat
  sender : Nat
  crcOk : Bool
  deriving DecidableEq, Repr

/-- `n` bits of a word from bit `lo`. -/
def bits (w lo n : Nat) : Nat := w / 2 ^ lo % 2 ^ n

/-- The bytes of words given as numbers. -/
def natWordBytes (ws : List Nat) : List Byte := ws.flatMap (leBytes 4)

/-- Reads a rod entry from its four words; the CRC covers bytes 0 to 13 (R213). -/
def rodOf (ws : List Nat) : Rod :=
  let w := fun (i : Nat) => ws.getD i 0
  { start := bits (w 0) 0 25, kind := bits (w 0) 25 3, len := bits (w 1) 0 25, flow := bits (w 2) 0 9,
    paired := (w 2).testBit 9, tx0 := (w 2).testBit 10, tx1 := (w 2).testBit 11, rx0 := (w 2).testBit 12,
    rx1 := (w 2).testBit 13, hop0 := bits (w 2) 14 6, hop1 := bits (w 2) 20 6, sender := bits (w 2) 26 6,
    crcOk := bits (w 3) 16 16 == crc16 ((natWordBytes [w 0, w 1, w 2, w 3]).take 14) }

/-- Transmit on port 0 or 1 of the channel. -/
def Rod.tx (r : Rod) (p : Nat) : Bool := if p % 2 = 0 then r.tx0 else r.tx1
/-- Accept on port 0 or 1 of the channel. -/
def Rod.rx (r : Rod) (p : Nat) : Bool := if p % 2 = 0 then r.rx0 else r.rx1
/-- Hops via port 0 or 1 of the channel. -/
def Rod.hop (r : Rod) (p : Nat) : Nat := if p % 2 = 0 then r.hop0 else r.hop1

/-- Where a rod entry stands in the table. -/
def rodKey (bank ch i : Nat) : Nat := (bank * 2 + ch) * 1024 + i

/-- The rod entry at a place. -/
def State.rod (s : State) (bank ch i : Nat) : Rod := rodOf (Sparse.get s.rodTab (rodKey bank ch i) [])

/-- The active bank. -/
def State.bank (s : State) : Nat := s.get TN_BANK_ACTIVE

/-- The bank whose rods a furlong has: frames in flight at a switch belong to the rods of their own furlong (R230). -/
def State.bankAt (s : State) (f : Int) : Nat := if f + 1 < s.get SWITCH_F then s.get PREV_BANK else s.bank

/-- The entries of a bank and channel that are not empty, with their indexes. -/
def State.rods (s : State) (bank ch : Nat) : List (Nat × Rod) :=
  (Sparse.range s.rodTab (rodKey bank ch 0) 1024).map fun p => (p.1 % 1024, rodOf p.2)

/-- A flow context. -/
structure FlowCtx where
  dir : Nat
  safety : Bool
  submode : Nat
  len : Nat
  ageLim : Nat
  freshLim : Nat
  src : Nat
  scid : Nat
  off : Nat
  task : Nat
  en : Bool
  space : Nat
  sublen : Nat
  crcOk : Bool
  deriving DecidableEq, Repr

/-- Reads a flow context from its eight words; the CRC covers words 0 to 6 (R217). -/
def flowOf (ws : List Nat) : FlowCtx :=
  let w := fun (i : Nat) => ws.getD i 0
  { dir := bits (w 0) 0 2, safety := (w 0).testBit 2, submode := bits (w 0) 6 2, len := bits (w 0) 16 11,
    ageLim := bits (w 1) 0 8, freshLim := bits (w 1) 8 8, src := bits (w 1) 16 6, scid := w 2, off := bits (w 3) 0 16,
    task := bits (w 3) 16 4, en := (w 3).testBit 20, space := bits (w 3) 21 1, sublen := bits (w 4) 0 10,
    crcOk := w 7 == crc32c (natWordBytes [w 0, w 1, w 2, w 3, w 4, w 5, w 6]) }

/-- The context of a flow. -/
def State.flow (s : State) (f : Nat) : FlowCtx := flowOf (Sparse.get s.flowTab f [])

/-- The flows that have a context. -/
def State.flows (s : State) : List Nat := (s.flowTab.map (·.1)).filter fun f => decide (f < 512) && (s.flow f).dir != 0

/-- The RECEIVE flows. -/
def State.rxFlows (s : State) : List Nat := s.flows.filter fun f => (s.flow f).dir == 2

/-- The wire time in grains of a frame with `n` payload bytes (R211). -/
def wireTime (n : Nat) (safety : Bool) : Nat := 2 * (38 + max 46 (16 + n + if safety then 12 else 0))

/-- A rod entry or flow context fails its check: event 0x5010, the rod is skipped, and the bank is reloaded from the
configuration set. `failF` counts the reloads made when it failed before; a failure after the reload that followed, within
16 furlongs of the last reload, leaves it skipped. One frame that is received and forwarded is one use of its entry (R216). -/
def State.checkFailure (s : State) (entry : Bool) (n place : Nat) (failF skip : Fld) : State :=
  let r := s.get ROD_RELOADS
  if entry && s.get failF == r + 1 then s
  else
    let again := s.on failF && decide (s.get failF ≤ r) && decide (s.furlong + 1 < s.get ROD_RELOAD_F + 16)
    let s := (s.raise TN_EVT_CHECK TN_EVCNT1_SCHED_CNT).ev 0x5010 0 n (bit (!entry)) place
    if again then s.set skip 1 else (s.set failF (r + 1)).set ROD_RELOAD 1

/-- The context of a flow may be used: there is none to check, or its CRC is right and it is not skipped (R216, R217). -/
def State.ctxFit (s : State) (f : Nat) : Bool :=
  Sparse.get s.flowTab f [] == [] || ((s.flow f).crcOk && !s.on (FCTX_SKIP f))

/-- The check of a context at a use of it (R217). -/
def State.ctxCheck (s : State) (f ch : Nat) : State :=
  if s.ctxFit f || s.on (FCTX_SKIP f) then s else s.checkFailure false f (2 * ch + s.bank) (FCTX_FAILF f) (FCTX_SKIP f)

/-- Takes the active bank of both channels, and the contexts, from the configuration set again (R216). -/
def State.reloadRods (s : State) : State :=
  let own := fun (p : Nat × List Nat) => decide (p.1 / 2048 = s.bank)
  let s := (s.set ROD_RELOADS (s.get ROD_RELOADS + 1)).set ROD_RELOAD_F (s.furlong + 1)
  { s with rodTab := (s.cfg.rods.filter own).foldl (fun m p => Sparse.set m p.1 [] p.2)
             (Sparse.clear s.rodTab (rodKey s.bank 0 0) 2048),
           flowTab := s.cfg.flows.foldl (fun m p => Sparse.set m p.1 [] p.2) [] }

/-! ### Frames (R207 to R210) -/

/-- A header read from its 16 bytes (R208). -/
structure Hdr where
  ver : Nat
  kind : Nat
  chan : Nat
  sender : Nat
  flow : Nat
  rep : Bool
  trailer : Bool
  furlong : Nat
  rod : Nat
  age : Nat
  plen : Nat
  crcOk : Bool
  deriving DecidableEq, Repr

/-- Reads a header. -/
def hdrOf (bs : List Byte) : Hdr :=
  let b := fun (i : Nat) => (bs.getD i 0).toNat
  let w := 256 * b 2 + b 3
  { ver := b 0 / 16, kind := b 0 % 16, chan := b 1 / 64, sender := b 1 % 64, flow := w / 128, rep := w.testBit 6,
    trailer := w.testBit 5, furlong := ofBe (slice bs 4 4), rod := ofBe (slice bs 8 2) % 1024, age := b 10,
    plen := ofBe (slice bs 12 2), crcOk := ofBe (slice bs 14 2) == crc16 (bs.take 14) }

/-- The header of a received frame. -/
def frHdr (f : NetFrame) : Hdr := hdrOf (f.data.take 16)

/-- The payload of a received frame, by its own length field. -/
def frPayload (f : NetFrame) : List Byte := slice f.data 16 (frHdr f).plen

/-- The twelve bytes of the safety trailer (R210). -/
def frTrailer (f : NetFrame) : List Byte := slice f.data (16 + (frHdr f).plen) 12

/-- Builds a header with its CRC (R208, R209). -/
def State.header (s : State) (kind chan flow : Nat) (rep trailer : Bool) (furlong rod age plen : Nat) : List Byte :=
  let lease := bit (s.on TW_CFG_EN && s.on TW_STAT_ACTIVE)
  let twin := if s.on TW_CFG_EN then s.get GLB_STRAP_TWIN_SIDE else 0
  let h := beBytes 1 (16 + kind) ++ beBytes 1 (64 * chan + s.get TN_CFG_NODE) ++
    beBytes 2 (128 * flow + 64 * bit rep + 32 * bit trailer) ++ beBytes 4 furlong ++ beBytes 2 rod ++ beBytes 1 age ++
    beBytes 1 (64 * s.get DBG_PSTATE_STATE + 32 * lease + 16 * twin) ++ beBytes 2 plen
  h ++ beBytes 2 (crc16 h)

/-- The source address of a node (R207). -/
def State.macOf (s : State) (node : Nat) : Nat :=
  ofBe (leBytes 4 (s.get TN_MACPFX0_B0_3) ++ leBytes 1 (s.get TN_MACPFX1_B4) ++ leBytes 1 node)

/-- A scheduled frame with its data field padded to 46 bytes (R207). -/
def State.frame (s : State) (data : List Byte) : NetFrame :=
  { dst := 0xFFFFFFFFFFFF, src := s.macOf (s.get TN_CFG_NODE), etype := s.get TN_CFG_ETYPE,
    data := data ++ List.replicate (46 - data.length) 0, fcsOk := true }

/-- A port sends a frame. -/
def State.transmit (s : State) (p : Nat) (f : NetFrame) : State :=
  { s with lastTx := Sparse.set s.lastTx p none (some f) }

/-- The port is used (R202). -/
def State.used (s : State) (p : Nat) : Bool := s.on (TN_PORT_USED p) && !s.blk 6

/-- The four ports. -/
def ports : List Nat := upto 4

/-- The ports in use. -/
def State.usedPorts (s : State) : List Nat := ports.filter s.used

/-- A port of an enabled channel is in use. -/
def State.anyUsed (s : State) : Bool := ports.any fun p => s.used p && s.on (TN_CFG_EN (p / 2))

/-! ### Synchronisation state (R255) -/

/-- The node is IN SYNC. -/
def State.inSync (s : State) : Bool := s.get TN_SYNCST_STATE == 4

/-- The node listens: LISTENING or OUT OF SYNC. -/
def State.listens (s : State) : Bool := s.get TN_SYNCST_STATE == 1 || s.get TN_SYNCST_STATE == 5

/-- Starts the listen timer now, if a port is in use; otherwise it waits for one (R248). -/
def State.listenTimer (s : State) : State := s.set LISTEN_AT (if s.anyUsed then s.now + 1 else 0)

/-- Forgets the measurements of the furlong (R241). -/
def State.clearMeas (s : State) : State :=
  ((s.restore (MEAS 0 0) 192).restore (MEAS_M 0 0) 192).restore (MEAS_RANK 0 0) 192

/-- The node begins to listen, in state 1 or 5, with event 0x5803 and its cause (R248, R255). -/
def State.listen (s : State) (st cause : Nat) : State :=
  let s := (s.clearMeas.set TN_SYNCST_STATE st).set COLD_ME 0
  let s := (s.set CORR_ON 0).set INTEG_OK 0
  (s.ev 0x5803 0 cause (s.get TN_SYNCST_ATTEMPTS)).listenTimer

/-- A node with an enabled channel listens when it starts; without one its state is 0 and nothing is recorded (R248,
R255). -/
def State.listenAtStart (s : State) (cause : Nat) : State :=
  if s.on (TN_CFG_EN 0) || s.on (TN_CFG_EN 1) then s.listen 1 cause
  else ((((s.set TN_SYNCST_STATE 0).set COLD_ME 0).set CORR_ON 0).set INTEG_OK 0).set LISTEN_AT 0

/-- A burst begins, unless one is being sent (R261). -/
def State.wakeBurst (s : State) (mask : Nat) (reason : Nat) : State :=
  if s.on TN_WAKESTAT_SENDING then s
  else
    let id := (s.get TN_WAKESTAT_SENT_ID + 1) % 256
    let s := ((s.set TN_WAKESTAT_SENDING 1).set TN_WAKESTAT_SENT_ID id).set WB_N 0
    let s := ((s.set WB_AT s.now).set WB_MASK mask).set WB_REASON reason
    s.ev 0x580E 0 id reason (ports.foldl (fun n p => n + if s.used p then 2 ^ p else 0) 0)

/-- With WAKE_SEND set a node that begins to listen after power-up or a wake sends a burst to every node, with reason 0
(R261). -/
def State.wakeRebroadcast (s : State) : State :=
  if s.on TN_SYNCCFG_WAKE_SEND && s.listens then s.wakeBurst (2 ^ 64 - 1) 0 else s

/-- A failed coldstart attempt is counted (R248, R251, R253). -/
def State.attemptFailed (s : State) : State := s.set TN_SYNCST_ATTEMPTS (min 3 (s.get TN_SYNCST_ATTEMPTS + 1))

/-- The node goes out of sync (R244). -/
def State.outOfSync (s : State) (m reason : Nat) : State :=
  let s := (s.raise TN_TEVT_OOS TN_TEVCNT_OOS_CNT).ev 0x580A 0 m reason
  s.listen 5 1

/-- Integration is given up: 4 abandoned, 5 failed (R254). -/
def State.integFail (s : State) (cause : Nat) : State :=
  (s.raise TN_TEVT_INTEGFAIL TN_TEVCNT_OTHER_CNT).listen 1 cause

/-- A coldstart collision on a port: 0 a receive error, 1 a foreign COLDSTART (R251). -/
def State.collision (s : State) (p sender kind : Nat) : State :=
  let s := (s.raise TN_TEVT_COLLISION TN_TEVCNT_OTHER_CNT).ev 0x5807 0 sender kind p
  s.attemptFailed.listen 1 2

/-- No port of an enabled channel is in use any more (R244, R255). -/
def State.portsGone (s : State) : State :=
  let st := s.get TN_SYNCST_STATE
  if s.anyUsed then s
  else if st = 4 then s.outOfSync 0x7FFFFFFF 2
  else if st = 2 ∨ st = 3 then s.listen 1 6
  else s.set LISTEN_AT 0

/-- A task is network-bound when a flow is bound to one of its slices or it is the task of the switch words (R218, R259). -/
def State.netBound (s : State) (t : Nat) : Bool :=
  (s.flows.any fun f => (s.flow f).en && (s.flow f).task == t) || (s.on TN_SWBIND_EN && s.get TN_SWBIND_TASK == t)

/-- The tasks that are network-bound, as a mask (R259). -/
def State.boundMask (s : State) : Nat :=
  tasks.foldl (fun n t => n + if s.on (TN_NETBOUND_TASKS t) then 2 ^ t else 0) 0

/-- The node enters IN SYNC; the first time, network-bound tasks start (R255, R259). -/
def State.enterSync (s : State) : State :=
  let s := (s.set TN_SYNCST_STATE 4).set SYNC_MISSED 0
  let s := s.ev 0x5805 0 (s.furlong % 2 ^ 32) (s.get TN_SYNCST_NMEAS) (s.get TN_SYNCST_ATTEMPTS)
  if s.on TN_SYNCST_NETSTARTED then s
  else
    let s := (s.set TN_SYNCST_NETSTARTED 1).set NET_FROM (s.now + 8 * grainsUs)
    if s.boundMask = 0 then s else s.ev 0x5810 0 (s.furlong % 2 ^ 32) s.boundMask

/-- A coldstarter accepts a frame of another node in a rod while IN SYNC: its coldstart is confirmed (R253). -/
def State.confirmCold (s : State) (sender : Nat) : State :=
  if s.inSync && s.on COLD_ME && sender != s.get TN_CFG_NODE then (s.set COLD_ME 0).set TN_SYNCST_ATTEMPTS 0 else s

/-- Traffic with the configured EtherType and a correct header CRC restarts the listen timer (R248). -/
def State.heard (s : State) : State := if s.listens && s.on LISTEN_AT then s.set LISTEN_AT (s.now + 1) else s

/-! ### Ports (R202, R203, R236) -/

/-- The occupied interval of an entry on a port, with link delay `d` (R215). -/
def Rod.interval (r : Rod) (p d node accept : Nat) : Int × Int :=
  let own := decide (r.sender = node) && r.tx p || r.kind == 5
  let lo : Int := if own then r.start else (r.start + (r.hop p - 1) * 250 + d : Int) - accept
  (lo, lo + r.len + if r.tx p && !own then 250 else 0)

/-- An entry that occupies a port. -/
def Rod.onPort (r : Rod) (p : Nat) : Bool := r.kind != 0 && (r.tx p || r.rx p)

/-- Two intervals that overlap. -/
def overlap (a b : Int × Int) : Bool := decide (a.1 < b.2) && decide (b.1 < a.2)

/-- Whether two of some intervals overlap. -/
def anyOverlap : List (Int × Int) → Bool
  | [] => false
  | a :: r => r.any (overlap a) || anyOverlap r

/-- Whether two rod entries of a bank overlap on a port, given its link delay (R202, R215). -/
def State.rodsOverlap (s : State) (bank p d : Nat) : Bool :=
  anyOverlap (((s.rods bank (p / 2)).filter fun r => r.2.onPort p).map fun r =>
    r.2.interval p d (s.get TN_CFG_NODE) (s.get TN_WIN_ACCEPT))

/-- A measured link delay lets a port be used: it is within both limits, and no rod entries of either bank overlap with it
(R202). -/
def State.portFits (s : State) (p d : Nat) : Bool :=
  decide (d ≤ 150) && decide (d + s.get TN_WIN_ACCEPT ≤ 230) && !s.rodsOverlap 0 p d && !s.rodsOverlap 1 p d

/-- A measured port's delay is judged: it comes into use, or is too long (R202, R236). -/
def State.judgePort (s : State) (p d : Nat) : State :=
  let ok := s.portFits p d
  (s.put (TN_PORT_USED p) ok).put (TN_PORT_LONG p) (!ok)

/-- A port whose measured delay no longer fits leaves use (R202). -/
def State.portLong (s : State) (p d : Nat) : State :=
  (s.raise TN_EVT_DLYLONG TN_EVCNT1_PORT_CNT).ev 0x500D 0 p d

/-- The port has link at 1000 Mbit/s full duplex and SGMII synchronisation (R202). -/
def State.portUp (s : State) (p : Nat) : Bool := s.on (TN_PORT_LINK p) && s.on (TN_PORT_SYNC p)

/-- A port comes up or goes down; a new link is measured first (R202, R203, R235). -/
def State.portChange (s : State) (p : Nat) (was : Bool) (reason : Nat) : State :=
  let up := s.portUp p
  if up == was then s
  else
    let s := s.raise TN_EVT_PORT TN_EVCNT1_PORT_CNT
    let s := ((s.set (DLY_REQ p) 0).set (DLY_N p) 0).set (DLY_T1 p) 0
    if up then ((s.set (DLY_ON p) 1).set (DLY_AT p) s.now).ev 0x500C 0 p
    else
      let s := ((s.set (DLY_ON p) 0).set (TN_PORT_USED p) 0).set (TN_PORT_LONG p) 0
      let s := ((s.set (TN_DELAY_P p) 0xFF).set (PORT_BADID p) 0).set (DLY_AT p) 0
      (s.ev 0x500B 0 p reason).portsGone

/-! ### The receive front (R214, R222, R246) -/

/-- The arrival of a frame's start delimiter in a lane's network time, from its free-running timestamp (R233). -/
def State.arrivalIn (s : State) (l : Lane) (at_ : Nat) : Int := (s.get (TNET l.idx) : Int) + at_ - s.now

/-- The arrival as the device takes it. -/
def State.arrival (s : State) (at_ : Nat) : Int := (s.netTime : Int) + at_ - s.now

/-- The expected arrival of an entry's frame on a port, from the furlong start (R214). -/
def State.expected (s : State) (r : Rod) (p : Nat) : Int :=
  (r.start : Int) + ((r.hop p : Int) - 1) * 250 + s.get (TN_DELAY_P p)

/-- How far from its expected arrival a frame came, in the furlong that makes it smallest, with that furlong's number:
the furlong of the rod start nearest to it (R214). -/
def State.offset (s : State) (r : Rod) (p : Nat) (a : Int) : Int × Int :=
  let fg : Int := s.furlongGrains
  let x := a - s.expected r p
  let f := (x + fg / 2) / fg
  (x - f * fg, f)

/-- The other port of a port's channel. -/
def otherPort (p : Nat) : Nat := if p % 2 = 0 then p + 1 else p - 1

/-- A frame of the entry can arrive on a port: another node's frame, at a known hop count, that this node accepts there or
passes on through the other port (R206, R212, R214). -/
def Rod.arrives (r : Rod) (p node : Nat) : Bool :=
  decide (2 ≤ r.kind) && r.hop p != 0 && (r.rx p || (r.tx (otherPort p) && r.kind != 5)) &&
    !(r.sender == node && (r.kind == 4 || r.kind == 6))

/-- The entries of a bank on whose port a frame can arrive. -/
def State.rxRods (s : State) (bank p : Nat) : List (Nat × Rod) :=
  (s.rods bank (p / 2)).filter fun r => r.2.arrives p (s.get TN_CFG_NODE) && !(s.on (ROD_SKIP (rodKey bank (p / 2) r.1)))

/-- The banks whose rods a frame that arrives now can be in: the active one, and at the start of a furlong that switched
banks the one before, with it first (R230). -/
def State.rxBanks (s : State) : List Nat :=
  if s.on SWITCH_F && s.get SWITCH_F == s.furlong + 1 then [s.get PREV_BANK, s.bank] else [s.bank]

/-- The rod in whose window, of half-width `win`, a frame arrived: index, entry, offset and furlong. A rod that began before
the last step of network time is not taken (R214, R230, R260). -/
def State.rodAt (s : State) (p : Nat) (a : Int) (win : Nat) (ok : Rod → Bool) : Option (Nat × Rod × Int × Int) :=
  s.rxBanks.findSome? fun b => ((s.rxRods b p).filter fun r => ok r.2).findSome? fun r =>
    let o := s.offset r.2 p a
    if o.1.natAbs ≤ win ∧ s.bankAt o.2 = b ∧ (s.get STEP_NET : Int) ≤ o.2 * s.furlongGrains + r.2.start then
      some (r.1, r.2, o.1, o.2) else none

/-- The entry nearest to an arrival among those of a sender. -/
def State.nearest (s : State) (p : Nat) (a : Int) (sender : Nat) : Option (Nat × Int) :=
  ((s.rxRods s.bank p).filter fun r => r.2.sender == sender).foldl (fun best r =>
    let o := (s.offset r.2 p a).1
    match best with
    | some b => if o.natAbs < b.2.natAbs then some (r.1, o) else some b
    | none => some (r.1, o)) none

/-- A frame outside the acceptance window is counted early or late against its sender and the port (R246). -/
def State.outsideWindow (s : State) (p sender i : Nat) (o : Int) : State :=
  let late := decide (0 < o)
  let s := if late then (s.inc (GCNT_L sender)).inc (TN_PGCNT_LATE p) else (s.inc (GCNT_E sender)).inc (TN_PGCNT_EARLY p)
  s.ev 0x5008 0 sender (bit late) i

/-- The first field of R222 that does not match, coded as in event 0x5007; `len` is the expected payload length and
`tr` the expected trailer-present bit, none where they are not checked. -/
def Hdr.mismatch (h : Hdr) (r : Rod) (kind ch flow : Nat) (tr : Option Bool) (lenOk : Bool) (f : Int) : Option Nat :=
  if h.ver ≠ 1 then some 0
  else if h.kind ≠ kind then some 1
  else if h.chan ≠ (if r.paired then 2 else ch) then some 2
  else if h.sender ≠ r.sender then some 3
  else if h.flow ≠ flow then some 4
  else if (match tr with | some b => h.trailer != b | none => false) = true then some 7
  else if !lenOk then some 5
  else if (h.furlong : Int) ≠ f % 4294967296 then some 6
  else none

/-- The frame kind that belongs in a rod. -/
def Rod.frameKind (r : Rod) : Nat := if r.kind = 4 then 1 else if r.kind = 6 then 4 else 0

/-- What R222 finds wrong with a header in a rod, furlong `f` (R222). -/
def State.headerFault (s : State) (h : Hdr) (r : Rod) (p : Nat) (f : Int) : Option Nat :=
  let ctx := s.flow r.flow
  let known := ctx.dir == 1 || ctx.dir == 2
  if r.kind = 3 ∧ known = false then
    h.mismatch r 0 (p / 2) r.flow none
      (decide (wireTime h.plen h.trailer + s.get TN_WIN_GUARD + s.get TN_WIN_ACCEPT ≤ r.len)) f
  else if r.kind = 4 ∨ r.kind = 6 then
    h.mismatch r r.frameKind (p / 2) 0 (some false) (decide (h.plen = 16)) f
  else h.mismatch r 0 (p / 2) r.flow (some ctx.safety) (decide (h.plen = ctx.len)) f

/-- A header mismatch is counted (R222, R232). -/
def State.headerMismatch (s : State) (h : Hdr) (i : Nat) (r : Rod) (field : Nat) : State :=
  let s := if r.kind = 2 ∨ r.kind = 3 then s.inc (FL_REJ r.flow) else s
  (s.raise TN_EVT_HDRMIS TN_EVCNT0_RX_CNT).ev 0x5007 0 h.flow field i

/-- A failed FCS is counted, once for a frame that is both received and forwarded (R206, R222, R232). -/
def State.fcsFailure (s : State) (p sfd : Nat) : State :=
  if s.get (BAD_AT p) = sfd + 1 then s
  else ((s.set (BAD_AT p) (sfd + 1)).raise TN_EVT_FCS TN_EVCNT0_RX_CNT).ev 0x5009 0 (s.furlong % 2 ^ 32) p

/-- A failed header CRC is counted, once for a frame that is both received and forwarded (R206, R222, R232). -/
def State.hdrCrcFailure (s : State) (p sfd i : Nat) : State :=
  if s.get (BAD_AT p) = sfd + 1 then s
  else ((s.set (BAD_AT p) (sfd + 1)).raise TN_EVT_HDRCRC TN_EVCNT0_RX_CNT).ev 0x5006 0 (s.furlong % 2 ^ 32) p i

/-- A valid frame on a port is noted for WAKE bursts (R261). -/
def State.noteValid (s : State) (p : Nat) : State := s.set (PORT_RXF p) (s.furlong + 1)

/-! ### Flows (R219 to R226) -/

/-- A flow's state as FLOW and TN_FLOWSTAT give it: a SEND flow shows receive age 0 and is not stale (R60, R219). -/
def State.flowState (s : State) (f : Nat) : FlowLatch :=
  let d := (s.flow f).dir
  if d = 0 then FlowLatch.unconfigured
  else { rxAge := if d = 1 then 0 else s.get (FL_AGE f), sndAge := s.get (FL_SAGE f),
         stale := d == 2 && s.on (FL_STALE f), rep := s.on (FL_REP f) }

/-- Shows a flow's state in its buffer and in TN_STALE (R219, R231). -/
def State.showFlow (s : State) (f : Nat) : State :=
  let x := s.flowState f
  let s := s.wr (flowBuf f + 0x7DC) 4 (x.rxAge + 256 * x.sndAge + 65536 * bit x.stale + 131072 * bit x.rep)
  s.put (TN_STALE f) x.stale

/-- A copy accepted for a flow: its payload, header and trailer go to the flow buffer (R219, R224, R225). -/
def State.holdCopy (s : State) (f : Nat) (fr : NetFrame) (fur : Int) : State :=
  let h := frHdr fr
  let s := (s.setBytes (flowBuf f) (frPayload fr)).setBytes (flowBuf f + 0x7C0) (fr.data.take 16)
  let s := s.setBytes (flowBuf f + 0x7D0) (if h.trailer then frTrailer fr else List.replicate 12 0)
  let s := ((s.set (FL_SAGE f) h.age).put (FL_REP f) h.rep).set (FL_ACC f) (fur.toNat + 1)
  s.showFlow f

/-- The receive age of a flow takes a new value; crossing its limit is an event (R225). -/
def State.setAge (s : State) (f age : Nat) : State :=
  let ctx := s.flow f
  let stale := decide (ctx.ageLim < age)
  let was := s.on (FL_STALE f)
  let s := (s.set (FL_AGE f) age).put (FL_STALE f) stale
  let s := if stale && !was then
      ((s.set (FL_STF f) 0).raise TN_EVT_STALE TN_EVCNT0_STALE_CNT).ev 0x5001 0 f ctx.task age
    else if stale then s.inc (FL_STF f)
    else if was then s.ev 0x5002 0 f (min 65535 (s.get (FL_STF f) + 1))
    else s
  s.showFlow f

/-! ### Steps of network time (R260) -/

/-- A furlong number plus 1, 0 for none, after a step of network time by `d` furlongs. -/
def shiftF (v : Nat) (d : Int) : Nat := if v = 0 then 0 else max 1 ((v : Int) + d).toNat

/-- Network time is stepped to new values: action instants keep at least a period of the free-running count, the furlong of
the step advances the receive ages once, rods are taken up from the first whole one on, and what has happened in earlier
furlongs keeps its distance (R260). -/
def State.stepNet (s : State) (new : Lane → Nat) : State :=
  let f0 := s.furlong
  let s := s.each Lane.all fun s l => s.set (TNET l.idx) (new l)
  let s := ((s.set SLEW_N 0).set SLEW_T 0).set STEP_NET s.netTime
  let s := s.each tasks fun s t =>
    s.set (A_FROM t) ((s.netTime : Int) + s.netGain (s.get (LAST_A t) + s.periodGrains t - s.now)).toNat
  let d : Int := (s.furlong : Int) - f0
  let s := s.each ports fun s p => (s.set (PORT_RXF p) (shiftF (s.get (PORT_RXF p)) d)).set (OPEN_END p) 0
  let s := ((s.set ROD_RELOAD_F (shiftF (s.get ROD_RELOAD_F) d)).set SWITCH_F 0).set BND_F s.furlong
  s.each s.flows fun s f =>
    let s := s.set (FL_ENDF f) (s.furlong + 1)
    let s := (s.set (SND_RF f) (unsigned 64 (s.get (SND_RF f) + d))).set (SND_RF2 f) (unsigned 64 (s.get (SND_RF2 f) + d))
    let s := (s.set (SND_LASTF f) 0).set (FL_ACC f) 0
    let s := (s.setIf (s.on (SND_SENT f)) (SND_SENT f) (2 ^ 64 - 1)).setIf (s.on (SND_SENT2 f)) (SND_SENT2 f) (2 ^ 64 - 1)
    if (s.flow f).dir = 2 then s.setAge f (satAdd 8 (s.get (FL_AGE f)) 1) else s

end Sys2Proof.Machine
end

