-- ==== Sys2Proof/Machine/Operands.lean ====
section
/-! DEFINITION. The operand forms of the scan engine: reading and writing bits and words of I, Q and M in a lane, and
whether an operand lies where its task may address it (R40, R48, R66, R75). -/

namespace Sys2Proof.Machine
open Reg Hid

/-- The bytes of a space that a task owns: first and one past the last (R66). -/
def State.window (s : State) (t : Nat) : Space → Nat × Nat
  | .I => (s.get (TSK_ISLICE_BASE t), s.get (TSK_ISLICE_BASE t) + 4 * s.get (TSK_ISLICE_LEN t))
  | .Q => (s.get (TSK_QSLICE_BASE t), s.get (TSK_QSLICE_BASE t) + 4 * s.get (TSK_QSLICE_LEN t))
  | .M => (64 * s.get (TSK_MWIN_BASE t), 64 * s.get (TSK_MWIN_BASE t) + 64 * s.get (TSK_MWIN_LEN t))

/-- `n` bytes from `a` lie in the task's slice or window. -/
def State.owns (s : State) (t : Nat) (sp : Space) (a n : Nat) : Bool :=
  decide ((s.window t sp).1 ≤ a) && decide (a + n ≤ (s.window t sp).2)

/-- A bit reference the task may use. -/
def State.bitOk (s : State) (t : Nat) (r : BitRef) : Bool := s.owns t r.sp r.byte 1

/-- A bit operand the task may use. -/
def State.bitOpOk (s : State) (t : Nat) : BitOp → Bool
  | .at r => s.bitOk t r
  | .k _ => true

/-- A bit the task may store to. -/
def State.bitStoreOk (s : State) (t : Nat) (r : BitRef) : Bool := s.owns t r.sp r.byte 1

/-- A word operand the task may use. -/
def State.wordOpOk (s : State) (t : Nat) : WordOp → Bool
  | .at r => s.owns t r.sp r.addr 4
  | .k _ => true

/-- A word the task may store to. -/
def State.wordStoreOk (s : State) (t : Nat) (r : WordRef) : Bool := s.owns t r.sp r.addr 4

/-- The address of a bit's byte in a lane. -/
def bitAddr (r : BitRef) (l : Lane) : Nat := spBase r.sp l + r.byte

/-- The address of a word in a lane. -/
def wordAddr (r : WordRef) (l : Lane) : Nat := spBase r.sp l + r.addr

/-- The value of a bit. -/
def State.bitAt (s : State) (l : Lane) (r : BitRef) : Bool := (s.byte (bitAddr r l)).getLsbD r.num

/-- A byte with one bit replaced. -/
def putBit (x : Byte) (n : Nat) (b : Bool) : Byte :=
  if b then x ||| (1#8 <<< n) else x &&& ~~~(1#8 <<< n)

/-- Stores a bit. -/
def State.storeBit (s : State) (l : Lane) (r : BitRef) (b : Bool) : State :=
  s.setByte (bitAddr r l) (putBit (s.byte (bitAddr r l)) r.num b)

/-- The value of a bit operand (R40). -/
def State.bitVal (s : State) (l : Lane) : BitOp → Bool
  | .at r => s.bitAt l r
  | .k b => b

/-- The value of a word operand (R40). -/
def State.wordVal (s : State) (l : Lane) : WordOp → Word
  | .at r => s.word (wordAddr r l)
  | .k v => Word.ofConst v

/-- The address that LDX and STX reach: the base plus WB as an unsigned byte offset (R48). -/
def indexed (r : WordRef) (wb : Word) : Nat := r.addr + wb.toNat

/-- Whether the indexed access is an index fault (R48). -/
def State.indexFault (s : State) (t : Nat) (r : WordRef) (wb : Word) : Bool :=
  wb.toNat % 4 != 0 || !s.owns t r.sp (indexed r wb) 4

/-- The logic image a context runs on: the one before an on-line change while the scan that crossed F finishes (R136). -/
def State.codeOf (s : State) (c : Ctx) : Option LogicImage := if c.old then s.oldImage else s.image

/-- The POU table a context runs on. -/
def State.pousOf (s : State) (c : Ctx) : List Pou :=
  match s.codeOf c with
  | some im => im.pous
  | none => []

/-- A POU contains an index. -/
def Pou.has (p : Pou) (i : Nat) : Bool := decide (p.entry ≤ i) && decide (i < p.entry + p.len)

/-- A jump from PC to `target` that R41 admits: forward, inside the POU that holds the jump. -/
def State.jumpOk (s : State) (c : Ctx) (target : Nat) : Bool :=
  decide (c.pc < target) && (s.pousOf c).any fun p => p.has c.pc && p.has target

/-- A call that names a POU of the image. -/
def State.callOk (s : State) (c : Ctx) (pou : Nat) : Bool := decide (pou < (s.pousOf c).length)

/-- The entry index of a POU. -/
def State.pouEntry (s : State) (c : Ctx) (pou : Nat) : Nat :=
  match (s.pousOf c)[pou]? with
  | some p => p.entry
  | none => 0

end Sys2Proof.Machine
end

