-- ==== Sys2Proof/Machine/Flags.lean ====
section
/-! DEFINITION. The arithmetic of the scan engine and every flag it computes: results and CY, OV and DZ (R45 to R47). -/

namespace Sys2Proof.Machine

/-- A word result with the carry and overflow that go with it. -/
structure Arith where
  wa : Word
  cy : Bool
  ov : Bool
  deriving DecidableEq, Repr

/-- A signed result that does not fit in 32 bits. -/
def overflows (i : Int) : Bool := decide (i < -2147483648) || decide (2147483647 < i)

/-- ADD: CY is the unsigned carry out (R45). -/
def addFlags (a b : Word) : Arith :=
  { wa := a + b, cy := decide (2 ^ 32 ≤ a.toNat + b.toNat), ov := overflows (a.toInt + b.toInt) }

/-- SUB: CY is the borrow (R45). -/
def subFlags (a b : Word) : Arith :=
  { wa := a - b, cy := decide (a.toNat < b.toNat), ov := overflows (a.toInt - b.toInt) }

/-- MUL: the low 32 bits; CY is cleared (R42, R45). -/
def mulFlags (a b : Word) : Arith :=
  { wa := a * b, cy := false, ov := overflows (a.toInt * b.toInt) }

/-- The quotient of DIV, truncated toward zero; 0 by zero (R45). −2³¹ by −1 wraps to −2³¹. -/
def divQuot (a b : Word) : Word := if b = 0 then 0 else BitVec.ofInt 32 (Int.tdiv a.toInt b.toInt)

/-- The remainder of DIV and of MOD, with the sign of the dividend; 0 by zero (R45, R46). -/
def divRem (a b : Word) : Word := if b = 0 then 0 else BitVec.ofInt 32 (Int.tmod a.toInt b.toInt)

/-- The OV of DIV: set for −2³¹ by −1 only (R45). -/
def divOv (a b : Word) : Bool := a == Word.minInt && b == BitVec.allOnes 32

/-- The OV of NEG and ABS: set for −2³¹ only (R46). -/
def negOv (a : Word) : Bool := a == Word.minInt

/-- ABS; −2³¹ stays (R46). -/
def absWord (a : Word) : Word := if a.toInt < 0 then -a else a

/-- The shifts and their last bit moved out, for every count (R47). -/
def shlFlags (a : Word) (n : Nat) : Word × Bool :=
  if n = 0 then (a, false)
  else if n ≤ 32 then (a <<< n, a.getLsbD (32 - n))
  else (0, false)

/-- SHR, filling with zeros (R47). -/
def shrFlags (a : Word) (n : Nat) : Word × Bool :=
  if n = 0 then (a, false)
  else if n ≤ 32 then (a >>> n, a.getLsbD (n - 1))
  else (0, false)

/-- SAR, filling with the sign (R47). -/
def sarFlags (a : Word) (n : Nat) : Word × Bool :=
  if n = 0 then (a, false)
  else if n ≤ 31 then (a.sshiftRight n, a.getLsbD (n - 1))
  else (if a.msb then BitVec.allOnes 32 else 0, a.msb)

/-- ROL by the count mod 32 (R47). -/
def rolFlags (a : Word) (n : Nat) : Word × Bool :=
  let r := n % 32
  if r = 0 then (a, false) else (a.rotateLeft r, a.getLsbD (32 - r))

/-- Signed minimum. -/
def minWord (a b : Word) : Word := if a.toInt ≤ b.toInt then a else b

/-- Signed maximum. -/
def maxWord (a b : Word) : Word := if a.toInt ≤ b.toInt then b else a

/-- LIMIT: the lower bound first, then the upper bound, which wins (R47). -/
def limitWord (a lo hi : Word) : Word := minWord (maxWord a lo) hi

end Sys2Proof.Machine
end

