-- ==== Sys2Proof/Machine/MirrorOps.lean ====
section
/-! DEFINITION. Mirroring: records A and B, state images and chunks, what a lead sends of them, how a standby's lanes accept
them, and the shadow state of a twin task (R368 to R375). -/

namespace Sys2Proof.Machine
open Reg Hid

/-- What an image says of a task that it does not hold. -/
def TaskImage.none : TaskImage :=
  { root := 0, iBase := 0, iWords := 0, qBase := 0, qWords := 0, mBase := 0, mUnits := 0, nmax := 0, retained := [],
    flows := [] }

/-- What the image says of a task. -/
def LogicImage.task (im : LogicImage) (t : Nat) : TaskImage := Sparse.get im.tasks t TaskImage.none

/-! ### Slots and records (R368, R369) -/

/-- The image's entry of a task; an empty one where no image is loaded. -/
def State.taskImage (s : State) (t : Nat) : TaskImage := (s.image.map fun im => im.task t).getD TaskImage.none

/-- The bytes of a task's input slice. -/
def State.inBytes (s : State) (t : Nat) : Nat := 4 * s.get (TSK_ISLICE_LEN t)

/-- The bytes of record A of a task. -/
def State.sizeA (s : State) (t : Nat) : Nat := 68 + 12 * (s.taskImage t).flows.length + s.inBytes t

/-- The bytes that a mirror slot of a task takes (R368, R369). -/
def State.mirrorSlot (s : State) (t : Nat) : Nat := s.sizeA t + 36 + 8 * s.get TW_MIRROR_DMAX

/-- A slot of a task by the furlong of its action instant, as an offset in the TWIN window (R368). -/
def State.slotOff (s : State) (t : Nat) : Nat :=
  0x10000 + s.get (TW_TSLOT_OFFSET t) + (s.get (LAST_F t) % 2) * s.mirrorSlot t

/-- Closes a record of the twin with its code, seeded with TW_SCID (R369). -/
def State.closed (s : State) (b : List Byte) : List Byte := b ++ leBytes 4 (crc32cFrom (s.get TW_SCID_SCID) b)

/-- The flow entry of record A: number, ages, flags, and the sequence of the agreed copy of a safety flow (R369). -/
def State.flowRecord (s : State) (t f : Nat) : List Byte :=
  let x := s.flowSeen t f
  let n := median3 (s.get (FLL_SEQ 0 f)) (s.get (FLL_SEQ 1 f)) (s.get (FLL_SEQ 2 f))
  leBytes 2 f ++ leBytes 1 x.rxAge ++ leBytes 1 x.sndAge ++ leBytes 1 (bit x.stale + 2 * bit x.rep) ++ leBytes 3 0 ++
    leBytes 4 (n - 1)

/-- The SYS block of record A: WA of the functions 0x00 to 0x07 (R369). -/
def SysLatch.bytes (y : SysLatch) : List Byte := y.words.flatMap fun w => leBytes 4 w.toNat

/-- Record A of a task (R369). -/
def State.recordA (s : State) (t : Nat) : List Byte :=
  let fs := (s.taskImage t).flows
  s.closed (leBytes 4 0x54574D41 ++ leBytes 1 t ++ leBytes 1 0 ++ leBytes 2 fs.length ++ leBytes 8 (s.get (LAST_F t)) ++
    leBytes 4 (s.get (TW_MSEQ t)) ++ leBytes 4 (s.inBytes t) ++ (s.sys t).bytes ++ leBytes 8 0 ++
    fs.flatMap (s.flowRecord t) ++ s.bytes (agreedImg + s.get (TSK_ISLICE_BASE t)) (s.inBytes t))

/-! ### A task's state: regions and deltas (R369, R374) -/

/-- The edge bits of a task that lie in a word of edge memory, as a mask. -/
def State.edgeMask (s : State) (t w : Nat) : Nat :=
  match s.image with
  | none => 0
  | some im => (im.edges.filter fun d => d.task == t && d.idx / 32 == w).foldl (fun m d => m ||| 2 ^ (d.idx % 32)) 0

/-- The words of edge memory that hold edge bits of a task. -/
def State.edgeWords (s : State) (t : Nat) : List Nat :=
  match s.image with
  | none => []
  | some im => (upto 512).filter fun w => im.edges.any fun d => d.task == t && d.idx / 32 == w

/-- The instances of a task of one kind, in index order. -/
def instOf (ds : List InstDecl) (t : Nat) : List Nat :=
  (upto 4096).filter fun i => ds.any fun d => d.task == t && d.idx == i

/-- Where a region of a task's state lies in a lane: 0 data window, 1 timers, 2 counters, 3 edge bits (R369). -/
def State.regionBase (s : State) (t : Nat) (l : Lane) (r : Nat) : Nat :=
  match r with
  | 0 => dataBase l + 64 * s.get (TSK_MWIN_BASE t)
  | 1 => timerBase l
  | 2 => counterBase l
  | _ => edgeBase l

/-- Where the words of a region lay as the scan began (R369). -/
def State.beforeBase (s : State) (t : Nat) (l : Lane) (r : Nat) : Nat :=
  match r with
  | 0 => twinBefore l + 64 * s.get (TSK_MWIN_BASE t)
  | 1 => twinBefore l + 0x80000
  | 2 => twinBefore l + 0x90000
  | _ => twinBefore l + 0xA0000

/-- The words of a task's state as region and offset. -/
def State.stateWords (s : State) (t : Nat) : List (Nat × Nat) :=
  let inst := fun (r : Nat) (is : List Nat) => is.flatMap fun i => (upto 4).map fun j => (r, 16 * i + 4 * j)
  (upto (16 * s.get (TSK_MWIN_LEN t))).map (fun i => (0, 4 * i)) ++
    inst 1 (instOf ((s.image.map LogicImage.timers).getD []) t) ++
    inst 2 (instOf ((s.image.map LogicImage.counters).getD []) t) ++ (s.edgeWords t).map fun w => (3, 4 * w)

/-- A word of a region with only the bits that belong to the task: an edge word may hold bits of other tasks. -/
def State.ownBits (s : State) (t r off : Nat) (w : Word) : Word :=
  if r = 3 then w &&& BitVec.ofNat 32 (s.edgeMask t (off / 4)) else w

/-- A scan of a twin task begins in a lane: its state is kept, so that what the scan changes can be told (R369). -/
def State.keepBefore (s : State) (t : Nat) (l : Lane) : State :=
  s.each (s.stateWords t) fun s p =>
    let w := s.ownBits t p.1 p.2 (s.word (s.regionBase t l p.1 + p.2))
    let rest := if p.1 = 3 then
        s.word (s.beforeBase t l p.1 + p.2) &&& ~~~(BitVec.ofNat 32 (s.edgeMask t (p.2 / 4))) else 0
    s.setWord (s.beforeBase t l p.1 + p.2) (w ||| rest)

/-- The words that a scan changed in a lane, with their values after it (R369). -/
def State.deltas (s : State) (t : Nat) (l : Lane) : List (Nat × Nat × Word) :=
  (s.stateWords t).filterMap fun p =>
    let w := s.word (s.regionBase t l p.1 + p.2)
    let b := s.word (s.beforeBase t l p.1 + p.2)
    if s.ownBits t p.1 p.2 w = s.ownBits t p.1 p.2 b then none else some (p.1, p.2, w)

/-- Puts a word of a task's state into a lane; of an edge word only the task's own bits. -/
def State.putState (s : State) (t : Nat) (l : Lane) (r off : Nat) (w : Word) : State :=
  let a := s.regionBase t l r + off
  if r = 3 then
    let m := BitVec.ofNat 32 (s.edgeMask t (off / 4))
    s.setWord a ((s.word a &&& ~~~m) ||| (w &&& m))
  else s.setWord a w

/-- Record B of a task with some deltas; more than DMAX of them are left out under OVERFLOW (R369). -/
def State.recordB (s : State) (t : Nat) (voted : List Word) (ds : List (Nat × Nat × Word)) : List Byte :=
  let tooMany := decide (s.get TW_MIRROR_DMAX < ds.length)
  let ds := if tooMany then [] else ds
  s.closed (leBytes 4 0x54574D42 ++ leBytes 1 t ++ leBytes 1 (bit tooMany) ++ leBytes 2 0 ++ leBytes 8 (s.get (LAST_F t)) ++
    leBytes 4 (s.get (TW_MSEQ t)) ++ leBytes 4 (Config.sliceSignature voted).toNat ++ leBytes 4 ds.length ++ leBytes 4 0 ++
    ds.flatMap fun d => leBytes 4 (d.2.1 + 2 ^ 20 * d.1) ++ leBytes 4 d.2.2.toNat)

/-- A task's state image in a lane: window, output slice, timers, counters, edge words (R374). -/
def State.stateImage (s : State) (t : Nat) (l : Lane) : List Byte :=
  let ws := s.stateWords t
  let part := fun (r : Nat) => (ws.filter fun p => p.1 == r).flatMap fun p => s.bytes (s.regionBase t l r + p.2) 4
  part 0 ++ s.bytes (outBase l + s.get (TSK_QSLICE_BASE t)) (4 * s.get (TSK_QSLICE_LEN t)) ++ part 1 ++ part 2 ++ part 3

/-- Where the words of a state image lie in a lane, in its order; none for region is the output slice. -/
def State.imagePlaces (s : State) (t : Nat) : List (Option Nat × Nat) :=
  let ws := s.stateWords t
  let part := fun (r : Nat) => (ws.filter fun p => p.1 == r).map fun p => (some r, p.2)
  part 0 ++ (upto (s.get (TSK_QSLICE_LEN t))).map (fun i => (none, 4 * i)) ++ part 1 ++ part 2 ++ part 3

/-! ### What a lead sends (R23, R369, R374) -/

/-- The lead mirrors a task: RUN, the block running, the unit still taking part. -/
def State.mirrors (s : State) (t : Nat) : Bool :=
  s.twinTask t && s.role == .lead && s.prog == .run && !s.blk 5 && !s.on TW_OUTF

/-- The next mirror sequence of a task. -/
def State.nextMirror (s : State) (t : Nat) : State := s.set (TW_MSEQ t) (nextSeq (s.get (TW_MSEQ t)))

/-- What two of some lanes present identically (R23). -/
def agreedBytes {α : Type} [BEq α] (xs : List α) : Option α :=
  match xs with
  | [x, y, z] => if x == y || x == z then some x else if y == z then some y else none
  | [x, y] => if x == y then some x else none
  | _ => none

/-- Record A leaves once input agreement is complete (R369). -/
def State.sendRecordA (s : State) (t : Nat) : State :=
  if s.mirrors t && s.twoLanes then
    let s := s.nextMirror t
    s.twinSend (0x100000 + s.slotOff t) (s.recordA t)
  else s

/-- Record B leaves once the balance is complete, from the lanes `ls` that have ended their scans (R369). -/
def State.sendRecordB (s : State) (t : Nat) (ls : List Lane) (voted : List Word) : State :=
  match agreedBytes (ls.map fun l => s.deltas t l) with
  | some ds =>
    let s := s.nextMirror t
    s.twinSend (0x100000 + s.slotOff t + s.sizeA t) (s.recordB t voted ds)
  | none => s

/-- The requested task that the lead serves now (R374). -/
def State.serving (s : State) : Option Nat := s.twinTasks.find? fun t => s.on (TW_XREQ t)

/-- A chunk of a task's state image from an offset (R374). -/
def State.chunk (s : State) (t off : Nat) (last : Bool) (data : List Byte) : List Byte :=
  s.closed (leBytes 4 0x54575343 ++ leBytes 1 t ++ leBytes 1 (bit last) ++ leBytes 2 0 ++ leBytes 8 (s.get (LAST_F t)) ++
    leBytes 4 (s.get (TW_MSEQ t)) ++ leBytes 4 off ++ leBytes 4 data.length ++ leBytes 4 0 ++ data)

/-- One chunk of the state that the standby has asked for, after the task's balance; none while an update session of the
twin is open, on either side of it (R374, R404). -/
def State.sendChunk (s : State) (t : Nat) (ls : List Lane) : State :=
  if s.serving == some t && s.get UPD_SESSION_HOLDER != 3 && !s.on REL_ON then
    match agreedBytes (ls.map fun l => s.stateImage t l) with
    | some img =>
      let off := s.get (TW_XFER t)
      let data := (img.drop off).take 16384
      let last := decide (img.length ≤ off + 16384)
      let s := s.nextMirror t
      let s := s.twinSend 0x160000 (s.chunk t off last data)
      if last then (s.set (TW_XREQ t) 0).set (TW_XFER t) 0 else s.set (TW_XFER t) (off + 16384)
    | none => s
  else s

/-! ### The shadow state of a task (R372 to R375) -/

/-- Shows a task's shadow state: 0 none, 1 RESYNC, 2 probation, 3 shadowing (R376, R377). -/
def State.setShadow (s : State) (t v : Nat) : State :=
  let s := (s.set (TW_TSTAT_SHADOW t) v).put (TW_SYNC_RESYNC t) (v == 1)
  (s.put (TW_SYNC_PROB t) (v == 2)).set (TW_TSTAT_PROB t) (if v = 2 then 64 else 0)

/-- Both units are in RUN, as far as this one knows (R373). -/
def State.bothRun (s : State) : Bool :=
  s.prog == .run && match s.twinLink with
    | some k => s.get (BR_PALERT_WORD k) / 256 % 4 == 1
    | none => true

/-- A standby's lanes ask for the state of some tasks; their transfers begin here (R373, R374, R404). -/
def State.requestState (s : State) (ts : List Nat) : State :=
  if ts.isEmpty || s.role != .standby || s.prog != .run || s.get UPD_SESSION_HOLDER == 3 || s.on REL_ON || s.blk 5 || !s.twoLanes then s
  else
    let s := s.set TW_QSEQ (nextSeq (s.get TW_QSEQ))
    let m := ts.foldl (fun m t => m ||| 2 ^ t) 0
    let s := s.twinSend 0x100040 (s.closed (leBytes 4 0x54575251 ++ leBytes 2 m ++ leBytes 2 0 ++ leBytes 4 (s.get TW_QSEQ)))
    s.each ts fun s t =>
      let s := ((s.set (TW_RXON t) 1).set (TW_RXAT t) s.now).set (TW_RXOFF t) 0
      ((s.set (TW_RXN t) 0).set (TW_LASTC t) 0).set (TW_CHLEN t) 0

/-- A probation that restarts a third time in a row makes the unit unfit (R375). -/
def State.probationFails (s : State) (t : Nat) : State :=
  if s.get (TW_TSTAT_SHADOW t) = 2 then
    let n := min 3 (s.get (TW_TSTAT_RESTARTS t) + 1)
    let s := s.set (TW_TSTAT_RESTARTS t) n
    if n = 3 ∧ s.on TW_UNFIT = false then ((s.set TW_UNFIT 1).raise TW_EVT_UNFIT TW_EVCNT_FAULT_CNT).ev 0x8014 0 t else s
  else s

/-- A twin task of a standby enters RESYNC for a cause of R372; one that is there already starts its transfer again (R372,
R374, R375). -/
def State.resync (s : State) (t cause off : Nat) : State :=
  if s.get (TW_TSTAT_SHADOW t) = 1 then
    if s.on (TW_RXON t) then s.requestState [t] else s
  else
    let s := (((s.probationFails t).setShadow t 1).set TW_STAT_FIT 0).inc (TW_TMIS_MIS t)
    let s := (s.raise TW_EVT_MISMATCH TW_EVCNT_FAULT_CNT).ev 0x8010 0 t cause (off % 65536)
    ((s.abandonScan t).set (TW_RA t) 0).requestState [t]

/-- The standby becomes FIT when every twin task has completed probation (R375). -/
def State.checkFit (s : State) : State :=
  if s.role == .standby && !s.on TW_STAT_FIT && !s.on TW_UNFIT && s.twinTasks.all fun t => s.get (TW_TSTAT_SHADOW t) == 3 then
    (s.set TW_STAT_FIT 1).ev 0x8013 0 (s.twinTasks.foldl (fun m t => m ||| 2 ^ t) 0)
  else s

/-- A shadowed period has been compared and found equal (R375). -/
def State.periodEqual (s : State) (t : Nat) : State :=
  if s.get (TW_TSTAT_SHADOW t) = 2 then
    let n := s.get (TW_TSTAT_PROB t) - 1
    if n = 0 then ((s.setShadow t 3).set (TW_TSTAT_RESTARTS t) 0).checkFit else s.set (TW_TSTAT_PROB t) n
  else s

/-- A twin task of an uncommitted standby that shadows in RUN (R371). -/
def State.shadows (s : State) (t : Nat) : Bool :=
  s.twinTask t && s.role == .standby && !s.on TW_STAT_COMMIT && s.prog == .run && decide (2 ≤ s.get (TW_TSTAT_SHADOW t))

/-- A twin task that this unit does not scan by itself: a standby's, until it has committed (R362, R371). -/
def State.ledElsewhere (s : State) (t : Nat) : Bool := s.twinTask t && s.role == .standby && !s.on TW_STAT_COMMIT

/-- The deltas of the record B in a task's slot, as word 0 and word 1. -/
def State.deltasIn (s : State) (t : Nat) : List (Nat × Word) :=
  let a := twinWin (s.slotOff t + s.sizeA t)
  (upto (min (s.rd (a + 24) 4) (s.get TW_MIRROR_DMAX))).map fun i => (s.rd (a + 32 + 8 * i) 4, s.word (a + 36 + 8 * i))

/-- The first delta of record B that differs from what the shadow scan left in a lane (R371). -/
def State.deltaDiffers (s : State) (t : Nat) (l : Lane) : Option Nat :=
  ((s.deltasIn t).find? fun d =>
    let r := d.1 / 2 ^ 20 % 4
    let off := d.1 % 2 ^ 20
    s.ownBits t r off (s.word (s.regionBase t l r + off)) != s.ownBits t r off d.2).map fun d => d.1 % 2 ^ 20

/-- Once record B and the shadow balance of the period are there, they are compared (R371, R372). -/
def State.compareB (s : State) (t : Nat) : State :=
  if s.shadows t && !s.on (TW_BCMP t) && !s.on (SCANNING t) && s.get (TW_RA t) == s.get (LAST_F t) + 1 &&
      s.get (TW_RB t) == s.get (LAST_F t) + 1 then
    let s := s.set (TW_BCMP t) 1
    let a := twinWin (s.slotOff t + s.sizeA t)
    let l := (((s.bal t).seen.find? fun q => some q.2 == (s.bal t).voted).map (·.1)).getD .la
    let sig := Config.sliceSignature (s.words (votedImg + s.get (TSK_QSLICE_BASE t)) (s.get (TSK_QSLICE_LEN t)))
    if (s.rd (a + 5) 1).testBit 0 then s.resync t 2 0
    else if s.rd (a + 20) 4 ≠ sig.toNat then s.resync t 0 0
    else match s.deltaDiffers t l with
      | some off => s.resync t 1 (off / 4)
      | none => s.periodEqual t
  else s

/-- A balance is complete: a lead sends record B and a chunk, a standby compares (R369, R371, R374). -/
def State.mirrorBalance (s : State) (t : Nat) (ls : List Lane) (voted : List Word) : State :=
  if s.mirrors t then (s.sendRecordB t ls voted).sendChunk t ls else s.compareB t

end Sys2Proof.Machine
end

