-- ==== Sys2Proof/Machine/VoteOps.lean ====
section
/-! DEFINITION. The balance: when presentations agree, what a voted image does, and how a lane that disagrees is
attributed (R67, R86 to R89, R95, R110, R126). -/

namespace Sys2Proof.Machine
open Reg Hid

/-- Two presentations agree: equal images with equal summaries, or two trips; "illegal" agrees with nothing (R86). -/
def Pres.agrees : Pres → Pres → Bool
  | .image a p, .image b q => a == b && p == q
  | .trip, .trip => true
  | _, _ => false

/-- The kind of a presentation in event 0x1002. -/
def Pres.kind : Pres → Nat
  | .image _ _ => 0
  | .trip => 1
  | .illegal => 2

/-- Byte offset of the first word on which two images differ; 0 where a marker is compared, and where the images differ in the
summary alone (the model's choice, log 82). -/
def firstDiff : Pres → Pres → Nat
  | .image a _, .image b _ => 4 * (((a.zip b).findIdx? fun p => p.1 != p.2).getD 0)
  | _, _ => 0

/-- A task's output slice in a lane (R66). -/
def State.outSlice (s : State) (l : Lane) (t : Nat) : List Word :=
  s.words (outBase l + s.get (TSK_QSLICE_BASE t)) (s.get (TSK_QSLICE_LEN t))

/-- A lane is still inside its scan of the task. -/
def State.inScan (s : State) (l : Lane) (t : Nat) : Bool :=
  match (s.ctx l t).phase with
  | .ready | .running | .preempted | .halted => true
  | _ => false

/-- Overwrites a lane's output slice with the voted image (R67). -/
def State.takeVoted (s : State) (l : Lane) (t : Nat) : State :=
  s.copy (votedImg + s.get (TSK_QSLICE_BASE t)) (outBase l + s.get (TSK_QSLICE_BASE t))
    (4 * s.get (TSK_QSLICE_LEN t))

/-- The retained words of a task, as data-memory addresses (R126). -/
def State.retainedOf (s : State) (t : Nat) : List Nat :=
  match s.image with
  | some im => ((im.tasks.find? fun p => p.1 == t).map fun p => p.2.retained).getD []
  | none => []

/-- Copies a task's retained words from the state of lane `src` into every voting lane's committed copy, unless
PFAIL_N has frozen the copies (R126, R127). -/
def State.commitRetained (s : State) (src : Lane) (t : Nat) : State :=
  if s.on SNAP_FROZEN then s
  else s.each (Lane.all.filter fun l => s.votes l t) fun s l =>
    s.each (s.retainedOf t) fun s a => s.setWord (commitBase l + a) (s.word (dataBase src + a))

/-- The sequence number of a snapshot slot (R127). -/
def State.slotSeq (s : State) (i : Nat) : Nat := s.rd (snapSlot i + 4) 4

/-- A snapshot write starts, into the slot with the older sequence number; while one is running it follows that (R127). -/
def State.startSnapshot (s : State) : State :=
  if s.on SNAP_BUSY then s.set SNAP_AGAIN 1
  else (s.set SNAP_BUSY 1).put SNAP_SLOT (decide (s.slotSeq 1 < s.slotSeq 0))

/-- A task's balance on the code after an on-line change; with the last enabled task's the change is complete and a
snapshot is written (R127, R136, R146). -/
def State.olcBalanced (s : State) (t : Nat) : State :=
  if s.on OLC_DONE || s.on (CL_PEND t) then s
  else
    let s := s.set (OLC_BAL t) 1
    if tasks.all fun u => !s.enabled u || s.on (OLC_BAL u) then
      let s := (s.set OLC_DONE 1).ev 0x2041 0 (s.get OLC_F % 2 ^ 32) (s.get OLC_CARRY) (s.get OLC_INIT) (s.get OLC_DROP)
      s.startSnapshot
    else s

/-- What the completion of a balance with an image does: the voted image is kept, every lane that is not inside its
scan takes it, the retained words are committed, and the scan's weight and slack are recorded (R67, R77, R126). -/
def State.balanceDone (s : State) (t : Nat) (src : Lane) (ws : List Word) : State :=
  let s := s.setWords (votedImg + s.get (TSK_QSLICE_BASE t)) ws
  let ls := if s.isTriple t then Lane.all.filter fun l => s.votes l t && !s.inScan l t else [src]
  let s := s.each ls fun s l => s.takeVoted l t
  let w := (s.ctx src t).weight
  let s := (s.commitRetained src t).set (TSK_LAST_N_N t) w
  let s := s.set (TSK_MAX_N_N t) (max w (s.get (TSK_MAX_N_N t)))
  let slack := (s.get (NEXT_A t) - 8 * grainsUs - s.now) / grainsUs
  let s := s.set (TSK_MARGIN_MIN_SLACK t) (min slack (s.get (TSK_MARGIN_MIN_SLACK t)))
  (((s.set (SCANNING t) 0).set (SNAPW t) 1).olcBalanced t).mirrorBalance t ls ws

/-- Lanes that agreed in a completed balance: a lane leaves START for VOTE, and a lane in SEEDING or PROBATION counts
one period of its probation in the task (R99, R104). -/
def State.agreed (s : State) (t : Nat) (ls : List Lane) : State :=
  s.each ls fun s l =>
    match s.lane l with
    | .start => s.setLane l .vote
    | .seeding | .probation => s.set (PROB_N l.idx t) (min 16 (s.get (PROB_N l.idx t) + 1))
    | _ => s

/-- Records the outcome of a balance in BAL_LAST (R117). -/
def State.balLast (s : State) (t outcome minority : Nat) : State :=
  let s := ((s.set BAL_LAST_TASK t).set BAL_LAST_OUTCOME outcome).set BAL_LAST_MINORITY minority
  (s.set (BAL_OUT t) outcome).set (BAL_MIN t) minority

/-- Copies a task's window, output slice and instances from one lane to another over the exchange: what the first holds at
the command that moves the bytes (R102, R110, log 94). -/
def State.seedTask (s : State) (src dst : Lane) (t : Nat) : State :=
  let s := s.copy (dataBase src + 64 * s.get (TSK_MWIN_BASE t)) (dataBase dst + 64 * s.get (TSK_MWIN_BASE t))
    (64 * s.get (TSK_MWIN_LEN t))
  let s := s.copy (outBase src + s.get (TSK_QSLICE_BASE t)) (outBase dst + s.get (TSK_QSLICE_BASE t))
    (4 * s.get (TSK_QSLICE_LEN t))
  match s.image with
  | none => s
  | some im =>
    let s := s.each (im.timers.filter fun d => d.task == t) fun s d =>
      s.copy (timerBase src + 16 * d.idx) (timerBase dst + 16 * d.idx) 16
    let s := s.each (im.counters.filter fun d => d.task == t) fun s d =>
      s.copy (counterBase src + 16 * d.idx) (counterBase dst + 16 * d.idx) 16
    s.each (im.edges.filter fun d => d.task == t) fun s d =>
      let a := d.idx / 8
      let b := (s.byte (edgeBase src + a)).getLsbD (d.idx % 8)
      let x := s.byte (edgeBase dst + a)
      s.setByte (edgeBase dst + a) (if b then x ||| (1#8 <<< (d.idx % 8)) else x &&& ~~~(1#8 <<< (d.idx % 8)))

/-- A lane left in the minority by the balance of a task: during the probation of a task that has become TRIPLE it is
seeded again from lane `src`, at the fourth such scan it enters assay with cause 11; otherwise it enters assay with the
given cause (R87, R100, R110). -/
def State.minority (s : State) (t : Nat) (l src : Lane) (cause : Nat) : State :=
  let p := s.get (MODE_PROB t)
  if p = 0 then s.trigger l cause t
  else if p < 4 then (s.seedTask src l t).set (MODE_PROB t) (p + 1)
  else (s.set (MODE_PROB t) 0).trigger l 11 t

/-- Lane dissent of a lane that presented neither the voted image nor, where two lanes trip, the trip; the outcome of the
latter stays trip by majority, and it takes no lane out of START (R87, R99, R117). -/
def State.laneDissent (s : State) (t : Nat) (l src : Lane) (p voted : Pres) : State :=
  let s := s.raise (LN_EVT_DISSENT l.idx) (LN_CNT_DISSENT_CNT l.idx)
  let s := (s.balLast t (if voted.kind = 0 then 3 else 7) l.code).ev 0x1002 l.code (firstDiff voted p) t p.kind
  if voted.kind != 0 && s.lane l == .start then s else s.minority t l src 1

/-- Majority after disagreement: the lane that agreed with neither of the two (R87). -/
def State.majorityAfter (s : State) (t : Nat) (l src : Lane) (p voted : Pres) : State :=
  let s := s.raise (LN_EVT_DISSENT l.idx) (LN_CNT_DISSENT_CNT l.idx)
  let s := (s.balLast t 4 l.code).ev 0x1005 l.code (firstDiff voted p) t
  s.minority t l src 3

/-- An image with one word inverted, as a vote exercise inverts it (R95). -/
def Pres.inverted (k : Nat) : Pres → Pres
  | .image ws p => .image (ws.modify k fun w => ~~~w) p
  | p => p

/-- The first lane in a task's vote that has not presented, or, while the task is halted, has not reported (R132). -/
def State.awaited (s : State) (t : Nat) : Option Lane :=
  if s.halted t then (s.voters t).find? fun l => !s.on (HALT_REP t l.idx)
  else (s.voters t).find? fun l => !(s.bal t).seen.any fun q => q.1 == l

/-- Two halt reports that disagree with no agreeing third: no majority and loss of a second lane, as for two disagreeing
presentations with two lanes in the vote (R89, R132). -/
def State.haltNoMajority (s : State) (t : Nat) (l : Lane) (mask : Nat) : State :=
  let s := (s.raise DBG_EVT_HOLD_DISSENT DBG_EVCNT_FAULT_CNT).ev 0x2021 0 (s.ctx l t).pc t mask
  (s.noMajority t 1).enterSafe 1 s.outMask

/-- A lane of a task halted in agreement with another (R132). -/
def State.haltDefined (s : State) (t : Nat) : Bool := Lane.all.any fun l => s.on (DBG_HALT_LANES t l.idx)

/-- The late window of a task closes: a third lane in the vote that has not presented is a late lane, and its output slice takes
the voted image like every lane's. Where the lane awaited has left the vote, the other two have agreed as two. The balance of a
halted task stays open; where its two reports disagree, no third one has come to agree with either (R32, R67, R87, R89, R117, R132,
R133). -/
def State.closeLate (s : State) (t : Nat) : State :=
  let b := s.bal t
  let at_ := s.get (LATE_AT t)
  let s := s.set (LATE_AT t) 0
  match s.awaited t with
  | none => if s.halted t then s else s.balLast t 6 0
  | some l =>
    if s.halted t && !s.haltDefined t then s.haltNoMajority t l (laneMask fun m => (s.voters t).contains m) else
    let src := (b.seen.head?.map (·.1)).getD l
    let s := if s.halted t then s else (s.setBal t { b with closed := true }).set (CLOSED_AT t) at_
    let s := if b.voted.isSome && (b.voted.map Pres.kind) == some 0 then s.takeVoted l t else s
    let s := (s.raise (LN_EVT_LATE l.idx) (LN_CNT_LATE_CNT l.idx)).balLast t 2 l.code
    s.minority t l src 2

/-- A late window whose end has passed is closed before anything later of its task happens (R32). -/
def State.lateDue (s : State) (t : Nat) : State :=
  if s.on (LATE_AT t) && decide (s.get (LATE_AT t) < s.now) then s.closeLate t else s

/-- The instant at which the late window closes: its share of T after now, or the next A − 8 µs (R32). -/
def State.lateClose (s : State) (t : Nat) : Nat :=
  min (s.now + s.get (TSK_LATE_LATE_PCT t) * s.periodGrains t / 100) (s.get (NEXT_A t) - 8 * grainsUs)

end Sys2Proof.Machine
end

