-- ==== Sys2Proof/Machine/ScanOps.lean ====
section
/-! DEFINITION. How a scan instruction runs on a lane: which task executes, breakpoints, illegal words, trip
conditions and the end of a scan (R36 to R38, R44, R49, R69, R72, R74, R75, R132). -/

namespace Sys2Proof.Machine
open Reg Hid

/-- The task that a lane executes now (R69). -/
def State.running (s : State) (l : Lane) : Option Nat := tasks.find? fun t => (s.ctx l t).phase == .running

/-- A task that waits for the lane: agreed, or pre-empted (R69). -/
def State.waiting (s : State) (l : Lane) (t : Nat) : Bool :=
  match (s.ctx l t).phase with
  | .ready | .preempted => true
  | _ => false

/-- The lane takes up its waiting task of highest priority; a pre-empted one goes on exactly where it was (R38, R69). -/
def State.resume (s : State) (l : Lane) : State :=
  match s.running l with
  | some _ => s
  | none =>
    match s.byPriority.find? (s.waiting l) with
    | some t => s.setCtx l t { s.ctx l t with phase := .running }
    | none => s

/-- Ends a task's scan in a lane with a presentation and lets the next waiting task run (R69, R86). -/
def State.endWith (s : State) (l : Lane) (t : Nat) (p : Pres) : State :=
  ((s.setCtx l t { s.ctx l t with phase := .ended }).setPres l t (some p)).resume l

/-- A trip condition in a scan (R74): the scan ends, the event carries the lane, the flag is counted once a scan; a
TRIPLE task's lane presents "trip", a SINGLE task trips. -/
def State.scanTrip (s : State) (l : Lane) (t : Nat) (c : Ctx) (code b : Nat) (f : Fld) : State :=
  let s := s.ev code l.code (c.pc - 1) t b
  let s := if s.on (TRIP_SEEN t) then s else (s.raise f (TSK_EVCNT1_FAULT_CNT t)).set (TRIP_SEEN t) 1
  let s := (s.setCtx l t c).endWith l t .trip
  if s.isTriple t then s else s.set (TRIP_NEXT t) 1

/-- A lane decodes an illegal word (R75): it abandons the scan, sets its bit in SCN_EVT and presents "illegal"; a
SINGLE task trips and its lane enters assay with cause 12. -/
def State.illegal (s : State) (l : Lane) (t : Nat) (c : Ctx) (opc : Nat) : State :=
  let s := (s.raise (SCN_EVT_ILL l.idx) (SCN_ILLCNT_CNT l.idx)).ev 0x2008 l.code c.pc t opc
  let s := s.endWith l t .illegal
  if s.isTriple t then s else (s.set (TRIP_NEXT t) 1).trigger l 12 t

/-- A divide by zero counts once for the task, however many lanes meet it: a lane's n-th one of a scan counts if no
lane has met its n-th before (R45, log 20). -/
def State.divZero (s : State) (l : Lane) (t : Nat) (c : Ctx) : State :=
  if c.dzCount ≤ s.get (DZ_SEEN t) then s
  else ((s.raise (TSK_EVT_DZ t) (TSK_EVCNT1_DZ_CNT t)).set (DZ_SEEN t) c.dzCount).ev 0x2003 l.code (c.pc - 1) t

/-- The breakpoints of a task that stand at an index (R132, R145). -/
def State.bpsAt (s : State) (t pc : Nat) : List Nat :=
  (upto 8).filter fun i => s.on (DBG_BP_EN t i) && s.get (DBG_BP_INDEX t i) == pc

/-- The context with one more pass of each of the given breakpoints. -/
def Ctx.pass (c : Ctx) (bps : List Nat) : Ctx :=
  { c with passes := bps.foldl (fun m i => Sparse.set m i 0 (Sparse.get m i 0 + 1)) c.passes, passed := true }

/-- The breakpoint that halts the lane before the instruction at PC: in HOLD, at its pass count (R132). -/
def State.bpHit (s : State) (t : Nat) (c : Ctx) : Option Nat :=
  if s.prog == .hold && !c.passed then
    (s.bpsAt t c.pc).find? fun i => Sparse.get c.passes i 0 + 1 == max 1 (s.get (DBG_BP_COUNT t i))
  else none

/-- A lane halts in a task before the instruction at PC (R132). -/
def State.haltLane (s : State) (l : Lane) (t : Nat) (c : Ctx) (why : Nat) : State :=
  let s := s.setCtx l t { c with phase := .halted }
  (((s.set (HALT_WHY t) why).set (HALT_REP t l.idx) 0).set (DBG_TSTAT_HALTED t) 1).paceNote.resume l

/-- The context after fetching an instruction: PC on the next index, its weight counted. -/
def Ctx.step (c : Ctx) (w : Nat) : Ctx :=
  { c with pc := (c.pc + 1) % 262144, weight := c.weight + w, passed := false }

/-- Runs a scan instruction on a lane: nothing where the lane executes no task; a halt at a breakpoint; the illegal
word of R75 where its form or its operand is not one the task may use; else its effect, on the context after the
fetch. -/
def State.scan (s : State) (l : Lane) (i : Instr) (ok : State → Nat → Ctx → Bool)
    (eff : State → Nat → Ctx → State) : State :=
  match s.running l with
  | none => s
  | some t =>
    let c := s.ctx l t
    match s.bpHit t c with
    | some b => s.haltLane l t (c.pass (s.bpsAt t c.pc)) b
    | none =>
      let c := if s.prog == .hold && !c.passed then c.pass (s.bpsAt t c.pc) else c
      if i.wf && ok s t c then
        eff (s.add (PACE_W l.idx) i.weight) t (c.step i.weight)
      else s.illegal l t c i.opc

/-- An instruction that no operand check concerns. -/
def okAlways (_ : State) (_ : Nat) (_ : Ctx) : Bool := true

/-- An instruction whose only effect is on the context. -/
def State.scanCtx (s : State) (l : Lane) (i : Instr) (ok : State → Nat → Ctx → Bool)
    (f : State → Nat → Ctx → Ctx) : State :=
  s.scan l i ok fun s t c => s.setCtx l t (f s t c)

/-- The end of a scan by END, or by a return with an empty call stack; `b` says which in event 0x2005 (R44, R49). A
SINGLE task has no balance: its image is the voted one (R74). -/
def State.endScan (s : State) (l : Lane) (t : Nat) (c : Ctx) (b : Nat) : State :=
  if c.nest.isEmpty then
    let s := s.setCtx l t c
    let ws := s.outSlice l t
    let s := s.endWith l t (.image ws c.power)
    if s.isTriple t then s
    else
      let s := (s.setPres l t none).setBal t { Balance.empty with voted := some (.image ws 0) }
      s.balanceDone t l ws
  else s.scanTrip l t c 0x2005 b (TSK_EVT_NEST_IMBAL t)

/-- Combines a saved BA with the branch result (R42). -/
def NestOp.eval : NestOp → Bool → Bool → Bool
  | .and, a, b => a && b
  | .or, a, b => a || b
  | .xor, a, b => a != b

end Sys2Proof.Machine
end

