-- ==== Sys2Proof/Machine/PStateOps.lean ====
section
/-! DEFINITION. Program states, restarts and the retained snapshot: the operations that registers, the host ring and
start-up share (R119 to R131). -/

namespace Sys2Proof.Machine
open Reg Hid

/-! ### The retained snapshot (R126 to R128) -/

/-- Every retained word of the image, as data-memory addresses in task order. -/
def LogicImage.retainedWords (im : LogicImage) : List Nat := im.tasks.flatMap fun p => p.2.retained

/-- The retained words of the loaded image. -/
def State.retainedAll (s : State) : List Nat := match s.image with
  | some im => im.retainedWords
  | none => []

/-- The retained area as a lane's committed copy holds it. -/
def State.committed (s : State) (l : Lane) : List Word := s.retainedAll.map fun a => s.word (commitBase l + a)

/-- The bytes of words. -/
def wordBytes (ws : List Word) : List Byte := ws.flatMap fun w => leBytes 4 w.toNat

/-- The 28 header bytes that the header's CRC covers (R127). -/
def State.snapHeader (s : State) (i : Nat) (data : List Byte) : List Byte :=
  leBytes 4 0x52544E31 ++ leBytes 4 (s.slotSeq (1 - i) + 1) ++
    leBytes 8 ((s.image.map fun im => im.layoutHash).getD 0) ++ leBytes 4 data.length ++
    leBytes 4 (s.get REC_PCYC_COUNT) ++ leBytes 4 (crc32c data)

/-- Writes a snapshot slot: header and data (R127). -/
def State.writeSlot (s : State) (i : Nat) (l : Lane) : State :=
  let data := wordBytes (s.committed l)
  let h := s.snapHeader i data
  (s.setBytes (snapSlot i) (h ++ leBytes 4 (crc32c h))).setBytes (snapSlot i + 32) data

/-- The first test of R128 that a slot fails, 0 for none: 1 marker, 2 header CRC, 3 data CRC, 4 layout hash, 5 length. -/
def State.slotTest (s : State) (i : Nat) : Nat :=
  let h := s.bytes (snapSlot i) 28
  let len := s.rd (snapSlot i + 16) 4
  let hash := s.rd (snapSlot i + 8) 8
  if s.rd (snapSlot i) 4 ≠ 0x52544E31 then 1
  else if s.rd (snapSlot i + 28) 4 ≠ crc32c h then 2
  else if len > 65536 ∨ s.rd (snapSlot i + 24) 4 ≠ crc32c (s.bytes (snapSlot i + 32) len) then 3
  else match s.image with
    | none => 4
    | some im =>
      if hash ≠ im.layoutHash ∧ hash ≠ im.baseHash then 4
      else if len ≠ im.retainedLen then 5 else 0

/-- A slot that has never been written: its header is all zero (R128). -/
def State.slotEmpty (s : State) (i : Nat) : Bool := (s.bytes (snapSlot i) 32).all fun b => b == 0

/-- The valid slot with the higher sequence number (R128). -/
def State.bestSlot (s : State) : Option Nat :=
  let v := (upto 2).filter fun i => s.slotTest i == 0
  match v with
  | [0, 1] => some (if s.slotSeq 0 < s.slotSeq 1 then 1 else 0)
  | i :: _ => some i
  | [] => none

/-- Why a restart is cold where no slot is valid: first start, or the first failed test of the newer slot (R128, R144). -/
def State.coldReason (s : State) : Nat :=
  if s.slotEmpty 0 && s.slotEmpty 1 then 6
  else
    let i := if s.slotSeq 0 < s.slotSeq 1 then 1 else 0
    match s.slotTest i with
    | 4 => 4
    | 5 => 5
    | _ => 3

/-- Loads every lane's committed copy with initial values of the image. -/
def State.commitInitial (s : State) (im : LogicImage) : State :=
  s.each Lane.all fun s l => s.each im.retainedWords fun s a =>
    s.setWord (commitBase l + a) (BitVec.ofNat 32 (ofLe ((upto 4).map fun i => Sparse.get im.initData (a + i) 0)))

/-- Loads every lane's committed copy from a slot. -/
def State.commitSlot (s : State) (im : LogicImage) (i : Nat) : State :=
  s.each Lane.all fun s l => s.each (im.retainedWords.zipIdx) fun s p =>
    s.setWord (commitBase l + p.1) (s.word (snapSlot i + 32 + 4 * p.2))

/-- At start-up, activation and wake from DEEP SLEEP or OFF: the slots are tested, the committed copies loaded and the
restart kind chosen (R126, R128, R129). -/
def State.chooseRestart (s : State) : State :=
  match s.image with
  | none => s
  | some im =>
    let s := s.set SNAP_OP (s.opTime % 2 ^ 32)
    let t0 := s.slotTest 0
    let t1 := s.slotTest 1
    let s := s.set DBG_RSTAT_SLOT_VALID (bit (t0 == 0) + 2 * bit (t1 == 0))
    let s := if t0 ≠ 0 ∧ s.slotEmpty 0 = false then s.ev 0x2014 0 0 t0 else s
    let s := if t1 ≠ 0 ∧ s.slotEmpty 1 = false then s.ev 0x2014 0 1 t1 else s
    match s.on DBG_RCFG_COLD_ONLY, s.bestSlot with
    | false, some i =>
      (((s.commitSlot im i).set DBG_RSTAT_SLOT_USED i).set DBG_RSTAT_COLD_REASON 0).set RUN_KIND 1
    | co, _ =>
      let s := ((s.commitInitial im).set DBG_RSTAT_COLD_REASON (if co then 1 else s.coldReason)).set RUN_KIND 2
      if co then s else s.raise DBG_EVT_COLDFB DBG_EVCNT_FAULT_CNT

/-! ### Restarts (R125, R129, R130) -/

/-- Entry to RUN: the first one after start-up, or after the activation of a logic image or configuration set, takes the kind
chosen then, a request's COLD makes any restart cold, and otherwise the restart is warm (R129). Only that first entry is taken for a
device restart that LAST_KIND, COLD_REASON and event 0x2013 report (R144; the model's choice, log 91). -/
def State.enterRun (s : State) (cold : Bool) : State :=
  let s := s.set AUTO_DUE 0
  let f := s.get FIRST_RUN
  if f = 0 then s.restartAll (if cold then 2 else 1) 2
  else
    let kind := if cold then 2 else s.get RUN_KIND
    let s := if cold then s.set DBG_RSTAT_COLD_REASON 2 else s
    let s := (s.set DBG_RSTAT_LAST_KIND kind).ev 0x2013 0 (s.get DBG_RSTAT_COLD_REASON) kind (s.get DBG_RSTAT_SLOT_USED)
    (s.set FIRST_RUN 0).restartAll kind (f - 1)

/-! ### Program states (R123, R124) -/

/-- The program state changes, with event 0x2010 and its cause. -/
def State.setProg (s : State) (p : ProgState) (cause : Nat) : State :=
  let old := s.get DBG_PSTATE_STATE
  ((s.set DBG_PSTATE_STATE p.code).ev 0x2010 0 p.code old cause).paceNote

/-- A network-bound task waits until the node has entered IN SYNC, and 8 µs more (R259). -/
def State.netReady (s : State) (t : Nat) : Bool :=
  !s.on (TN_NETBOUND_TASKS t) || (s.on TN_SYNCST_NETSTARTED && decide (s.get NET_FROM ≤ s.now))

/-- A task that does not scan: tripped, stopped or halted, or network-bound and not started yet (R124). -/
def State.idleTask (s : State) (t : Nat) : Bool := s.tripped t || s.stopped t || s.halted t || !s.netReady t

/-- Abandons every scan that is halted mid-way (R123, R134). -/
def State.dropHalted (s : State) : State :=
  s.each (tasks.filter s.halted) fun s t =>
    ((s.abandonScan t).set (DBG_TSTAT_HALTED t) 0).set (DBG_HALT_HALTED t) 0

/-- Entry to STOP: scans end normally, halted ones are abandoned, safe values follow at each task's next staging, and a
snapshot is written (R123, R127). -/
def State.enterStop (s : State) (cause : Nat) : State :=
  let s := ((s.setProg .stop cause).dropHalted.startSnapshot).set PS_SNAP 1
  s.each tasks fun s t => (s.set (PS_REACHED t) 0).set (RESTART t) 0

/-- HOLD ends because the maintenance permit has become false or the unlock has lapsed (R123). -/
def State.holdLost (s : State) : State := if s.prog == .hold then s.enterStop 2 else s

/-- A kind's running image failed its digest at the start and no session has activated another one (R417). -/
def State.startBad (s : State) : Bool := (upto 4).any fun k => s.on (START_BAD k)

/-- Why a program-state request is refused, 0 for none, in the order of R124. -/
def State.psRefusal (s : State) (target : Nat) : Nat :=
  if s.safe then 6
  else if s.on PS_PEND then 5
  else
    let permit : Option Nat := match s.prog, ProgState.ofCode target with
      | .stop, .run => some 1
      | .run, .stop => some 1
      | .run, .hold => some 2
      | .hold, .run => some 2
      | .hold, .stop => some 0
      | _, _ => none
    match permit with
    | none => 4
    | some p =>
      if s.image.isNone || !s.on CFG_ON || s.on ACT_STEP || s.on FB_PEND || s.startBad then 7
      else if p = 1 ∧ s.standPermit = false then 1
      else if p = 2 ∧ s.maintPermit = false then 2
      else if target = 2 ∧ (s.on DBG_PSTATE_UNLOCK && s.on (DBG_PSTATE_SCOPE 0)) = false then 3
      else 0

/-- A pending request has taken effect once it has in every enabled task and its snapshot is written (R124). -/
def State.psSettle (s : State) : State :=
  if s.on PS_PEND && !s.on PS_SNAP && tasks.all fun t => !s.enabled t || s.on (PS_REACHED t) then
    ((s.set PS_PEND 0).set DBG_PSSTAT_OUTCOME 2).settle 0x78 (fun _ => true) stSuccess 0
  else s

/-- A program-state request, from DBG_PSREQ (source 0) or the host ring (1) (R123, R124). -/
def State.psRequest (s : State) (target : Nat) (cold : Bool) (src : Nat) : State :=
  let s := s.set DBG_PSSTAT_TARGET target
  let r := s.psRefusal target
  let s := s.set DBG_PSSTAT_REASON r
  if r ≠ 0 then
    ((s.set DBG_PSSTAT_OUTCOME 3).raise DBG_EVT_REFUSED DBG_EVCNT_REFUSED_CNT).ev 0x2011 0 r target src
  else
    let s := (((s.set DBG_PSSTAT_OUTCOME 1).set PS_PEND 1).put PS_COLD cold).olcAbort 3
    let s := s.each tasks fun s t => s.put (PS_REACHED t) (!s.enabled t)
    let s := match s.prog, ProgState.ofCode target with
      | .hold, .run => ((s.dropHalted).setProg .run 0).restartAll 1 3
      | _, .run => (s.setProg .run 0).enterRun cold
      | _, .hold => (s.setProg .hold 0).copy votedImg holdImg 65536
      | _, _ => s.enterStop 0
    s.psSettle

/-- A pending program-state request takes effect in a task (R124). -/
def State.psReached (s : State) (t : Nat) : State := (s.set (PS_REACHED t) 1).psSettle

/-- A task restart request, from DBG_TRESTART (source 0) or the host ring (1) (R130). -/
def State.taskRestart (s : State) (t : Nat) (cold : Bool) (src : Nat) : State :=
  let r := if s.safe then 6
    else if s.prog != .run then 4
    else if !s.enabled t || !s.tripped t then 12
    else if s.isSafety t && !s.standPermit then 1
    else 0
  let s := (s.set DBG_TRSTAT_TASK t).set DBG_TRSTAT_REASON r
  if r ≠ 0 then
    ((s.set DBG_TRSTAT_OUTCOME 3).raise DBG_EVT_REFUSED DBG_EVCNT_REFUSED_CNT).ev 0x2011 0 r t src
  else (s.set DBG_TRSTAT_OUTCOME 1).planRestart t (if cold then 2 else 1) 5 (s.now + 8 * grainsUs)

/-- The debug unlock is dropped (R131). -/
def State.unlockDrop (s : State) : State :=
  let s := s.each (upto 4) fun s b => s.set (DBG_PSTATE_SCOPE b) 0
  (s.set DBG_PSTATE_UNLOCK 0).set DBG_PSTATE_UNLOCK_S 0

/-- The debug unlock lapses: 0 time, 1 permit, 2 power (R131). -/
def State.unlockEnd (s : State) (why : Nat) : State :=
  if s.on DBG_PSTATE_UNLOCK then (s.unlockDrop.ev 0x2024 0 why).holdLost else s

/-- A debug request restarts the 600 s of the unlock (R131). -/
def State.debugRequest (s : State) : State := s.set UNLOCK_AT s.now

/-- An unlock that holds a scope: 0 HOLD, 1 non-safety forces, 2 safety forces, 3 un-retire (R131, R144). -/
def State.unlocked (s : State) (scope : Nat) : Bool := !s.blk 2 && s.on DBG_PSTATE_UNLOCK && s.on (DBG_PSTATE_SCOPE scope)

end Sys2Proof.Machine
end

