-- ==== Sys2Proof/Machine/ForceOps.lean ====
section
/-! DEFINITION. The force table: its entries, what makes a force a safety force, applying, setting and dropping forces
(R140 to R143). -/

namespace Sys2Proof.Machine
open Reg Hid

/-- A force: byte address, whether it acts on the voted output image, owning task, whether it is a safety force, value and
mask (R140). -/
structure Force where
  addr : Nat
  out : Bool
  owner : Nat
  safety : Bool
  value : Word
  mask : Word
  deriving DecidableEq, Repr

/-- The force held at a place of memory. -/
def State.forceAt (s : State) (a : Nat) : Force :=
  let w := s.rd a 4
  { addr := w % 65536, out := w.testBit 16, owner := w / 2 ^ 20 % 16, safety := w.testBit 24, value := s.word (a + 4),
    mask := s.word (a + 8) }

/-- The entries in use of a table whose entries lie at `place` (R140). -/
def State.forces (s : State) (place : Nat → Nat) : List Nat :=
  if (Sparse.range s.mem (place 0) 4096).isEmpty then []
  else (upto 256).filter fun i => (s.forceAt (place i)).mask != 0

/-- The space of a force. -/
def Force.space (f : Force) : Space := if f.out then .Q else .I

/-- The task in whose slice a word lies. -/
def State.sliceOwner (s : State) (sp : Space) (a : Nat) : Option Nat := tasks.find? fun t => s.owns t sp a 4

/-- The words of a channel's input entry (R168). -/
def State.entryWords (s : State) (c : Nat) : Nat :=
  match s.get (FC_CFG_MODE c) with
  | 3 => 2
  | 4 => 4
  | _ => 1

/-- A word lies in the entry of `n` bytes from `off`. -/
def inEntry (a off n : Nat) : Bool := decide (off ≤ a) && decide (a < off + n)

/-- A word of a slice is bound to a safety channel, safety flow or safety CAN object (R142). -/
def State.boundSafety (s : State) (sp : Space) (a : Nat) : Bool :=
  ((upto 64).any fun c => s.on (FC_CFG_SAFETY c) &&
    match sp with
    | .I => s.on (FC_IBIND_EN c) && inEntry a (s.get (FC_IBIND_OFFSET c)) (4 * s.entryWords c)
    | _ => s.on (FC_QBIND_EN c) && inEntry a (s.get (FC_QBIND_OFFSET c)) 4) ||
  (s.flows.any fun f =>
    let x := s.flow f
    let inI := x.dir == 2 || x.space == 1
    x.safety && x.en && (inI == (sp == .I)) && inEntry a x.off (4 * ceilDiv x.len 4)) ||
  (cans.any fun n => (upto 128).any fun k =>
    let o := s.canObj n k
    o.safety && o.dir != 0 &&
      match sp with
      | .I => (o.dir == 2 && o.en && inEntry a o.off (12 + 4 * ceilDiv o.len 4)) || (o.dir == 1 && o.sen && inEntry a o.soff 8)
      | _ => o.dir == 1 && o.en && !o.host && inEntry a o.off (4 + 4 * ceilDiv o.len 4))

/-- A force on a word would be a safety force (R142). -/
def State.forceSafety (s : State) (sp : Space) (a owner : Nat) : Bool := s.isSafety owner || s.boundSafety sp a

/-- The CRC-32C of the force table as it stands (R140). -/
def State.forceSum (s : State) : Nat := crc32c (s.bytes (forceEntry 0) 4096)

/-- The CRC-32C that the table carries does not match it. A table without a force has none to apply, and is not judged
(R140, log 42). -/
def State.forceBad (s : State) : Bool := !(s.forces forceEntry).isEmpty && decide (s.rd forceCrc 4 ≠ s.forceSum)

/-- The table has changed: it carries its CRC, and shows how many entries are in use and whether one is a safety force (R140,
R144). -/
def State.showForces (s : State) : State :=
  let fs := s.forces forceEntry
  let s := if fs.isEmpty then s.zero forceCrc 4 else s.wr forceCrc 4 s.forceSum
  (s.set DBG_FSTAT_USED fs.length).put DBG_FSTAT_SAFETY_ANY (fs.any fun i => (s.forceAt (forceEntry i)).safety)

/-- Takes an entry out of the table with an event (R140, R301). -/
def State.removeForce (s : State) (i : Nat) : State :=
  let w := s.rd (forceEntry i) 4
  ((s.zero (forceEntry i) 16).ev 0x2031 0 w i).showForces

/-- Drops an entry: 1 address gone, 2 permit false, 3 reclassified (R142, R143). -/
def State.dropForce (s : State) (i reason : Nat) : State :=
  let w := s.rd (forceEntry i) 4
  let s := (s.zero (forceEntry i) 16).zero (forceLive i) 16
  ((s.raise DBG_EVT_FORCE_DROP DBG_EVCNT_FAULT_CNT).ev 0x2032 0 w i reason).showForces

/-- At a task's staging the table's entries for it become the ones that act from the action instant on (R141). -/
def State.takeForces (s : State) (t : Nat) : State :=
  let gone := (s.forces forceLive).filter fun i => (s.forceAt (forceLive i)).owner == t
  let s := s.each gone fun s i => s.zero (forceLive i) 16
  s.each ((s.forces forceEntry).filter fun i => (s.forceAt (forceEntry i)).owner == t) fun s i =>
    s.copy (forceEntry i) (forceLive i) 16

/-- The forced bits of a word replace it (R141). -/
def Force.apply (f : Force) (w : Word) : Word := (w &&& ~~~f.mask) ||| (f.value &&& f.mask)

/-- Applies a task's forces on an image that lies at `base` (R141). -/
def State.applyForces (s : State) (t : Nat) (out : Bool) (base : Nat) : State :=
  s.each ((s.forces forceLive).filter fun i =>
      (s.forceAt (forceLive i)).owner == t && (s.forceAt (forceLive i)).out == out) fun s i =>
    let f := s.forceAt (forceLive i)
    s.setWord (base + f.addr) (f.apply (s.word (base + f.addr)))

/-- The maintenance permit becomes false: every safety force of the table is to be removed (R142). -/
def State.loseForces (s : State) : State :=
  s.each ((s.forces forceEntry).filter fun i => (s.forceAt (forceEntry i)).safety) fun s i => s.set (FORCE_LOST i) 1

/-- The entries in use of a task that are safety forces to be removed: the maintenance permit is false, or has been false since
they were set (R142). -/
def State.lostForces (s : State) (t : Nat) : List Nat :=
  (s.forces forceEntry).filter fun i =>
    (s.forceAt (forceEntry i)).owner == t && (s.forceAt (forceEntry i)).safety && (!s.maintPermit || s.on (FORCE_LOST i))

/-- The bits that an output force replaced in the staged image are as the image had them (R141, R142). -/
def State.unstageForce (s : State) (i : Nat) : State :=
  let f := s.forceAt (forceEntry i)
  if f.out then
    s.setWord (stagedImg + f.addr) ((s.word (stagedImg + f.addr) &&& ~~~f.mask) ||| (s.word (unforcedImg + f.addr) &&& f.mask))
  else s

/-- A task's safety forces that have lost the maintenance permit are removed at its action instant: what launches there is
unforced (R142). -/
def State.dropSafetyForces (s : State) (t : Nat) : State :=
  s.each (s.lostForces t) fun s i => (s.unstageForce i).dropForce i 2

/-- A lane finds a CRC failure in the force table: every force is removed (R140). -/
def State.forceCrcFailure (s : State) (l : Lane) : State :=
  let n := (s.forces forceEntry).length
  let s := (s.zero (forceEntry 0) 4096).zero (forceLive 0) 4096
  ((s.raise DBG_EVT_FORCE_CRC DBG_EVCNT_FAULT_CNT).ev 0x2033 0 n l.code).showForces

/-- The lanes check the table before an application: `bad` is a lane that finds its check wrong; where the table itself does not
match the CRC it carries every lane does, and the first in the vote is named (R140). -/
def State.forceCheck (s : State) (bad : Option Lane) : State :=
  match bad with
  | some l => s.forceCrcFailure l
  | none => if s.forceBad then s.forceCrcFailure ((Lane.all.find? s.inVote).getD .la) else s

end Sys2Proof.Machine
end

