-- ==== Sys2Proof/Machine/FieldOps.lean ====
section
/-! DEFINITION. Shared operations of the field channels and the brake groups: contacts, holds, group states, drive
enables, the group latch (R149 to R152, R168, R177 to R180, R190, R193). -/

namespace Sys2Proof.Machine
open Reg Hid

/-! ### Channels -/

/-- The supply bank of a channel (R148). -/
def bankOf (c : Nat) : Nat := c / 32

/-- The channel's bank is in supply fault (R171). -/
def State.bankFault (s : State) (c : Nat) : Bool := s.on (BANKF (bankOf c))

/-- The debounced level of a pin in a lane. -/
def State.level (s : State) (l : Lane) (c p : Nat) : Bool := s.on (DEB l.idx c p)

/-- Contact A is in its non-demand position (R150). -/
def ndA (a : Bool) : Bool := a
/-- Contact B is in its non-demand position, by the wiring (R150). -/
def ndB (wiring : Nat) (b : Bool) : Bool := if wiring = 0 then b else !b

/-- The states of a DUAL_CONTACT channel in a lane, coded as FC_STATUS (R151). -/
inductive DcState where
  | dem | nondem | discWait | fault
  deriving DecidableEq, Repr

/-- The code of a channel state. -/
def DcState.code : DcState → Nat
  | .dem => 0 | .nondem => 1 | .discWait => 2 | .fault => 3

/-- The channel state of a code. -/
def DcState.ofCode (n : Nat) : DcState :=
  if n = 0 then .dem else if n = 1 then .nondem else if n = 2 then .discWait else .fault

/-- The channel's state in a lane. -/
def State.dc (s : State) (l : Lane) (c : Nat) : DcState := .ofCode (s.get (FC_STATUS_DC c l.idx))

/-- The state after the contacts have taken the positions `x` (A non-demand) and `y` (B non-demand) (R151, R152). -/
def DcState.next : DcState → Bool → Bool → DcState
  | .dem, true, true => .nondem
  | .dem, false, false => .dem
  | .dem, _, _ => .discWait
  | .nondem, true, true => .nondem
  | .nondem, false, false => .dem
  | .nondem, _, _ => .discWait
  | .discWait, true, true => .nondem
  | .discWait, false, false => .dem
  | .discWait, _, _ => .discWait
  | .fault, false, false => .dem
  | .fault, _, _ => .fault

/-- How many lanes in the vote satisfy a test. -/
def State.votersWith (s : State) (p : Lane → Bool) : Nat := (Lane.all.filter fun l => s.inVote l && p l).length

/-- The agreed discrepancy events: raised when two lanes in the vote have the flag set, or clear again (R175). -/
def State.discEvents (s : State) (c : Nat) : State :=
  let flag := fun (l : Lane) => s.on (DISC_FLAG l.idx c)
  if !s.on (DISC_EV c) && decide (2 ≤ s.votersWith flag) then
    let l := (Lane.all.find? fun l => s.inVote l && flag l).getD .la
    let frm := s.get (DISC_FROM l.idx c)
    let aNd := ndA (s.level l c 0)
    let contact := if frm = 0 then bit aNd else bit (!aNd)
    let s := (s.set (DISC_EV c) 1).set (DISC_SET_AT c) s.now
    (s.raise (FC_EVT_DISC c) (FC_EVCNT_DISC_CNT c)).ev 0x3001 0 c frm contact
  else if s.on (DISC_EV c) && decide (2 ≤ s.votersWith fun l => !flag l) then
    (s.set (DISC_EV c) 0).ev 0x3002 0 c (min 65535 ((s.now - s.get (DISC_SET_AT c)) / (1000 * grainsMs)))
  else s

/-! ### Brake groups -/

/-- The sixteen groups. -/
def groups : List Nat := upto 16

/-- The states of a group in a lane (R193). -/
inductive GrpState where
  | off | applied | released | held | dark | bright | latched
  deriving DecidableEq, Repr

/-- The code of a group state. -/
def GrpState.code : GrpState → Nat
  | .off => 0 | .applied => 1 | .released => 2 | .held => 3 | .dark => 4 | .bright => 5 | .latched => 6

/-- The group state of a code; the reserved code 7 never occurs and reads as LATCHED. -/
def GrpState.ofCode (n : Nat) : GrpState :=
  if n = 0 then .off else if n = 1 then .applied else if n = 2 then .released else if n = 3 then .held
  else if n = 4 then .dark else if n = 5 then .bright else .latched

/-- A group's state in a lane. -/
def State.grp (s : State) (g : Nat) (l : Lane) : GrpState := .ofCode (s.get (BRK_STAT_ST g l.idx))

/-- An enabled group. -/
def State.grpOn (s : State) (g : Nat) : Bool := s.on (BRK_CFG_EN g)

/-- The group is latched. -/
def State.latched (s : State) (g : Nat) : Bool := s.on (BRK_STAT_LATCHED g)

/-- The groups for which a channel is an enabled demand channel. -/
def State.demandGroups (s : State) (c : Nat) : List Nat :=
  groups.filter fun g => s.grpOn g && (upto 4).any fun d => s.on (BRK_DEM_EN g d) && s.get (BRK_DEM_CH g d) == c

/-- The enabled demand channels of a group. -/
def State.demandChannels (s : State) (g : Nat) : List Nat :=
  (upto 4).filterMap fun d => if s.on (BRK_DEM_EN g d) then some (s.get (BRK_DEM_CH g d)) else none

/-- Whether a lane drives both enables of a group's output high: in the vote and launched, energised by command or
bright pulse, with no hold, no dark pulse and no latch; the group's state in the lane says which (R177, R193). -/
def State.grpEnable (s : State) (g : Nat) (l : Lane) : Bool :=
  let c := s.get (BRK_CFG_OUTCH g)
  s.voting l && s.on (LAUNCHED l.idx c) && !s.bankFault c && !s.on (BAL_PADF c) && !s.safe &&
    match s.grp g l with
    | .released | .bright => true
    | _ => false

/-- Drives a group's output from the lanes' states and shows the pad majority (R177). -/
def State.driveGroup (s : State) (g : Nat) : State :=
  let c := s.get (BRK_CFG_OUTCH g)
  let s := s.each Lane.all fun s l =>
    (s.put (DRIVE l.idx c 0) (s.grpEnable g l)).put (DRIVE l.idx c 1) (s.grpEnable g l)
  s.showPad g

/-- A bright test abandoned by a demand: event 0x4005, the test stays due (R189). -/
def State.abandonBright (s : State) (g c : Nat) : State :=
  if s.get (WIN g) = 2 ∧ s.get (PULSE g) = 2 then
    let s := ((s.set (WIN g) 0).set (BRK_STAT_BRIGHTRES g) 3).raise (BRK_EVT_ABANDON g) (BRK_EVCNT_FAULT_CNT g)
    s.ev 0x4005 0 c g (min 65535 ((s.now - s.get (PULSE_AT g)) / grainsUs))
  else s

/-- A lane sets its hold for a group on the demand of a channel (R178, R189, R193). -/
def State.setHold (s : State) (l : Lane) (g c : Nat) : State :=
  let s := s.set (CLEAN l.idx g) 0
  if s.on (BRK_HOLD l.idx g) then s
  else
    let s := (s.setIf (s.holders g).isEmpty (HOLD_CH g) c).set (BRK_HOLD l.idx g) 1
    let s := match s.grp g l with
      | .applied | .released | .dark => s.set (BRK_STAT_ST g l.idx) GrpState.held.code
      | .bright => (s.set (BRK_STAT_ST g l.idx) GrpState.held.code).abandonBright g c
      | _ => s
    (s.driveGroup g).summarise g

/-- A channel in demand in a lane sets the lane's hold for every group that it is a demand channel of (R178). -/
def State.demand (s : State) (l : Lane) (c : Nat) : State :=
  s.each (s.demandGroups c) fun s g => s.setHold l g c

/-- Sets the group latch with its cause: permanent demand, kept in MRAM (R190, R192). -/
def State.latchGroup (s : State) (g cause : Nat) : State :=
  let s := ((s.set (BRK_STAT_LATCHED g) 1).set (BRK_STAT_LCAUSE g) cause).set (NV_LATCH g) (4 + cause)
  let s := s.each Lane.all fun s l =>
    if s.grp g l == .off then s else s.set (BRK_STAT_ST g l.idx) GrpState.latched.code
  (s.driveGroup g).summarise g

/-- A lane's readback of a group shows energised: bit 0 of the readback channel's value before agreement equals RBPOL
(R188). -/
def State.rbEnergised (s : State) (g : Nat) (l : Lane) : Bool :=
  let c := s.get (BRK_CFG_RBCH g)
  let b := if s.get (FC_CFG_MODE c) = 1 then s.dc l c == .nondem else s.level l c 0
  bit b == s.get (BRK_CFG_RBPOL g)

/-- A lane notes what its readback shows while a test window is open (R188). -/
def State.noteReadback (s : State) (l : Lane) (g : Nat) : State :=
  let w := s.get (WIN g)
  if (w == 1 && !s.rbEnergised g l) || (w == 2 && s.rbEnergised g l) then s.set (SEEN l.idx g) 1 else s

/-- The groups whose readback is a channel. -/
def State.readbackGroups (s : State) (c : Nat) : List Nat :=
  groups.filter fun g => s.grpOn g && s.get (BRK_CFG_RBCH g) == c

/-- A DUAL_CONTACT channel of a lane takes a new state (R151, R178). -/
def State.setDc (s : State) (l : Lane) (c : Nat) (new : DcState) : State :=
  let old := s.dc l c
  let s := s.set (FC_STATUS_DC c l.idx) new.code
  let s := if new == .discWait && old != .discWait then
      (s.set (DISC_AT l.idx c) s.now).put (DISC_FROM l.idx c) (old == .nondem) else s
  let s := if new == .fault && old != .fault then s.set (DISC_FLAG l.idx c) 1 else s
  let s := if new == .dem && old == .fault then s.set (DISC_FLAG l.idx c) 0 else s
  let s := if new != .nondem && old != new then s.demand l c else s
  s.discEvents c

end Sys2Proof.Machine
end

