-- ==== Sys2Proof/Machine/ImageOps.lean ====
section
/-! DEFINITION. The logic image in the lanes: what the registers show of it, program memory, what a restart sets, and
what an on-line change carries over (R58, R76, R77, R125, R136 to R138). -/

namespace Sys2Proof.Machine
open Reg Hid

/-- The instructions of an image: those of its POUs. -/
def LogicImage.instrs (im : LogicImage) : Nat := (im.pous.map fun p => p.len).foldl (· + ·) 0

/-- Shows a task's slices, window, root and length (R77). -/
def State.showTask (s : State) (t : Nat) (x : TaskImage) : State :=
  let s := (s.set (TSK_ISLICE_BASE t) x.iBase).set (TSK_ISLICE_LEN t) x.iWords
  let s := (s.set (TSK_QSLICE_BASE t) x.qBase).set (TSK_QSLICE_LEN t) x.qWords
  let s := (s.set (TSK_MWIN_BASE t) x.mBase).set (TSK_MWIN_LEN t) x.mUnits
  (s.set (TSK_ROOT_POU t) x.root).set (TSK_NMAX_N t) x.nmax

/-- Shows the loaded image (R76, R77). -/
def State.showImage (s : State) : State :=
  match s.image with
  | none =>
    let s := ((s.set SCN_LAYOUT_HASH 0).set SCN_PROG_INSTR 0).set SCN_PROG_POUS 0
    let s := ((s.set SCN_INST_TIMERS 0).set SCN_INST_COUNTERS 0).set SCN_EDGE_EDGES 0
    s.each tasks fun s t => s.showTask t TaskImage.none
  | some im =>
    let s := ((s.set SCN_LAYOUT_HASH im.layoutHash).set SCN_PROG_INSTR im.instrs).set SCN_PROG_POUS im.pous.length
    let s := ((s.set SCN_INST_TIMERS im.timers.length).set SCN_INST_COUNTERS im.counters.length).set SCN_EDGE_EDGES
      im.edges.length
    s.each tasks fun s t => s.showTask t (im.task t)

/-- A lane's program memory takes the code of the logic image (R101, R450). -/
def State.loadProgram (s : State) (l : Lane) : State :=
  match s.image with
  | none => s
  | some im => (s.zero (progBase l) 0x100000).setWords (progBase l) im.code

/-- The configured safe values of a task's output slice, written into an image that lies at `base` (R72, R120). -/
def State.putSafe (s : State) (t base : Nat) : State :=
  let lo := s.get (TSK_QSLICE_BASE t)
  let n := 4 * s.get (TSK_QSLICE_LEN t)
  (s.zero (base + lo) n).each (s.cfg.safeQ.filter fun p => decide (lo ≤ p.1) && decide (p.1 < lo + n)) fun s p =>
    s.setByte (base + p.1) p.2

/-- Writes the ID, owning task and kind of an instance (R58). -/
def State.putDecl (s : State) (a : Nat) (d : InstDecl) : State := (s.wr (a + 8) 2 d.id).wr (a + 10) 1 (d.task + 16 * d.kind)

/-- The instance memory of a lane with the image that is loaded: every instance that the image does not declare is unused, kind 0,
and the declared ones carry their ID, owner and kind (R58). -/
def State.freshInstances (s : State) (l : Lane) : State :=
  let s := ((s.zero (timerBase l) 0x10000).zero (counterBase l) 0x10000).zero (edgeBase l) 0x800
  match s.image with
  | none => s
  | some im =>
    let s := s.each im.timers fun s d => s.putDecl (timerBase l + 16 * d.idx) d
    s.each im.counters fun s d => s.putDecl (counterBase l + 16 * d.idx) d

/-- The instances that an on-line change leaves without a declaration become unused, once the old code no longer needs them
(R58, R137). -/
def State.dropInstances (s : State) (old im : LogicImage) (t : Nat) (l : Lane) : State :=
  let s := s.each (old.timers.filter fun d => d.task == t && !im.timers.any fun x => x.idx == d.idx) fun s d =>
    s.zero (timerBase l + 16 * d.idx) 16
  s.each (old.counters.filter fun d => d.task == t && !im.counters.any fun x => x.idx == d.idx) fun s d =>
    s.zero (counterBase l + 16 * d.idx) 16

/-- A timer instance after a restart (R125). -/
def State.initTimer (s : State) (l : Lane) (d : InstDecl) : State :=
  let a := timerBase l + 16 * d.idx
  (((s.wr a 4 0).putDecl a d).wr (a + 11) 1 0).wr (a + 12) 4 (s.periodUs d.task)

/-- A counter instance after a restart (R125). -/
def State.initCounter (s : State) (l : Lane) (d : InstDecl) : State :=
  let a := counterBase l + 16 * d.idx
  ((((s.wr a 4 0).wr (a + 4) 4 0).putDecl a d).wr (a + 11) 1 0).wr (a + 12) 4 0

/-- Sets or clears an edge bit in a lane. -/
def State.putEdge (s : State) (l : Lane) (e : Nat) (b : Bool) : State :=
  let a := edgeBase l + e / 8
  let x := s.byte a
  s.setByte a (if b then x ||| (1#8 <<< (e % 8)) else x &&& ~~~(1#8 <<< (e % 8)))

/-- The initial values of `n` bytes of a lane's data memory from `lo`. -/
def State.initData (s : State) (im : LogicImage) (l : Lane) (lo n : Nat) : State :=
  (s.zero (dataBase l + lo) n).each (im.initData.filter fun p => decide (lo ≤ p.1) && decide (p.1 < lo + n)) fun s p =>
    s.setByte (dataBase l + p.1) p.2

/-- A task's state in a lane as a restart leaves it: `warm` takes the retained words from the committed copy (R125). -/
def State.restartLane (s : State) (t : Nat) (warm : Bool) (l : Lane) : State :=
  match s.image with
  | none => s
  | some im =>
    let s := s.initData im l (64 * s.get (TSK_MWIN_BASE t)) (64 * s.get (TSK_MWIN_LEN t))
    let s := if warm then s.each (im.task t).retained fun s a => s.setWord (dataBase l + a) (s.word (commitBase l + a)) else s
    let s := s.putSafe t (outBase l)
    let s := s.each (im.timers.filter fun d => d.task == t) fun s d => s.initTimer l d
    let s := s.each (im.counters.filter fun d => d.task == t) fun s d => s.initCounter l d
    let s := if warm then s
      else s.each (im.edges.filter fun d => d.task == t) fun s d => (s.putEdge l d.idx false).set (EDGE_NEW l.idx d.idx) 0
    (s.setCtx l t Ctx.start).setPres l t none

/-! ### On-line change (R136, R137) -/

/-- Carries a task's instances and edge bits over in a lane, from the bank that holds them as the old code left them
(R137). -/
def State.carryLane (s : State) (old im : LogicImage) (t : Nat) (l : Lane) : State :=
  let from_ := oldBank true
  let s := s.each (im.timers.filter fun d => d.task == t) fun s d =>
    match old.timers.find? fun o => o.id == d.id && o.kind == d.kind with
    | some o =>
      (s.copy (timerBase l + from_ + 16 * o.idx) (timerBase l + 16 * d.idx) 16).putDecl (timerBase l + 16 * d.idx) d
    | none => s.initTimer l d
  let s := s.each (im.counters.filter fun d => d.task == t) fun s d =>
    match old.counters.find? fun o => o.id == d.id && o.kind == d.kind with
    | some o =>
      (s.copy (counterBase l + from_ + 16 * o.idx) (counterBase l + 16 * d.idx) 16).putDecl (counterBase l + 16 * d.idx) d
    | none => s.initCounter l d
  s.each (im.edges.filter fun d => d.task == t) fun s d =>
    match old.edges.find? fun o => o.id == d.id with
    | some o => s.putEdge l d.idx ((s.byte (edgeBase l + from_ + o.idx / 8)).getLsbD (o.idx % 8))
    | none => (s.putEdge l d.idx false).set (EDGE_NEW l.idx d.idx) 1

/-- How many instances of a task are carried over and how many are initialised (R137, R146). -/
def carryCounts (old im : LogicImage) (t : Nat) : Nat × Nat :=
  let ts := im.timers.filter fun d => d.task == t
  let cs := im.counters.filter fun d => d.task == t
  let kept := (ts.filter fun d => old.timers.any fun o => o.id == d.id && o.kind == d.kind).length +
    (cs.filter fun d => old.counters.any fun o => o.id == d.id && o.kind == d.kind).length
  (kept, ts.length + cs.length - kept)

/-- A task's first action instant at or after F: its instances are carried over and it runs the new code; a task that restarts at
this instant has had all of them initialised (R125, R136, R137). -/
def State.olcCarry (s : State) (t : Nat) (restarted : Bool) : State :=
  if !s.on (CL_PEND t) then s
  else
    let s := s.set (CL_PEND t) 0
    match s.oldImage, s.image with
    | some old, some im =>
      let n := carryCounts old im t
      if restarted then (s.each (s.lanesOf t) fun s l => s.dropInstances old im t l).add OLC_INIT (n.1 + n.2)
      else
      let s := s.each (s.lanesOf t) fun s l => (s.carryLane old im t l).dropInstances old im t l
      (s.add OLC_CARRY n.1).add OLC_INIT n.2
    | _, _ => s

end Sys2Proof.Machine
end

