-- ==== Sys2Proof/Machine/RegMap.lean ====
section
/-! DEFINITION. The BAR0 register map as data (R27 and the register tables of every chapter): for each block its
base, stride and copies, and in it each field's word offset, lowest bit, width, access code (R14), reset value and
how many equal neighbours of that width follow it. A reserved field has no row: it reads 0 (R16). -/

namespace Sys2Proof.Machine
namespace RegMap

def b0_0 : List FldRow :=
  [⟨0x0, 16, 16, .ro, 0x3C64, 1⟩,
   ⟨0x0, 8, 8, .ro, 0xA, 1⟩,
   ⟨0x0, 0, 8, .ro, 0x1, 1⟩,
   ⟨0x4, 0, 16, .ro, 0x1F2E, 1⟩,
   ⟨0x4, 16, 16, .ro, 0x3C64, 1⟩,
   ⟨0x8, 0, 8, .ro, 0x1, 1⟩,
   ⟨0x20, 0, 2, .ro, 0x0, 1⟩,
   ⟨0x20, 2, 1, .ro, 0x0, 1⟩,
   ⟨0x20, 3, 1, .ro, 0x0, 1⟩,
   ⟨0x24, 0, 1, .ro, 0x1, 1⟩,
   ⟨0x24, 1, 1, .ro, 0x1, 1⟩,
   ⟨0x24, 2, 1, .ro, 0x0, 1⟩,
   ⟨0x24, 3, 1, .ro, 0x1, 3⟩,
   ⟨0x24, 6, 1, .ro, 0x0, 2⟩,
   ⟨0x24, 8, 1, .ro, 0x1, 1⟩,
   ⟨0x24, 9, 1, .ro, 0x1, 1⟩,
   ⟨0x28, 0, 8, .ro, 0x0, 1⟩,
   ⟨0x28, 8, 8, .ro, 0x0, 1⟩,
   ⟨0x28, 16, 8, .ro, 0x0, 1⟩,
   ⟨0x28, 24, 8, .ro, 0x0, 1⟩,
   ⟨0x2C, 0, 16, .ro, 0x0, 1⟩,
   ⟨0x2C, 16, 16, .ro, 0x0, 1⟩]

def b4000_0 : List FldRow :=
  [⟨0x0, 0, 8, .ro, 0x1, 1⟩,
   ⟨0x0, 8, 8, .ro, 0x10, 1⟩,
   ⟨0x0, 16, 8, .ro, 0x20, 1⟩,
   ⟨0x0, 24, 8, .ro, 0x10, 1⟩,
   ⟨0x4, 0, 32, .ro, 0x0, 1⟩,
   ⟨0x8, 0, 19, .ro, 0x0, 1⟩,
   ⟨0x8, 19, 11, .ro, 0x0, 1⟩,
   ⟨0xC, 0, 13, .ro, 0x0, 1⟩,
   ⟨0xC, 16, 13, .ro, 0x0, 1⟩,
   ⟨0x10, 0, 15, .ro, 0x0, 1⟩,
   ⟨0x14, 0, 4, .rw, 0x0, 1⟩,
   ⟨0x14, 4, 4, .ro, 0x0, 1⟩,
   ⟨0x14, 8, 1, .ro, 0x0, 1⟩,
   ⟨0x14, 9, 1, .ro, 0x1, 1⟩,
   ⟨0x18, 0, 1, .w1c, 0x0, 1⟩,
   ⟨0x18, 1, 1, .w1c, 0x0, 1⟩,
   ⟨0x18, 2, 1, .w1c, 0x0, 1⟩,
   ⟨0x1C, 0, 8, .ro, 0x0, 1⟩,
   ⟨0x1C, 8, 8, .ro, 0x0, 1⟩,
   ⟨0x1C, 16, 8, .ro, 0x0, 1⟩]

def b4400x_0 : List FldRow :=
  [⟨0x0, 0, 1, .cs, 0x0, 1⟩,
   ⟨0x0, 1, 1, .cs, 0x0, 1⟩,
   ⟨0x0, 2, 2, .cs, 0x0, 1⟩,
   ⟨0x0, 4, 2, .cs, 0x0, 1⟩,
   ⟨0x0, 6, 1, .cs, 0x0, 1⟩,
   ⟨0x0, 7, 1, .cs, 0x0, 1⟩,
   ⟨0x0, 8, 4, .cs, 0x0, 1⟩,
   ⟨0x0, 12, 6, .cs, 0x0, 1⟩,
   ⟨0x4, 0, 25, .cs, 0x0, 1⟩,
   ⟨0x4, 25, 6, .cs, 0x0, 1⟩,
   ⟨0x8, 0, 6, .cs, 0x5, 1⟩,
   ⟨0x8, 8, 8, .cs, 0x8, 1⟩,
   ⟨0xC, 0, 16, .ro, 0x0, 1⟩,
   ⟨0xC, 16, 16, .ro, 0x0, 1⟩,
   ⟨0x10, 0, 16, .ro, 0x0, 1⟩,
   ⟨0x10, 16, 16, .ro, 0x0, 1⟩,
   ⟨0x14, 0, 13, .ro, 0x0, 1⟩,
   ⟨0x14, 16, 14, .ro, 0x0, 1⟩,
   ⟨0x18, 0, 10, .ro, 0x0, 1⟩,
   ⟨0x1C, 0, 24, .ro, 0x0, 1⟩,
   ⟨0x20, 0, 2, .ro, 0x0, 1⟩,
   ⟨0x20, 2, 1, .ro, 0x0, 1⟩,
   ⟨0x20, 3, 1, .ro, 0x0, 1⟩,
   ⟨0x20, 8, 8, .ro, 0x0, 1⟩,
   ⟨0x24, 0, 24, .ro, 0x0, 1⟩,
   ⟨0x28, 0, 24, .ro, 0x0, 1⟩,
   ⟨0x2C, 0, 23, .ro, 0x7FFFFF, 1⟩,
   ⟨0x30, 0, 1, .w1c, 0x0, 1⟩,
   ⟨0x30, 1, 1, .w1c, 0x0, 1⟩,
   ⟨0x30, 2, 1, .w1c, 0x0, 1⟩,
   ⟨0x30, 3, 1, .w1c, 0x0, 1⟩,
   ⟨0x30, 4, 1, .w1c, 0x0, 1⟩,
   ⟨0x30, 5, 1, .w1c, 0x0, 1⟩,
   ⟨0x30, 6, 1, .w1c, 0x0, 1⟩,
   ⟨0x30, 7, 1, .w1c, 0x0, 1⟩,
   ⟨0x34, 0, 16, .ro, 0x0, 1⟩,
   ⟨0x34, 16, 16, .ro, 0x0, 1⟩,
   ⟨0x38, 0, 16, .ro, 0x0, 1⟩,
   ⟨0x38, 16, 16, .ro, 0x0, 1⟩,
   ⟨0x3C, 0, 1, .wo, 0x0, 1⟩]

def b3000_0 : List FldRow :=
  [⟨0x0, 0, 3, .ro, 0x0, 1⟩,
   ⟨0x0, 4, 3, .ro, 0x0, 1⟩,
   ⟨0x0, 8, 3, .ro, 0x0, 1⟩,
   ⟨0x0, 12, 1, .ro, 0x0, 1⟩,
   ⟨0x0, 13, 1, .ro, 0x0, 1⟩,
   ⟨0x4, 0, 16, .ro, 0x0, 1⟩,
   ⟨0x8, 0, 16, .ro, 0x0, 1⟩,
   ⟨0xC, 0, 16, .ro, 0x0, 1⟩,
   ⟨0x4, 16, 1, .ro, 0x0, 1⟩,
   ⟨0x8, 16, 1, .ro, 0x0, 1⟩,
   ⟨0xC, 16, 1, .ro, 0x0, 1⟩,
   ⟨0x4, 17, 1, .ro, 0x0, 1⟩,
   ⟨0x8, 17, 1, .ro, 0x0, 1⟩,
   ⟨0xC, 17, 1, .ro, 0x0, 1⟩,
   ⟨0x10, 0, 4, .cs, 0x3, 1⟩,
   ⟨0x14, 0, 1, .w1c, 0x0, 25⟩,
   ⟨0x18, 0, 8, .ro, 0x0, 1⟩,
   ⟨0x1C, 0, 8, .ro, 0x0, 1⟩,
   ⟨0x20, 0, 8, .ro, 0x0, 1⟩,
   ⟨0x18, 8, 8, .ro, 0x0, 1⟩,
   ⟨0x1C, 8, 8, .ro, 0x0, 1⟩,
   ⟨0x20, 8, 8, .ro, 0x0, 1⟩,
   ⟨0x18, 16, 8, .ro, 0x0, 1⟩,
   ⟨0x1C, 16, 8, .ro, 0x0, 1⟩,
   ⟨0x20, 16, 8, .ro, 0x0, 1⟩,
   ⟨0x18, 24, 8, .ro, 0x0, 1⟩,
   ⟨0x1C, 24, 8, .ro, 0x0, 1⟩,
   ⟨0x20, 24, 8, .ro, 0x0, 1⟩,
   ⟨0x24, 0, 4, .ro, 0x0, 1⟩,
   ⟨0x24, 4, 4, .ro, 0x0, 1⟩,
   ⟨0x24, 8, 4, .ro, 0x0, 1⟩,
   ⟨0x28, 0, 2, .ro, 0x0, 1⟩,
   ⟨0x28, 2, 4, .ro, 0x0, 1⟩,
   ⟨0x28, 6, 3, .ro, 0x0, 1⟩,
   ⟨0x28, 16, 16, .ro, 0x0, 1⟩,
   ⟨0x2C, 0, 4, .rw, 0x0, 1⟩,
   ⟨0x2C, 4, 2, .rw, 0x0, 1⟩,
   ⟨0x2C, 31, 1, .wo, 0x0, 1⟩,
   ⟨0x30, 0, 4, .ro, 0x0, 1⟩,
   ⟨0x30, 4, 2, .ro, 0x0, 1⟩]

def b3000_1 : List FldRow :=
  [⟨0x30, 6, 2, .ro, 0x0, 1⟩,
   ⟨0x30, 8, 3, .ro, 0x0, 1⟩,
   ⟨0x34, 0, 1, .wo, 0x0, 1⟩,
   ⟨0x34, 1, 1, .wo, 0x0, 1⟩,
   ⟨0x34, 2, 1, .wo, 0x0, 1⟩,
   ⟨0x38, 0, 8, .ro, 0x0, 1⟩,
   ⟨0x38, 8, 8, .ro, 0x0, 1⟩,
   ⟨0x38, 16, 8, .ro, 0x0, 1⟩]

def b3100_0 : List FldRow :=
  [⟨0x0, 0, 8, .cs, 0x4, 1⟩,
   ⟨0x4, 0, 1, .ro, 0x0, 6⟩,
   ⟨0x8, 0, 1, .w1c, 0x0, 3⟩,
   ⟨0x8, 3, 1, .w1c, 0x0, 1⟩,
   ⟨0x8, 4, 1, .w1c, 0x0, 6⟩,
   ⟨0x8, 10, 1, .w1c, 0x0, 3⟩,
   ⟨0xC, 0, 32, .ro, 0x0, 1⟩,
   ⟨0x10, 0, 32, .ro, 0x0, 1⟩,
   ⟨0x14, 0, 32, .ro, 0x0, 1⟩,
   ⟨0x18, 0, 12, .ro, 0x0, 1⟩,
   ⟨0x18, 12, 2, .ro, 0x0, 1⟩,
   ⟨0x1C, 0, 16, .ro, 0x0, 1⟩]

def b3200_0 : List FldRow :=
  [⟨0x0, 0, 12, .cs, 0x100, 1⟩,
   ⟨0x0, 12, 1, .cs, 0x1, 1⟩,
   ⟨0x0, 13, 1, .cs, 0x1, 1⟩,
   ⟨0x4, 0, 2, .ro, 0x1, 1⟩,
   ⟨0x4, 2, 6, .ro, 0x0, 1⟩,
   ⟨0x4, 8, 1, .ro, 0x0, 1⟩,
   ⟨0x4, 16, 16, .ro, 0x0, 1⟩,
   ⟨0x8, 0, 1, .w1c, 0x0, 3⟩,
   ⟨0x8, 3, 1, .w1c, 0x0, 1⟩,
   ⟨0x8, 4, 1, .w1c, 0x0, 1⟩,
   ⟨0xC, 0, 16, .ro, 0x0, 1⟩,
   ⟨0xC, 16, 16, .ro, 0x0, 1⟩,
   ⟨0x10, 0, 1, .ro, 0x0, 32⟩,
   ⟨0x14, 0, 1, .ro, 0x0, 32⟩,
   ⟨0x18, 0, 2, .ro, 0x0, 16⟩,
   ⟨0x1C, 0, 2, .ro, 0x0, 16⟩,
   ⟨0x20, 0, 2, .ro, 0x0, 16⟩,
   ⟨0x24, 0, 2, .ro, 0x0, 16⟩,
   ⟨0x28, 0, 4, .ro, 0x0, 1⟩,
   ⟨0x28, 4, 3, .ro, 0x0, 1⟩,
   ⟨0x28, 8, 2, .ro, 0x0, 1⟩,
   ⟨0x2C, 0, 1, .wo, 0x0, 1⟩]

def b5000_0 : List FldRow :=
  [⟨0x0, 0, 2, .ro, 0x0, 1⟩,
   ⟨0x0, 2, 1, .ro, 0x0, 1⟩,
   ⟨0x0, 3, 1, .ro, 0x0, 1⟩,
   ⟨0x0, 4, 1, .ro, 0x0, 1⟩,
   ⟨0x0, 5, 1, .ro, 0x0, 4⟩,
   ⟨0x0, 16, 16, .ro, 0x0, 1⟩,
   ⟨0x4, 0, 2, .rw, 0x0, 1⟩,
   ⟨0x4, 2, 1, .rw, 0x0, 1⟩,
   ⟨0x4, 31, 1, .wo, 0x0, 1⟩,
   ⟨0x8, 0, 2, .ro, 0x0, 1⟩,
   ⟨0x8, 2, 2, .ro, 0x0, 1⟩,
   ⟨0x8, 4, 4, .ro, 0x0, 1⟩,
   ⟨0xC, 0, 6, .cs, 0x0, 1⟩,
   ⟨0xC, 6, 1, .cs, 0x0, 1⟩,
   ⟨0xC, 8, 6, .cs, 0x0, 1⟩,
   ⟨0xC, 14, 1, .cs, 0x0, 1⟩,
   ⟨0xC, 16, 4, .cs, 0x0, 1⟩,
   ⟨0x10, 0, 1, .cs, 0x0, 1⟩,
   ⟨0x10, 1, 1, .cs, 0x0, 1⟩,
   ⟨0x10, 2, 12, .cs, 0x3C, 1⟩,
   ⟨0x14, 0, 2, .ro, 0x0, 1⟩,
   ⟨0x14, 2, 4, .ro, 0x0, 1⟩,
   ⟨0x14, 6, 2, .ro, 0x0, 1⟩,
   ⟨0x14, 8, 1, .ro, 0x0, 1⟩,
   ⟨0x18, 0, 4, .rw, 0x0, 1⟩,
   ⟨0x18, 4, 1, .rw, 0x0, 1⟩,
   ⟨0x18, 31, 1, .wo, 0x0, 1⟩,
   ⟨0x1C, 0, 4, .ro, 0x0, 1⟩,
   ⟨0x1C, 4, 2, .ro, 0x0, 1⟩,
   ⟨0x1C, 6, 4, .ro, 0x0, 1⟩,
   ⟨0x20, 0, 8, .ro, 0x0, 1⟩,
   ⟨0x20, 8, 1, .ro, 0x0, 1⟩,
   ⟨0x24, 0, 9, .ro, 0x0, 1⟩,
   ⟨0x24, 9, 1, .ro, 0x0, 1⟩,
   ⟨0x28, 0, 3, .ro, 0x0, 1⟩,
   ⟨0x28, 8, 4, .ro, 0x0, 1⟩,
   ⟨0x2C, 0, 32, .ro, 0x0, 1⟩,
   ⟨0x30, 0, 1, .ro, 0x0, 16⟩,
   ⟨0x30, 16, 1, .ro, 0x0, 16⟩,
   ⟨0x34, 0, 1, .w1c, 0x0, 1⟩]

def b5000_1 : List FldRow :=
  [⟨0x34, 1, 1, .w1c, 0x0, 1⟩,
   ⟨0x34, 2, 1, .w1c, 0x0, 1⟩,
   ⟨0x34, 3, 1, .w1c, 0x0, 1⟩,
   ⟨0x34, 4, 1, .w1c, 0x0, 1⟩,
   ⟨0x34, 5, 1, .w1c, 0x0, 1⟩,
   ⟨0x34, 6, 1, .w1c, 0x0, 1⟩,
   ⟨0x34, 7, 1, .w1c, 0x0, 1⟩,
   ⟨0x38, 0, 16, .ro, 0x0, 1⟩,
   ⟨0x38, 16, 16, .ro, 0x0, 1⟩]

def b5100x_0 : List FldRow :=
  [⟨0x0, 0, 18, .rw, 0x0, 1⟩,
   ⟨0x4, 0, 18, .rw, 0x0, 1⟩,
   ⟨0x8, 0, 18, .rw, 0x0, 1⟩,
   ⟨0xC, 0, 18, .rw, 0x0, 1⟩,
   ⟨0x10, 0, 18, .rw, 0x0, 1⟩,
   ⟨0x14, 0, 18, .rw, 0x0, 1⟩,
   ⟨0x18, 0, 18, .rw, 0x0, 1⟩,
   ⟨0x1C, 0, 18, .rw, 0x0, 1⟩,
   ⟨0x0, 18, 8, .rw, 0x1, 1⟩,
   ⟨0x4, 18, 8, .rw, 0x1, 1⟩,
   ⟨0x8, 18, 8, .rw, 0x1, 1⟩,
   ⟨0xC, 18, 8, .rw, 0x1, 1⟩,
   ⟨0x10, 18, 8, .rw, 0x1, 1⟩,
   ⟨0x14, 18, 8, .rw, 0x1, 1⟩,
   ⟨0x18, 18, 8, .rw, 0x1, 1⟩,
   ⟨0x1C, 18, 8, .rw, 0x1, 1⟩,
   ⟨0x0, 31, 1, .rw, 0x0, 1⟩,
   ⟨0x4, 31, 1, .rw, 0x0, 1⟩,
   ⟨0x8, 31, 1, .rw, 0x0, 1⟩,
   ⟨0xC, 31, 1, .rw, 0x0, 1⟩,
   ⟨0x10, 31, 1, .rw, 0x0, 1⟩,
   ⟨0x14, 31, 1, .rw, 0x0, 1⟩,
   ⟨0x18, 31, 1, .rw, 0x0, 1⟩,
   ⟨0x1C, 31, 1, .rw, 0x0, 1⟩,
   ⟨0x20, 0, 18, .ro, 0x0, 1⟩,
   ⟨0x20, 18, 1, .ro, 0x0, 1⟩,
   ⟨0x20, 19, 1, .ro, 0x0, 1⟩,
   ⟨0x20, 20, 3, .ro, 0x0, 1⟩,
   ⟨0x20, 24, 1, .ro, 0x0, 3⟩,
   ⟨0x24, 0, 32, .ro, 0x0, 1⟩,
   ⟨0x28, 0, 32, .ro, 0x0, 1⟩,
   ⟨0x2C, 0, 1, .ro, 0x0, 1⟩,
   ⟨0x2C, 1, 1, .ro, 0x0, 1⟩,
   ⟨0x2C, 2, 1, .ro, 0x0, 1⟩,
   ⟨0x2C, 3, 1, .ro, 0x0, 1⟩,
   ⟨0x2C, 4, 6, .ro, 0x0, 1⟩,
   ⟨0x2C, 10, 5, .ro, 0x0, 1⟩,
   ⟨0x30, 0, 1, .wo, 0x0, 1⟩,
   ⟨0x30, 1, 1, .wo, 0x0, 1⟩,
   ⟨0x30, 2, 1, .wo, 0x0, 1⟩]

def b5100x_1 : List FldRow :=
  [⟨0x34, 0, 1, .cs, 0x0, 1⟩,
   ⟨0x34, 1, 1, .cs, 0x0, 1⟩]

def b6000x_0 : List FldRow :=
  [⟨0x0, 0, 3, .cs, 0x0, 1⟩,
   ⟨0x0, 3, 1, .cs, 0x0, 1⟩,
   ⟨0x0, 4, 1, .cs, 0x0, 1⟩,
   ⟨0x0, 5, 2, .cs, 0x0, 1⟩,
   ⟨0x0, 7, 2, .cs, 0x0, 1⟩,
   ⟨0x0, 9, 3, .cs, 0x0, 1⟩,
   ⟨0x0, 12, 1, .cs, 0x0, 1⟩,
   ⟨0x0, 13, 4, .cs, 0x2, 1⟩,
   ⟨0x4, 0, 12, .cs, 0x0, 1⟩,
   ⟨0x4, 12, 9, .cs, 0x0, 1⟩,
   ⟨0x8, 0, 12, .cs, 0x32, 1⟩,
   ⟨0x8, 12, 12, .cs, 0x1F4, 1⟩,
   ⟨0xC, 0, 16, .cs, 0x0, 1⟩,
   ⟨0xC, 16, 4, .cs, 0x0, 1⟩,
   ⟨0xC, 20, 1, .cs, 0x0, 1⟩,
   ⟨0x10, 0, 16, .cs, 0x0, 1⟩,
   ⟨0x10, 16, 4, .cs, 0x0, 1⟩,
   ⟨0x10, 20, 1, .cs, 0x0, 1⟩,
   ⟨0x14, 0, 16, .cs, 0x0, 1⟩,
   ⟨0x14, 16, 16, .cs, 0x0, 1⟩,
   ⟨0x18, 0, 24, .cs, 0x0, 1⟩,
   ⟨0x1C, 0, 24, .cs, 0x0, 1⟩,
   ⟨0x20, 0, 2, .ro, 0x0, 1⟩,
   ⟨0x20, 2, 2, .ro, 0x0, 1⟩,
   ⟨0x20, 4, 2, .ro, 0x0, 1⟩,
   ⟨0x20, 6, 1, .ro, 0x0, 3⟩,
   ⟨0x20, 9, 1, .ro, 0x0, 3⟩,
   ⟨0x20, 12, 1, .ro, 0x0, 1⟩,
   ⟨0x20, 13, 1, .ro, 0x0, 3⟩,
   ⟨0x20, 16, 1, .ro, 0x0, 1⟩,
   ⟨0x20, 17, 1, .ro, 0x0, 1⟩,
   ⟨0x24, 0, 32, .ro, 0x0, 1⟩,
   ⟨0x28, 0, 8, .ro, 0xFF, 1⟩,
   ⟨0x28, 8, 8, .ro, 0xFF, 1⟩,
   ⟨0x28, 16, 8, .ro, 0xFF, 1⟩,
   ⟨0x2C, 0, 1, .w1c, 0x0, 1⟩,
   ⟨0x2C, 1, 1, .w1c, 0x0, 1⟩,
   ⟨0x2C, 2, 1, .w1c, 0x0, 1⟩,
   ⟨0x2C, 3, 1, .w1c, 0x0, 1⟩,
   ⟨0x2C, 4, 1, .w1c, 0x0, 1⟩]

def b6000x_1 : List FldRow :=
  [⟨0x2C, 5, 1, .w1c, 0x0, 1⟩,
   ⟨0x2C, 6, 1, .w1c, 0x0, 1⟩,
   ⟨0x30, 0, 16, .ro, 0x0, 1⟩,
   ⟨0x30, 16, 16, .ro, 0x0, 1⟩]

/-! FC_SDCLK: in the windows of FC00 to FC03 alone (R174). -/
def b6000xsdclk : List FldRow := [⟨0x3C, 0, 6, .cs, 0x0, 1⟩, ⟨0x3C, 6, 1, .cs, 0x0, 1⟩]

def b7000_0 : List FldRow :=
  [⟨0x0, 0, 8, .ro, 0x10, 1⟩,
   ⟨0x0, 8, 8, .ro, 0x1, 1⟩,
   ⟨0x4, 0, 1, .ro, 0x0, 16⟩,
   ⟨0x4, 16, 1, .ro, 0x0, 16⟩,
   ⟨0x8, 0, 1, .ro, 0x0, 16⟩,
   ⟨0x8, 16, 1, .ro, 0x0, 16⟩,
   ⟨0xC, 0, 1, .ro, 0x0, 16⟩,
   ⟨0x10, 0, 16, .rw, 0x0, 1⟩,
   ⟨0x10, 31, 1, .wo, 0x0, 1⟩,
   ⟨0x14, 0, 16, .ro, 0x0, 1⟩,
   ⟨0x14, 16, 2, .ro, 0x0, 1⟩,
   ⟨0x14, 18, 4, .ro, 0x0, 1⟩]

def b7100x_0 : List FldRow :=
  [⟨0x0, 0, 1, .cs, 0x0, 1⟩,
   ⟨0x0, 1, 6, .cs, 0x0, 1⟩,
   ⟨0x0, 8, 6, .cs, 0x0, 1⟩,
   ⟨0x0, 14, 1, .cs, 0x1, 1⟩,
   ⟨0x0, 16, 4, .cs, 0x0, 1⟩,
   ⟨0x0, 20, 8, .cs, 0x3, 1⟩,
   ⟨0x4, 0, 6, .cs, 0x0, 1⟩,
   ⟨0x4, 6, 1, .cs, 0x0, 1⟩,
   ⟨0x4, 8, 6, .cs, 0x0, 1⟩,
   ⟨0x4, 14, 1, .cs, 0x0, 1⟩,
   ⟨0x4, 16, 6, .cs, 0x0, 1⟩,
   ⟨0x4, 22, 1, .cs, 0x0, 1⟩,
   ⟨0x4, 24, 6, .cs, 0x0, 1⟩,
   ⟨0x4, 30, 1, .cs, 0x0, 1⟩,
   ⟨0x8, 0, 6, .cs, 0xA, 1⟩,
   ⟨0x8, 6, 1, .cs, 0x1, 1⟩,
   ⟨0x8, 8, 8, .cs, 0x32, 1⟩,
   ⟨0xC, 0, 6, .cs, 0xA, 1⟩,
   ⟨0xC, 6, 1, .cs, 0x0, 1⟩,
   ⟨0xC, 8, 7, .cs, 0x19, 1⟩,
   ⟨0x10, 0, 10, .cs, 0x14, 1⟩,
   ⟨0x10, 10, 8, .cs, 0x32, 1⟩,
   ⟨0x14, 0, 16, .cs, 0x0, 1⟩,
   ⟨0x14, 16, 1, .cs, 0x0, 1⟩,
   ⟨0x18, 0, 3, .ro, 0x0, 1⟩,
   ⟨0x18, 3, 3, .ro, 0x0, 1⟩,
   ⟨0x18, 6, 3, .ro, 0x0, 1⟩,
   ⟨0x18, 9, 1, .ro, 0x0, 1⟩,
   ⟨0x18, 10, 1, .ro, 0x0, 1⟩,
   ⟨0x18, 11, 2, .ro, 0x0, 1⟩,
   ⟨0x18, 13, 2, .ro, 0x0, 1⟩,
   ⟨0x18, 15, 2, .ro, 0x0, 1⟩,
   ⟨0x18, 17, 1, .ro, 0x0, 1⟩,
   ⟨0x18, 18, 1, .ro, 0x0, 1⟩,
   ⟨0x18, 19, 1, .ro, 0x0, 1⟩,
   ⟨0x18, 20, 1, .ro, 0x0, 1⟩,
   ⟨0x1C, 0, 32, .ro, 0xFFFFFFFF, 1⟩,
   ⟨0x20, 0, 32, .ro, 0xFFFFFFFF, 1⟩,
   ⟨0x24, 0, 16, .ro, 0x0, 1⟩,
   ⟨0x24, 16, 16, .ro, 0x0, 1⟩]

def b7100x_1 : List FldRow :=
  [⟨0x28, 0, 1, .w1c, 0x0, 1⟩,
   ⟨0x28, 1, 1, .w1c, 0x0, 1⟩,
   ⟨0x28, 2, 1, .w1c, 0x0, 1⟩,
   ⟨0x28, 3, 1, .w1c, 0x0, 1⟩,
   ⟨0x28, 4, 1, .w1c, 0x0, 1⟩,
   ⟨0x28, 5, 1, .w1c, 0x0, 1⟩,
   ⟨0x28, 6, 1, .w1c, 0x0, 1⟩,
   ⟨0x2C, 0, 16, .ro, 0x0, 1⟩,
   ⟨0x2C, 16, 16, .ro, 0x0, 1⟩]

def b8000_0 : List FldRow :=
  [⟨0x0, 0, 10, .ro, 0x200, 1⟩,
   ⟨0x0, 11, 11, .ro, 0x400, 1⟩,
   ⟨0x0, 24, 8, .ro, 0x1, 1⟩,
   ⟨0x4, 0, 6, .cs, 0x0, 1⟩,
   ⟨0x4, 6, 1, .cs, 0x0, 1⟩,
   ⟨0x4, 7, 1, .cs, 0x0, 1⟩,
   ⟨0x4, 8, 1, .cs, 0x0, 1⟩,
   ⟨0x4, 9, 1, .cs, 0x0, 1⟩,
   ⟨0x4, 10, 1, .cs, 0x0, 1⟩,
   ⟨0x4, 11, 1, .cs, 0x0, 1⟩,
   ⟨0x4, 16, 16, .cs, 0x88B5, 1⟩,
   ⟨0x8, 0, 17, .cs, 0x3E8, 1⟩,
   ⟨0xC, 0, 10, .cs, 0x28, 1⟩,
   ⟨0xC, 16, 10, .cs, 0x3C, 1⟩,
   ⟨0x10, 0, 32, .cs, 0x2, 1⟩,
   ⟨0x14, 0, 8, .cs, 0x0, 1⟩,
   ⟨0x18, 0, 5, .cs, 0x0, 1⟩,
   ⟨0x18, 8, 5, .cs, 0x1, 1⟩,
   ⟨0x18, 16, 5, .cs, 0x2, 1⟩,
   ⟨0x18, 24, 5, .cs, 0x3, 1⟩,
   ⟨0x1C, 0, 1, .ro, 0x0, 1⟩,
   ⟨0x1C, 8, 1, .ro, 0x0, 1⟩,
   ⟨0x1C, 16, 1, .ro, 0x0, 1⟩,
   ⟨0x1C, 24, 1, .ro, 0x0, 1⟩,
   ⟨0x1C, 1, 1, .ro, 0x0, 1⟩,
   ⟨0x1C, 9, 1, .ro, 0x0, 1⟩,
   ⟨0x1C, 17, 1, .ro, 0x0, 1⟩,
   ⟨0x1C, 25, 1, .ro, 0x0, 1⟩,
   ⟨0x1C, 2, 1, .ro, 0x0, 1⟩,
   ⟨0x1C, 10, 1, .ro, 0x0, 1⟩,
   ⟨0x1C, 18, 1, .ro, 0x0, 1⟩,
   ⟨0x1C, 26, 1, .ro, 0x0, 1⟩,
   ⟨0x1C, 3, 1, .ro, 0x0, 1⟩,
   ⟨0x1C, 11, 1, .ro, 0x0, 1⟩,
   ⟨0x1C, 19, 1, .ro, 0x0, 1⟩,
   ⟨0x1C, 27, 1, .ro, 0x0, 1⟩,
   ⟨0x20, 0, 16, .rw, 0x0, 1⟩,
   ⟨0x20, 16, 5, .rw, 0x0, 1⟩,
   ⟨0x20, 21, 5, .rw, 0x0, 1⟩,
   ⟨0x20, 26, 1, .rw, 0x0, 1⟩]

def b8000_1 : List FldRow :=
  [⟨0x20, 31, 1, .wo, 0x0, 1⟩,
   ⟨0x24, 0, 16, .ro, 0x0, 1⟩,
   ⟨0x24, 16, 2, .ro, 0x0, 1⟩,
   ⟨0x28, 0, 1, .ro, 0x0, 1⟩,
   ⟨0x28, 1, 1, .ro, 0x0, 1⟩,
   ⟨0x28, 2, 1, .ro, 0x0, 1⟩,
   ⟨0x2C, 0, 32, .ro, 0x0, 1⟩,
   ⟨0x30, 0, 16, .cs, 0x0, 1⟩,
   ⟨0x30, 16, 4, .cs, 0x0, 1⟩,
   ⟨0x30, 20, 1, .cs, 0x0, 1⟩,
   ⟨0x34, 0, 10, .rw, 0x0, 1⟩,
   ⟨0x34, 10, 1, .rw, 0x0, 1⟩,
   ⟨0x34, 11, 1, .rw, 0x0, 1⟩,
   ⟨0x38, 0, 32, .ro, 0x0, 1⟩,
   ⟨0x3C, 0, 32, .ro, 0x0, 1⟩,
   ⟨0x40, 0, 32, .ro, 0x0, 1⟩,
   ⟨0x44, 0, 32, .ro, 0x0, 1⟩,
   ⟨0x48, 0, 9, .rw, 0x0, 1⟩,
   ⟨0x4C, 0, 32, .cs, 0x0, 1⟩,
   ⟨0x50, 0, 32, .cs, 0x0, 1⟩,
   ⟨0x54, 0, 32, .cs, 0x0, 1⟩,
   ⟨0x58, 0, 32, .cs, 0x0, 1⟩,
   ⟨0x5C, 0, 32, .cs, 0x0, 1⟩,
   ⟨0x60, 0, 32, .cs, 0x0, 1⟩,
   ⟨0x64, 0, 32, .cs, 0x0, 1⟩,
   ⟨0x68, 0, 32, .cs, 0x0, 1⟩,
   ⟨0x6C, 0, 8, .ro, 0xFF, 1⟩,
   ⟨0x6C, 8, 8, .ro, 0x0, 1⟩,
   ⟨0x6C, 16, 1, .ro, 0x1, 1⟩,
   ⟨0x6C, 17, 1, .ro, 0x0, 1⟩,
   ⟨0x70, 0, 16, .ro, 0x0, 1⟩,
   ⟨0x70, 16, 16, .ro, 0x0, 1⟩,
   ⟨0x74, 0, 1, .ro, 0x1, 32⟩,
   ⟨0x78, 0, 1, .ro, 0x1, 32⟩,
   ⟨0x7C, 0, 1, .ro, 0x1, 32⟩,
   ⟨0x80, 0, 1, .ro, 0x1, 32⟩,
   ⟨0x84, 0, 1, .ro, 0x1, 32⟩,
   ⟨0x88, 0, 1, .ro, 0x1, 32⟩,
   ⟨0x8C, 0, 1, .ro, 0x1, 32⟩,
   ⟨0x90, 0, 1, .ro, 0x1, 32⟩]

def b8000_2 : List FldRow :=
  [⟨0x94, 0, 1, .ro, 0x1, 32⟩,
   ⟨0x98, 0, 1, .ro, 0x1, 32⟩,
   ⟨0x9C, 0, 1, .ro, 0x1, 32⟩,
   ⟨0xA0, 0, 1, .ro, 0x1, 32⟩,
   ⟨0xA4, 0, 1, .ro, 0x1, 32⟩,
   ⟨0xA8, 0, 1, .ro, 0x1, 32⟩,
   ⟨0xAC, 0, 1, .ro, 0x1, 32⟩,
   ⟨0xB0, 0, 1, .ro, 0x1, 32⟩,
   ⟨0xB4, 0, 1, .w1c, 0x0, 1⟩,
   ⟨0xB4, 1, 1, .w1c, 0x0, 1⟩,
   ⟨0xB4, 2, 1, .w1c, 0x0, 1⟩,
   ⟨0xB4, 3, 1, .w1c, 0x0, 1⟩,
   ⟨0xB4, 4, 1, .w1c, 0x0, 1⟩,
   ⟨0xB4, 5, 1, .w1c, 0x0, 1⟩,
   ⟨0xB4, 6, 1, .w1c, 0x0, 1⟩,
   ⟨0xB4, 7, 1, .w1c, 0x0, 1⟩,
   ⟨0xB4, 8, 1, .w1c, 0x0, 1⟩,
   ⟨0xB4, 9, 1, .w1c, 0x0, 1⟩,
   ⟨0xB4, 10, 1, .w1c, 0x0, 1⟩,
   ⟨0xB4, 11, 1, .w1c, 0x0, 1⟩,
   ⟨0xB4, 12, 1, .w1c, 0x0, 1⟩,
   ⟨0xB4, 13, 1, .w1c, 0x0, 1⟩,
   ⟨0xB8, 0, 16, .ro, 0x0, 1⟩,
   ⟨0xB8, 16, 16, .ro, 0x0, 1⟩,
   ⟨0xBC, 0, 16, .ro, 0x0, 1⟩,
   ⟨0xBC, 16, 16, .ro, 0x0, 1⟩,
   ⟨0xC0, 0, 8, .ro, 0x0, 1⟩,
   ⟨0xC0, 8, 8, .ro, 0x0, 1⟩]

def b2000_0 : List FldRow :=
  [⟨0x0, 0, 1, .ro, 0x0, 1⟩,
   ⟨0x0, 1, 1, .ro, 0x0, 1⟩,
   ⟨0x4, 0, 1, .wo, 0x0, 1⟩,
   ⟨0x8, 0, 32, .ro, 0x0, 1⟩,
   ⟨0xC, 0, 32, .ro, 0x0, 1⟩,
   ⟨0x10, 0, 32, .ro, 0x0, 1⟩,
   ⟨0x14, 0, 32, .ro, 0x0, 1⟩,
   ⟨0x18, 0, 32, .ro, 0x0, 1⟩,
   ⟨0x1C, 0, 32, .ro, 0x0, 1⟩,
   ⟨0x20, 0, 8, .ro, 0x0, 1⟩,
   ⟨0x20, 8, 8, .ro, 0x0, 1⟩,
   ⟨0x20, 16, 8, .ro, 0x0, 1⟩,
   ⟨0x20, 24, 1, .ro, 0x0, 1⟩,
   ⟨0x24, 0, 1, .w1c, 0x0, 1⟩,
   ⟨0x24, 1, 1, .w1c, 0x0, 1⟩,
   ⟨0x28, 0, 16, .ro, 0x0, 1⟩,
   ⟨0x28, 16, 16, .ro, 0x0, 1⟩]

def b9000_0 : List FldRow :=
  [⟨0x0, 0, 1, .cs, 0x0, 1⟩,
   ⟨0x0, 1, 1, .cs, 0x0, 1⟩,
   ⟨0x0, 2, 1, .cs, 0x0, 1⟩,
   ⟨0x0, 3, 1, .cs, 0x0, 1⟩,
   ⟨0x0, 4, 8, .cs, 0x8, 1⟩,
   ⟨0x0, 12, 10, .cs, 0xFA, 1⟩,
   ⟨0x4, 0, 16, .cs, 0x0, 1⟩,
   ⟨0x8, 0, 8, .cs, 0x0, 1⟩,
   ⟨0x8, 8, 8, .cs, 0x0, 1⟩,
   ⟨0x8, 16, 8, .cs, 0x0, 1⟩,
   ⟨0x8, 24, 8, .cs, 0x0, 1⟩,
   ⟨0xC, 0, 3, .ro, 0x0, 1⟩,
   ⟨0xC, 3, 2, .ro, 0x0, 1⟩,
   ⟨0xC, 5, 1, .ro, 0x0, 1⟩,
   ⟨0xC, 6, 4, .ro, 0x0, 1⟩,
   ⟨0xC, 10, 6, .ro, 0x0, 1⟩,
   ⟨0xC, 16, 1, .ro, 0x0, 1⟩,
   ⟨0xC, 17, 1, .ro, 0x0, 1⟩,
   ⟨0x10, 0, 16, .ro, 0x0, 1⟩,
   ⟨0x10, 16, 8, .ro, 0x0, 1⟩,
   ⟨0x14, 0, 32, .ro, 0x0, 1⟩,
   ⟨0x18, 0, 8, .ro, 0xFF, 1⟩,
   ⟨0x18, 8, 8, .ro, 0xFF, 1⟩,
   ⟨0x18, 16, 8, .ro, 0xFF, 1⟩,
   ⟨0x18, 24, 8, .ro, 0xFF, 1⟩,
   ⟨0x1C, 0, 1, .ro, 0x0, 16⟩,
   ⟨0x20, 0, 6, .ro, 0x0, 1⟩,
   ⟨0x24, 0, 6, .ro, 0x0, 1⟩,
   ⟨0x28, 0, 6, .ro, 0x0, 1⟩,
   ⟨0x2C, 0, 6, .ro, 0x0, 1⟩,
   ⟨0x30, 0, 6, .ro, 0x0, 1⟩,
   ⟨0x34, 0, 6, .ro, 0x0, 1⟩,
   ⟨0x38, 0, 6, .ro, 0x0, 1⟩,
   ⟨0x3C, 0, 6, .ro, 0x0, 1⟩,
   ⟨0x20, 6, 1, .ro, 0x0, 1⟩,
   ⟨0x24, 6, 1, .ro, 0x0, 1⟩,
   ⟨0x28, 6, 1, .ro, 0x0, 1⟩,
   ⟨0x2C, 6, 1, .ro, 0x0, 1⟩,
   ⟨0x30, 6, 1, .ro, 0x0, 1⟩,
   ⟨0x34, 6, 1, .ro, 0x0, 1⟩]

def b9000_1 : List FldRow :=
  [⟨0x38, 6, 1, .ro, 0x0, 1⟩,
   ⟨0x3C, 6, 1, .ro, 0x0, 1⟩,
   ⟨0x20, 7, 1, .ro, 0x0, 1⟩,
   ⟨0x24, 7, 1, .ro, 0x0, 1⟩,
   ⟨0x28, 7, 1, .ro, 0x0, 1⟩,
   ⟨0x2C, 7, 1, .ro, 0x0, 1⟩,
   ⟨0x30, 7, 1, .ro, 0x0, 1⟩,
   ⟨0x34, 7, 1, .ro, 0x0, 1⟩,
   ⟨0x38, 7, 1, .ro, 0x0, 1⟩,
   ⟨0x3C, 7, 1, .ro, 0x0, 1⟩,
   ⟨0x20, 16, 16, .ro, 0x0, 1⟩,
   ⟨0x24, 16, 16, .ro, 0x0, 1⟩,
   ⟨0x28, 16, 16, .ro, 0x0, 1⟩,
   ⟨0x2C, 16, 16, .ro, 0x0, 1⟩,
   ⟨0x30, 16, 16, .ro, 0x0, 1⟩,
   ⟨0x34, 16, 16, .ro, 0x0, 1⟩,
   ⟨0x38, 16, 16, .ro, 0x0, 1⟩,
   ⟨0x3C, 16, 16, .ro, 0x0, 1⟩,
   ⟨0x40, 0, 6, .rw, 0x0, 1⟩,
   ⟨0x44, 0, 16, .ro, 0x0, 1⟩,
   ⟨0x44, 16, 16, .ro, 0x0, 1⟩,
   ⟨0x48, 0, 16, .ro, 0x0, 1⟩,
   ⟨0x4C, 0, 16, .ro, 0x0, 1⟩,
   ⟨0x50, 0, 16, .ro, 0x0, 1⟩,
   ⟨0x54, 0, 16, .ro, 0x0, 1⟩,
   ⟨0x48, 16, 16, .ro, 0x0, 1⟩,
   ⟨0x4C, 16, 16, .ro, 0x0, 1⟩,
   ⟨0x50, 16, 16, .ro, 0x0, 1⟩,
   ⟨0x54, 16, 16, .ro, 0x0, 1⟩,
   ⟨0x58, 0, 5, .cs, 0x4, 1⟩,
   ⟨0x58, 5, 1, .cs, 0x1, 1⟩,
   ⟨0x58, 6, 1, .cs, 0x1, 1⟩,
   ⟨0x58, 8, 8, .cs, 0x64, 1⟩,
   ⟨0x5C, 0, 32, .rw, 0x0, 1⟩,
   ⟨0x60, 0, 32, .rw, 0x0, 1⟩,
   ⟨0x64, 0, 16, .rw, 0x0, 1⟩,
   ⟨0x64, 31, 1, .wo, 0x0, 1⟩,
   ⟨0x68, 0, 8, .ro, 0x0, 1⟩,
   ⟨0x68, 8, 8, .ro, 0x0, 1⟩,
   ⟨0x68, 16, 6, .ro, 0x0, 1⟩]

def b9000_2 : List FldRow :=
  [⟨0x68, 22, 1, .ro, 0x0, 1⟩,
   ⟨0x68, 23, 1, .ro, 0x0, 1⟩,
   ⟨0x6C, 0, 1, .w1c, 0x0, 1⟩,
   ⟨0x6C, 1, 1, .w1c, 0x0, 1⟩,
   ⟨0x6C, 2, 1, .w1c, 0x0, 1⟩,
   ⟨0x6C, 3, 1, .w1c, 0x0, 1⟩,
   ⟨0x6C, 4, 1, .w1c, 0x0, 1⟩,
   ⟨0x6C, 5, 1, .w1c, 0x0, 1⟩,
   ⟨0x6C, 6, 1, .w1c, 0x0, 1⟩,
   ⟨0x6C, 7, 1, .w1c, 0x0, 1⟩,
   ⟨0x6C, 8, 1, .w1c, 0x0, 1⟩,
   ⟨0x70, 0, 16, .ro, 0x0, 1⟩,
   ⟨0x70, 16, 16, .ro, 0x0, 1⟩]

def bC000x_0 : List FldRow :=
  [⟨0x0, 0, 8, .ro, 0x80, 1⟩,
   ⟨0x0, 8, 8, .ro, 0x1, 1⟩,
   ⟨0x4, 0, 3, .cs, 0x0, 1⟩,
   ⟨0x4, 3, 1, .cs, 0x0, 1⟩,
   ⟨0x4, 4, 1, .cs, 0x0, 1⟩,
   ⟨0x8, 0, 8, .cs, 0x0, 1⟩,
   ⟨0x8, 8, 8, .cs, 0x1, 1⟩,
   ⟨0x8, 16, 7, .cs, 0x1, 1⟩,
   ⟨0x8, 23, 7, .cs, 0x0, 1⟩,
   ⟨0xC, 0, 5, .cs, 0x0, 1⟩,
   ⟨0xC, 5, 5, .cs, 0x0, 1⟩,
   ⟨0xC, 10, 4, .cs, 0x0, 1⟩,
   ⟨0xC, 14, 4, .cs, 0x0, 1⟩,
   ⟨0xC, 18, 1, .cs, 0x0, 1⟩,
   ⟨0x10, 0, 1, .cs, 0x0, 1⟩,
   ⟨0x10, 1, 7, .cs, 0x0, 1⟩,
   ⟨0x10, 8, 7, .cs, 0x0, 1⟩,
   ⟨0x14, 0, 2, .ro, 0x0, 1⟩,
   ⟨0x14, 2, 1, .ro, 0x0, 1⟩,
   ⟨0x14, 3, 1, .ro, 0x0, 1⟩,
   ⟨0x14, 4, 1, .ro, 0x0, 1⟩,
   ⟨0x14, 5, 1, .ro, 0x0, 1⟩,
   ⟨0x14, 6, 3, .ro, 0x0, 1⟩,
   ⟨0x14, 9, 3, .ro, 0x0, 1⟩,
   ⟨0x14, 16, 7, .ro, 0x0, 1⟩,
   ⟨0x18, 0, 9, .ro, 0x0, 1⟩,
   ⟨0x18, 16, 8, .ro, 0x0, 1⟩,
   ⟨0x18, 24, 1, .ro, 0x0, 1⟩,
   ⟨0x1C, 0, 1, .wo, 0x0, 1⟩,
   ⟨0x20, 0, 2, .ro, 0x0, 1⟩,
   ⟨0x20, 2, 2, .ro, 0x0, 1⟩,
   ⟨0x24, 0, 7, .rw, 0x0, 1⟩,
   ⟨0x28, 0, 32, .cs, 0x0, 1⟩,
   ⟨0x2C, 0, 32, .cs, 0x0, 1⟩,
   ⟨0x30, 0, 32, .cs, 0x0, 1⟩,
   ⟨0x34, 0, 32, .cs, 0x0, 1⟩,
   ⟨0x38, 0, 32, .cs, 0x0, 1⟩,
   ⟨0x3C, 0, 32, .cs, 0x0, 1⟩,
   ⟨0x40, 0, 32, .cs, 0x0, 1⟩,
   ⟨0x44, 0, 32, .cs, 0x0, 1⟩]

def bC000x_1 : List FldRow :=
  [⟨0x48, 0, 32, .ro, 0x0, 1⟩,
   ⟨0x4C, 0, 7, .rw, 0x0, 1⟩,
   ⟨0x4C, 31, 1, .wo, 0x0, 1⟩,
   ⟨0x50, 0, 2, .ro, 0x0, 1⟩,
   ⟨0x50, 2, 2, .ro, 0x0, 1⟩,
   ⟨0x54, 0, 1, .ro, 0x0, 32⟩,
   ⟨0x58, 0, 1, .ro, 0x0, 32⟩,
   ⟨0x5C, 0, 1, .ro, 0x0, 32⟩,
   ⟨0x60, 0, 1, .ro, 0x0, 32⟩,
   ⟨0x64, 0, 1, .ro, 0x0, 32⟩,
   ⟨0x68, 0, 1, .ro, 0x0, 32⟩,
   ⟨0x6C, 0, 1, .ro, 0x0, 32⟩,
   ⟨0x70, 0, 1, .ro, 0x0, 32⟩,
   ⟨0x74, 0, 1, .w1c, 0x0, 1⟩,
   ⟨0x74, 1, 1, .w1c, 0x0, 1⟩,
   ⟨0x74, 2, 1, .w1c, 0x0, 1⟩,
   ⟨0x74, 3, 1, .w1c, 0x0, 1⟩,
   ⟨0x74, 4, 1, .w1c, 0x0, 1⟩,
   ⟨0x74, 5, 1, .w1c, 0x0, 1⟩,
   ⟨0x74, 6, 1, .w1c, 0x0, 1⟩,
   ⟨0x74, 7, 1, .w1c, 0x0, 1⟩,
   ⟨0x74, 8, 1, .w1c, 0x0, 1⟩,
   ⟨0x78, 0, 16, .ro, 0x0, 1⟩,
   ⟨0x78, 16, 16, .ro, 0x0, 1⟩,
   ⟨0x7C, 0, 16, .ro, 0x0, 1⟩,
   ⟨0x7C, 16, 16, .ro, 0x0, 1⟩]

def bD000_0 : List FldRow :=
  [⟨0x0, 0, 8, .ro, 0x10, 1⟩,
   ⟨0x0, 8, 8, .ro, 0x10, 1⟩,
   ⟨0x0, 16, 8, .ro, 0x20, 1⟩,
   ⟨0x0, 24, 8, .ro, 0x1, 1⟩,
   ⟨0x4, 0, 1, .rw, 0x0, 1⟩,
   ⟨0x8, 0, 1, .ro, 0x0, 1⟩,
   ⟨0x8, 1, 1, .ro, 0x0, 1⟩,
   ⟨0x8, 2, 2, .ro, 0x0, 1⟩,
   ⟨0x8, 4, 2, .ro, 0x0, 1⟩,
   ⟨0xC, 0, 10, .rw, 0x4, 1⟩,
   ⟨0x10, 12, 20, .rw, 0x0, 1⟩,
   ⟨0x14, 0, 32, .rw, 0x0, 1⟩,
   ⟨0x18, 12, 20, .rw, 0x0, 1⟩,
   ⟨0x1C, 0, 32, .rw, 0x0, 1⟩,
   ⟨0x20, 0, 1, .w1c, 0x0, 1⟩,
   ⟨0x20, 1, 1, .w1c, 0x0, 1⟩,
   ⟨0x20, 2, 1, .w1c, 0x0, 1⟩,
   ⟨0x20, 3, 1, .w1c, 0x0, 1⟩,
   ⟨0x20, 4, 1, .w1c, 0x0, 1⟩,
   ⟨0x20, 5, 1, .w1c, 0x0, 1⟩,
   ⟨0x20, 6, 1, .w1c, 0x0, 1⟩,
   ⟨0x20, 7, 1, .w1c, 0x0, 1⟩,
   ⟨0x24, 0, 16, .ro, 0x0, 1⟩,
   ⟨0x24, 16, 16, .ro, 0x0, 1⟩,
   ⟨0x28, 0, 1, .ro, 0x0, 16⟩,
   ⟨0x2C, 0, 1, .ro, 0x0, 16⟩,
   ⟨0x30, 0, 7, .ro, 0x0, 1⟩,
   ⟨0x34, 0, 5, .rw, 0x0, 1⟩,
   ⟨0x38, 0, 1, .ro, 0x0, 16⟩]

def bD100x_0 : List FldRow :=
  [⟨0x0, 12, 20, .rw, 0x0, 1⟩,
   ⟨0x4, 0, 32, .rw, 0x0, 1⟩,
   ⟨0x8, 0, 1, .rw, 0x0, 1⟩,
   ⟨0x8, 1, 3, .rw, 0x0, 1⟩,
   ⟨0x8, 4, 4, .rw, 0x0, 1⟩,
   ⟨0xC, 0, 12, .ro, 0x0, 1⟩,
   ⟨0xC, 12, 1, .ro, 0x1, 1⟩,
   ⟨0xC, 13, 1, .ro, 0x0, 1⟩,
   ⟨0xC, 14, 2, .ro, 0x0, 1⟩,
   ⟨0xC, 16, 4, .ro, 0x0, 1⟩]

def bD200x_0 : List FldRow :=
  [⟨0x0, 12, 20, .rw, 0x0, 1⟩,
   ⟨0x4, 0, 32, .rw, 0x0, 1⟩,
   ⟨0x8, 0, 1, .rw, 0x0, 1⟩,
   ⟨0x8, 1, 3, .rw, 0x0, 1⟩,
   ⟨0x8, 4, 5, .rw, 0x0, 1⟩,
   ⟨0x8, 9, 1, .rw, 0x0, 1⟩,
   ⟨0xC, 0, 12, .ro, 0x0, 1⟩,
   ⟨0xC, 12, 1, .ro, 0x1, 1⟩,
   ⟨0xC, 13, 1, .ro, 0x0, 1⟩,
   ⟨0xC, 14, 1, .ro, 0x0, 1⟩,
   ⟨0xC, 16, 16, .ro, 0x0, 1⟩]

def bD300x_0 : List FldRow :=
  [⟨0x0, 0, 8, .rw, 0x1, 1⟩,
   ⟨0x0, 8, 10, .rw, 0x0, 1⟩]

def bE000_0 : List FldRow :=
  [⟨0x0, 0, 8, .ro, 0x80, 1⟩,
   ⟨0x0, 8, 8, .ro, 0x40, 1⟩,
   ⟨0x0, 16, 8, .ro, 0x40, 1⟩,
   ⟨0x0, 24, 8, .ro, 0x40, 1⟩,
   ⟨0x4, 0, 2, .rw, 0x1, 1⟩,
   ⟨0x4, 2, 10, .rw, 0x64, 1⟩,
   ⟨0x8, 0, 8, .ro, 0x0, 1⟩,
   ⟨0x8, 8, 8, .ro, 0x0, 1⟩,
   ⟨0x8, 16, 7, .ro, 0x0, 1⟩,
   ⟨0xC, 0, 8, .ro, 0x0, 1⟩,
   ⟨0xC, 8, 8, .ro, 0x0, 1⟩,
   ⟨0xC, 16, 7, .ro, 0x0, 1⟩,
   ⟨0x10, 0, 32, .ro, 0x0, 1⟩,
   ⟨0x14, 16, 16, .rw, 0x0, 1⟩,
   ⟨0x18, 0, 32, .ro, 0x0, 1⟩,
   ⟨0x1C, 0, 32, .ro, 0x0, 1⟩,
   ⟨0x20, 0, 32, .ro, 0x0, 1⟩,
   ⟨0x24, 0, 32, .ro, 0x0, 1⟩,
   ⟨0x28, 0, 6, .wo, 0x0, 1⟩,
   ⟨0x28, 6, 2, .wo, 0x0, 1⟩,
   ⟨0x28, 8, 8, .wo, 0x0, 1⟩,
   ⟨0x2C, 0, 1, .ro, 0x0, 32⟩,
   ⟨0x30, 0, 1, .ro, 0x0, 32⟩,
   ⟨0x34, 0, 1, .w1c, 0x0, 1⟩,
   ⟨0x34, 1, 1, .w1c, 0x0, 1⟩,
   ⟨0x34, 2, 1, .w1c, 0x0, 1⟩,
   ⟨0x34, 3, 1, .w1c, 0x0, 1⟩,
   ⟨0x34, 4, 1, .w1c, 0x0, 1⟩,
   ⟨0x34, 5, 1, .w1c, 0x0, 1⟩,
   ⟨0x34, 6, 1, .w1c, 0x0, 1⟩,
   ⟨0x38, 0, 16, .ro, 0x0, 1⟩,
   ⟨0x38, 16, 16, .ro, 0x0, 1⟩,
   ⟨0x3C, 0, 1, .wo, 0x0, 1⟩]

def bE100xsem_0 : List FldRow :=
  [⟨0x0, 0, 8, .ro, 0xFF, 1⟩,
   ⟨0x0, 16, 16, .ro, 0x0, 1⟩]

def bF000x_0 : List FldRow :=
  [⟨0x0, 0, 2, .cs, 0x0, 1⟩,
   ⟨0x0, 8, 8, .cs, 0x0, 1⟩,
   ⟨0x4, 0, 3, .ro, 0x0, 1⟩,
   ⟨0x4, 3, 2, .ro, 0x0, 1⟩,
   ⟨0x4, 5, 1, .ro, 0x0, 1⟩,
   ⟨0x4, 6, 2, .ro, 0x0, 1⟩,
   ⟨0x8, 0, 8, .ro, 0xFF, 1⟩,
   ⟨0xC, 0, 5, .ro, 0x0, 1⟩,
   ⟨0xC, 5, 5, .ro, 0x0, 1⟩,
   ⟨0xC, 10, 5, .ro, 0x0, 1⟩,
   ⟨0x10, 0, 16, .ro, 0x0, 1⟩,
   ⟨0x10, 16, 16, .ro, 0x0, 1⟩,
   ⟨0x14, 0, 16, .ro, 0x0, 1⟩,
   ⟨0x18, 0, 1, .w1c, 0x0, 1⟩,
   ⟨0x18, 1, 1, .w1c, 0x0, 1⟩,
   ⟨0x18, 2, 1, .w1c, 0x0, 1⟩,
   ⟨0x18, 3, 1, .w1c, 0x0, 1⟩,
   ⟨0x18, 4, 1, .w1c, 0x0, 1⟩,
   ⟨0x1C, 0, 16, .ro, 0x0, 1⟩,
   ⟨0x1C, 16, 16, .ro, 0x0, 1⟩]

def bF100_0 : List FldRow :=
  [⟨0x0, 0, 1, .cs, 0x0, 1⟩,
   ⟨0x0, 1, 2, .cs, 0x0, 1⟩,
   ⟨0x0, 3, 1, .cs, 0x0, 1⟩,
   ⟨0x0, 4, 7, .cs, 0xC, 1⟩,
   ⟨0x4, 0, 32, .cs, 0x0, 1⟩,
   ⟨0x8, 0, 2, .ro, 0x0, 1⟩,
   ⟨0x8, 2, 1, .ro, 0x0, 4⟩,
   ⟨0x8, 6, 1, .ro, 0x0, 1⟩,
   ⟨0x8, 7, 3, .ro, 0x0, 1⟩,
   ⟨0xC, 0, 16, .ro, 0x0, 1⟩,
   ⟨0x10, 0, 2, .rw, 0x0, 1⟩,
   ⟨0x14, 0, 16, .cs, 0x0, 1⟩,
   ⟨0x14, 16, 4, .cs, 0x0, 1⟩,
   ⟨0x14, 20, 1, .cs, 0x0, 1⟩,
   ⟨0x18, 0, 12, .cs, 0x0, 1⟩,
   ⟨0x1C, 0, 32, .cs, 0x0, 1⟩,
   ⟨0x20, 0, 32, .cs, 0x0, 1⟩,
   ⟨0x24, 0, 32, .ro, 0x0, 1⟩,
   ⟨0x28, 0, 4, .rw, 0x0, 1⟩,
   ⟨0x2C, 0, 16, .cs, 0x0, 1⟩,
   ⟨0x2C, 16, 4, .cs, 0x0, 1⟩,
   ⟨0x2C, 20, 1, .cs, 0x0, 1⟩,
   ⟨0x2C, 21, 1, .cs, 0x0, 1⟩,
   ⟨0x2C, 22, 1, .cs, 0x0, 1⟩,
   ⟨0x30, 0, 2, .cs, 0x0, 1⟩,
   ⟨0x30, 2, 2, .cs, 0x0, 1⟩,
   ⟨0x30, 16, 12, .cs, 0x0, 1⟩,
   ⟨0x34, 0, 8, .cs, 0x3, 1⟩,
   ⟨0x38, 0, 32, .cs, 0x0, 1⟩,
   ⟨0x3C, 0, 32, .cs, 0x0, 1⟩,
   ⟨0x40, 0, 8, .ro, 0xFF, 1⟩,
   ⟨0x40, 8, 1, .ro, 0x1, 1⟩,
   ⟨0x40, 16, 16, .ro, 0x0, 1⟩,
   ⟨0x44, 0, 1, .ro, 0x1, 12⟩,
   ⟨0x48, 0, 1, .w1c, 0x0, 1⟩,
   ⟨0x48, 1, 1, .w1c, 0x0, 1⟩,
   ⟨0x48, 2, 1, .w1c, 0x0, 1⟩,
   ⟨0x48, 3, 1, .w1c, 0x0, 1⟩,
   ⟨0x48, 4, 1, .w1c, 0x0, 1⟩,
   ⟨0x48, 5, 1, .w1c, 0x0, 1⟩]

def bF100_1 : List FldRow :=
  [⟨0x4C, 0, 16, .ro, 0x0, 1⟩,
   ⟨0x4C, 16, 16, .ro, 0x0, 1⟩]

def b10000_0 : List FldRow :=
  [⟨0x0, 0, 1, .cs, 0x0, 1⟩,
   ⟨0x0, 1, 4, .cs, 0x0, 1⟩,
   ⟨0x0, 5, 6, .cs, 0x2, 1⟩,
   ⟨0x0, 11, 17, .cs, 0x1F4, 1⟩,
   ⟨0x4, 0, 32, .cs, 0x0, 1⟩,
   ⟨0x8, 0, 1, .cs, 0x0, 16⟩,
   ⟨0xC, 0, 9, .cs, 0x0, 1⟩,
   ⟨0xC, 9, 9, .cs, 0x0, 1⟩,
   ⟨0xC, 18, 1, .cs, 0x0, 1⟩,
   ⟨0x10, 0, 13, .cs, 0x100, 1⟩,
   ⟨0x14, 0, 3, .ro, 0x0, 1⟩,
   ⟨0x14, 3, 1, .ro, 0x0, 1⟩,
   ⟨0x14, 4, 1, .ro, 0x0, 1⟩,
   ⟨0x14, 5, 1, .ro, 0x0, 1⟩,
   ⟨0x14, 6, 1, .ro, 0x0, 1⟩,
   ⟨0x14, 7, 1, .ro, 0x0, 1⟩,
   ⟨0x14, 8, 3, .ro, 0x0, 1⟩,
   ⟨0x14, 11, 1, .ro, 0x0, 1⟩,
   ⟨0x14, 12, 1, .ro, 0x0, 1⟩,
   ⟨0x14, 13, 1, .ro, 0x0, 1⟩,
   ⟨0x18, 0, 32, .ro, 0x0, 1⟩,
   ⟨0x1C, 0, 32, .ro, 0x0, 1⟩,
   ⟨0x20, 31, 1, .wo, 0x0, 1⟩,
   ⟨0x24, 0, 2, .ro, 0x0, 1⟩,
   ⟨0x24, 2, 3, .ro, 0x0, 1⟩,
   ⟨0x28, 0, 1, .ro, 0x0, 16⟩,
   ⟨0x28, 16, 1, .ro, 0x0, 16⟩,
   ⟨0x2C, 0, 1, .w1c, 0x0, 1⟩,
   ⟨0x2C, 1, 1, .w1c, 0x0, 1⟩,
   ⟨0x2C, 2, 1, .w1c, 0x0, 1⟩,
   ⟨0x2C, 3, 1, .w1c, 0x0, 1⟩,
   ⟨0x2C, 4, 1, .w1c, 0x0, 1⟩,
   ⟨0x2C, 5, 1, .w1c, 0x0, 1⟩,
   ⟨0x2C, 6, 1, .w1c, 0x0, 1⟩,
   ⟨0x2C, 7, 1, .w1c, 0x0, 1⟩,
   ⟨0x2C, 8, 1, .w1c, 0x0, 1⟩,
   ⟨0x30, 0, 16, .ro, 0x0, 1⟩,
   ⟨0x30, 16, 16, .ro, 0x0, 1⟩]

def b10100x_0 : List FldRow :=
  [⟨0x0, 0, 2, .ro, 0x0, 1⟩,
   ⟨0x0, 2, 7, .ro, 0x0, 1⟩,
   ⟨0x0, 9, 2, .ro, 0x0, 1⟩,
   ⟨0x4, 0, 16, .ro, 0x0, 1⟩,
   ⟨0x4, 16, 16, .ro, 0x0, 1⟩,
   ⟨0x8, 0, 20, .ro, 0x0, 1⟩]

def b11000_0 : List FldRow :=
  [⟨0x0, 0, 16, .ro, 0x2000, 1⟩,
   ⟨0x0, 16, 8, .ro, 0x20, 1⟩,
   ⟨0x0, 24, 8, .ro, 0x1, 1⟩,
   ⟨0x4, 0, 1, .ro, 0x0, 1⟩,
   ⟨0x4, 1, 1, .ro, 0x0, 1⟩,
   ⟨0x4, 2, 1, .ro, 0x0, 1⟩,
   ⟨0x4, 3, 1, .ro, 0x0, 1⟩,
   ⟨0x4, 16, 10, .ro, 0x0, 1⟩,
   ⟨0x8, 0, 32, .ro, 0x0, 1⟩,
   ⟨0xC, 0, 13, .ro, 0x0, 1⟩,
   ⟨0xC, 13, 1, .ro, 0x0, 1⟩,
   ⟨0x10, 0, 32, .ro, 0x0, 1⟩,
   ⟨0x14, 0, 13, .ro, 0x0, 1⟩,
   ⟨0x18, 0, 32, .ro, 0x0, 1⟩,
   ⟨0x1C, 0, 16, .ro, 0x0, 1⟩,
   ⟨0x20, 0, 32, .ro, 0x0, 1⟩,
   ⟨0x24, 0, 32, .ro, 0x0, 1⟩,
   ⟨0x28, 0, 32, .ro, 0x0, 1⟩,
   ⟨0x2C, 0, 1, .w1c, 0x0, 1⟩,
   ⟨0x2C, 1, 1, .w1c, 0x0, 1⟩,
   ⟨0x2C, 2, 1, .w1c, 0x0, 1⟩,
   ⟨0x2C, 3, 1, .w1c, 0x0, 1⟩,
   ⟨0x2C, 4, 1, .w1c, 0x0, 1⟩,
   ⟨0x30, 0, 16, .ro, 0x0, 1⟩,
   ⟨0x30, 16, 16, .ro, 0x0, 1⟩]

def b12000_0 : List FldRow :=
  [⟨0x0, 0, 8, .ro, 0x5, 1⟩,
   ⟨0x0, 8, 8, .ro, 0x8, 1⟩,
   ⟨0x0, 24, 8, .ro, 0x1, 1⟩,
   ⟨0x4, 0, 10, .cs, 0x1E, 1⟩,
   ⟨0x8, 0, 16, .cs, 0x0, 1⟩,
   ⟨0x8, 16, 4, .cs, 0x0, 1⟩,
   ⟨0x8, 20, 1, .cs, 0x0, 1⟩,
   ⟨0xC, 0, 16, .cs, 0x0, 1⟩,
   ⟨0xC, 16, 4, .cs, 0x0, 1⟩,
   ⟨0xC, 20, 1, .cs, 0x0, 1⟩,
   ⟨0x10, 0, 9, .cs, 0x0, 1⟩,
   ⟨0x10, 9, 9, .cs, 0x0, 1⟩,
   ⟨0x10, 18, 1, .cs, 0x0, 1⟩,
   ⟨0x10, 19, 1, .cs, 0x0, 1⟩,
   ⟨0x14, 0, 2, .ro, 0x0, 1⟩,
   ⟨0x14, 4, 1, .ro, 0x0, 5⟩,
   ⟨0x14, 9, 1, .ro, 0x0, 5⟩,
   ⟨0x14, 16, 6, .ro, 0x0, 1⟩,
   ⟨0x18, 0, 1, .ro, 0x0, 1⟩,
   ⟨0x18, 1, 4, .ro, 0x0, 1⟩,
   ⟨0x18, 5, 10, .ro, 0x0, 1⟩,
   ⟨0x18, 15, 2, .ro, 0x0, 1⟩,
   ⟨0x18, 17, 2, .ro, 0x0, 1⟩,
   ⟨0x18, 19, 1, .ro, 0x0, 1⟩,
   ⟨0x18, 20, 3, .ro, 0x0, 1⟩,
   ⟨0x1C, 0, 8, .ro, 0x0, 1⟩,
   ⟨0x1C, 8, 2, .ro, 0x0, 1⟩,
   ⟨0x1C, 10, 8, .ro, 0x0, 1⟩,
   ⟨0x20, 0, 32, .ro, 0x0, 1⟩,
   ⟨0x24, 0, 32, .ro, 0x0, 1⟩,
   ⟨0x28, 0, 32, .ro, 0x0, 1⟩,
   ⟨0x2C, 0, 32, .ro, 0x0, 1⟩,
   ⟨0x30, 0, 32, .ro, 0x0, 1⟩,
   ⟨0x34, 0, 32, .ro, 0x0, 1⟩,
   ⟨0x38, 0, 32, .ro, 0x0, 1⟩,
   ⟨0x3C, 0, 32, .ro, 0x0, 1⟩,
   ⟨0x40, 0, 32, .ro, 0x0, 1⟩,
   ⟨0x44, 0, 32, .ro, 0x0, 1⟩,
   ⟨0x48, 0, 32, .ro, 0x0, 1⟩,
   ⟨0x4C, 0, 32, .ro, 0x0, 1⟩]

def b12000_1 : List FldRow :=
  [⟨0x50, 0, 32, .ro, 0x0, 1⟩,
   ⟨0x54, 0, 32, .ro, 0x0, 1⟩,
   ⟨0x58, 0, 32, .ro, 0x0, 1⟩,
   ⟨0x5C, 0, 32, .ro, 0x0, 1⟩,
   ⟨0x60, 0, 9, .ro, 0x0, 1⟩,
   ⟨0x60, 9, 1, .ro, 0x0, 1⟩,
   ⟨0x64, 0, 16, .ro, 0x0, 1⟩,
   ⟨0x64, 16, 16, .ro, 0x0, 1⟩,
   ⟨0x68, 0, 1, .ro, 0x0, 8⟩,
   ⟨0x68, 8, 1, .ro, 0x0, 8⟩,
   ⟨0x6C, 0, 1, .w1c, 0x0, 1⟩,
   ⟨0x6C, 1, 1, .w1c, 0x0, 1⟩,
   ⟨0x6C, 2, 1, .w1c, 0x0, 1⟩,
   ⟨0x6C, 3, 1, .w1c, 0x0, 1⟩,
   ⟨0x6C, 4, 1, .w1c, 0x0, 1⟩,
   ⟨0x6C, 5, 1, .w1c, 0x0, 1⟩,
   ⟨0x6C, 6, 1, .w1c, 0x0, 1⟩,
   ⟨0x6C, 7, 1, .w1c, 0x0, 1⟩,
   ⟨0x70, 0, 16, .ro, 0x0, 1⟩,
   ⟨0x70, 16, 16, .ro, 0x0, 1⟩,
   ⟨0x74, 0, 1, .ro, 0x0, 1⟩,
   ⟨0x74, 1, 1, .ro, 0x0, 1⟩]

def b1000_0 : List FldRow :=
  [⟨0x0, 0, 8, .ro, 0x5, 1⟩,
   ⟨0x0, 8, 8, .ro, 0x17, 1⟩,
   ⟨0x0, 16, 8, .ro, 0x8, 1⟩,
   ⟨0x0, 24, 8, .ro, 0x1, 1⟩,
   ⟨0x4, 0, 4, .cs, 0x0, 1⟩,
   ⟨0x4, 4, 1, .cs, 0x0, 1⟩,
   ⟨0x8, 0, 3, .rw, 0x0, 1⟩,
   ⟨0x8, 31, 1, .wo, 0x0, 1⟩,
   ⟨0xC, 0, 3, .ro, 0x0, 1⟩,
   ⟨0xC, 3, 3, .ro, 0x0, 1⟩,
   ⟨0xC, 6, 2, .ro, 0x0, 1⟩,
   ⟨0xC, 8, 4, .ro, 0x0, 1⟩,
   ⟨0xC, 12, 4, .ro, 0x0, 1⟩,
   ⟨0xC, 16, 2, .ro, 0x0, 1⟩,
   ⟨0xC, 18, 4, .ro, 0x0, 1⟩,
   ⟨0x10, 0, 1, .rw, 0x0, 23⟩,
   ⟨0x14, 0, 1, .rw, 0x1, 1⟩,
   ⟨0x14, 1, 1, .rw, 0x0, 4⟩,
   ⟨0x14, 5, 1, .rw, 0x0, 4⟩,
   ⟨0x14, 9, 1, .rw, 0x1, 1⟩,
   ⟨0x14, 10, 8, .rw, 0x21, 1⟩,
   ⟨0x18, 0, 4, .ro, 0x0, 1⟩,
   ⟨0x18, 4, 3, .ro, 0x0, 1⟩,
   ⟨0x18, 16, 16, .ro, 0x0, 1⟩,
   ⟨0x1C, 0, 4, .ro, 0x0, 1⟩,
   ⟨0x1C, 4, 8, .ro, 0x0, 1⟩,
   ⟨0x20, 0, 1, .ro, 0x0, 13⟩,
   ⟨0x24, 0, 1, .w1c, 0x0, 1⟩,
   ⟨0x24, 1, 1, .w1c, 0x0, 1⟩,
   ⟨0x24, 2, 1, .w1c, 0x0, 1⟩,
   ⟨0x24, 3, 1, .w1c, 0x0, 1⟩,
   ⟨0x24, 4, 1, .w1c, 0x0, 1⟩,
   ⟨0x28, 0, 16, .ro, 0x0, 1⟩,
   ⟨0x28, 16, 16, .ro, 0x0, 1⟩]

/-! The MSI-X table and its pending bits, laid out as PCI Express defines them, every vector masked at reset (R289, R319, log 16). -/
def bD800xmsix : List FldRow :=
  [⟨0x0, 0, 32, .rw, 0x0, 1⟩, ⟨0x4, 0, 32, .rw, 0x0, 1⟩, ⟨0x8, 0, 32, .rw, 0x0, 1⟩, ⟨0xC, 0, 1, .rw, 0x1, 1⟩]
def bDA00pba : List FldRow := [⟨0x0, 0, 1, .ro, 0x0, 32⟩]

/-- Every block of the map. -/
def blocks : List RegBlock :=
  [⟨0x0, 0x10000, 1, b0_0⟩,
   ⟨0x4000, 0x10000, 1, b4000_0⟩,
   ⟨0x4400, 0x40, 16, b4400x_0⟩,
   ⟨0x3000, 0x10000, 1, b3000_0 ++ b3000_1⟩,
   ⟨0x3100, 0x10000, 1, b3100_0⟩,
   ⟨0x3200, 0x10000, 1, b3200_0⟩,
   ⟨0x5000, 0x10000, 1, b5000_0 ++ b5000_1⟩,
   ⟨0x5100, 0x40, 16, b5100x_0 ++ b5100x_1⟩,
   ⟨0x6000, 0x40, 64, b6000x_0 ++ b6000x_1⟩,
   ⟨0x6000, 0x40, 4, b6000xsdclk⟩,
   ⟨0x7000, 0x10000, 1, b7000_0⟩,
   ⟨0x7100, 0x40, 16, b7100x_0 ++ b7100x_1⟩,
   ⟨0x8000, 0x10000, 1, b8000_0 ++ b8000_1 ++ b8000_2⟩,
   ⟨0x2000, 0x10000, 1, b2000_0⟩,
   ⟨0x9000, 0x10000, 1, b9000_0 ++ b9000_1 ++ b9000_2⟩,
   ⟨0xC000, 0x400, 4, bC000x_0 ++ bC000x_1⟩,
   ⟨0xD000, 0x10000, 1, bD000_0⟩,
   ⟨0xD100, 0x10, 16, bD100x_0⟩,
   ⟨0xD200, 0x10, 16, bD200x_0⟩,
   ⟨0xD300, 0x4, 32, bD300x_0⟩,
   ⟨0xD800, 0x10, 32, bD800xmsix⟩,
   ⟨0xDA00, 0x10000, 1, bDA00pba⟩,
   ⟨0xE000, 0x10000, 1, bE000_0⟩,
   ⟨0xE100, 0x4, 64, bE100xsem_0⟩,
   ⟨0xF000, 0x40, 4, bF000x_0⟩,
   ⟨0xF100, 0x10000, 1, bF100_0 ++ bF100_1⟩,
   ⟨0x10000, 0x10000, 1, b10000_0⟩,
   ⟨0x10100, 0x10, 16, b10100x_0⟩,
   ⟨0x11000, 0x10000, 1, b11000_0⟩,
   ⟨0x12000, 0x10000, 1, b12000_0 ++ b12000_1⟩,
   ⟨0x1000, 0x10000, 1, b1000_0⟩]

end RegMap
end Sys2Proof.Machine
end

