-- ==== Sys2Proof/Machine/RegOps.lean ====
section
/-! DEFINITION. BAR0 as a host reads and writes it: the fields at a word address, what a read returns and what a plain write
stores (R14 to R17). -/

namespace Sys2Proof.Machine

/-- The fields of a row at a block copy's base. -/
def FldRow.fields (r : FldRow) (base : Nat) : List (Fld × Access) :=
  (upto r.n).map fun i => (⟨base + r.off, r.lo + i * r.w, r.w, r.reset⟩, r.acc)

/-- The fields of a block at a word address. -/
def RegBlock.fieldsAt (b : RegBlock) (a : Nat) : List (Fld × Access) :=
  if b.base ≤ a ∧ a < b.base + b.stride * b.count then
    let off := (a - b.base) % b.stride
    (b.rows.filter fun r => r.off == off).flatMap fun r => r.fields (a - off)
  else []

/-- The fields at a word address of BAR0. -/
def regFields (a : Nat) : List (Fld × Access) := RegMap.blocks.flatMap fun b => b.fieldsAt a

/-- What a read of a BAR0 word returns: every field's value, write-only and reserved bits as 0 (R14 to R17). -/
def State.regRead (s : State) (a : Nat) : Nat :=
  (regFields a).foldl (fun n p => if p.2 = .wo then n else n + s.get p.1 * 2 ^ p.1.lo) 0

/-- Stores a written word into the read-write fields of a register; other fields keep their values (R14). -/
def State.regStore (s : State) (a v : Nat) : State :=
  s.each (regFields a) fun s p => if p.2 = .rw then s.set p.1 (v / 2 ^ p.1.lo) else s

/-- A bit of a written word. -/
def wbit (v i : Nat) : Bool := v.testBit i

end Sys2Proof.Machine
end

