-- ==== Sys2Proof/Machine/ConfigCheck.lean ====
section
/-! DEFINITION. A configuration set written into the registers and tables, and the rules on which its activation is refused.
The checks read a state that shows the set and the logic image that will run with it (R65, R66, R77 and the rules of the
later chapters that name a refusal at activation). -/

namespace Sys2Proof.Machine
open Reg Hid

/-! ### Writing a set -/

/-- A key of the field table belongs to a configuration field (R14). -/
def isCs (key : Nat) : Bool := (regFields (key / 32 / 4 * 4)).any fun p => p.2 == .cs && p.1.key == key

/-- A set's fields, tables and memory bytes replace those of the set before it: every field that it does not give reads its
reset value (R18, R77). -/
def State.writeConfig (s : State) (cs : ConfigSet) : State :=
  let s := s.each (s.flowTab.map (·.1)) fun s f => s.zero (flowSubst f) 512
  let f := s.fld.filter fun p => !isCs p.1
  let f := (cs.regs.filter fun p => isCs p.1).foldl (fun (m : List (Nat × Nat)) (p : Nat × Nat) => Sparse.put m p.1 p.2) f
  let s := { s with fld := f, cfg := cs, rodTab := cs.rods.foldl (fun (m : List (Nat × List Nat)) (p : Nat × List Nat) => Sparse.set m p.1 [] p.2) [],
                    flowTab := cs.flows.foldl (fun (m : List (Nat × List Nat)) (p : Nat × List Nat) => Sparse.set m p.1 [] p.2) [] }
  let s := s.each cans fun s n => s.each (upto 128) fun s k => s.zero (canMem n k) 32
  s.each cs.bytes fun s p => s.setByte p.1 p.2

/-! ### Ranges -/

/-- A field's value lies between two limits. -/
def State.within (c : State) (f : Fld) (lo hi : Nat) : Bool := decide (lo ≤ c.get f) && decide (c.get f ≤ hi)

/-- A signed delay adjustment of 8 bits lies from −32 to +32 grains (R233, R264, R350). -/
def State.adjOk (c : State) (f : Fld) : Bool := decide (-32 ≤ signed 8 (c.get f)) && decide (signed 8 (c.get f) ≤ 32)

/-- The stated ranges of the configuration fields (R77, R115 to R117, R144, R174, R200, R231, R264, R350, R351, R376,
R416). -/
def State.rangesOk (c : State) : Bool :=
  (tasks.all fun t => c.within (TSK_LATE_LATE_PCT t) 1 50 && c.within (TSK_LATE_SKIP_LIMIT t) 1 255 &&
    decide (c.get (TSK_OFFSET_PHASE t) ≤ c.get (TSK_CFG_KPER t))) &&
  c.within LN_CFG_BUDGET 1 15 && c.within XCH_CFG_SD_LIMIT 1 255 && c.within BAL_VEX_EVERY 16 4095 &&
  c.within DBG_RCFG_SNAP_PERIOD 1 3600 &&
  ((upto 64).all fun ch => c.within (FC_CFG_MODE ch) 0 5 && c.within (FC_CFG_OSR ch) 0 5 &&
    c.within (FC_CFG_SPMODE ch) 0 2 && c.within (FC_FILT_DEB ch) 0 4000 &&
    c.within (FC_FILT_DISC ch) (bit (c.get (FC_CFG_MODE ch) == 1)) 500 && c.within (FC_SPD_MINPW ch) 50 4095 &&
    c.within (FC_SPD_STILL ch) 1 4095) &&
  ((upto 4).all fun i => (!c.on (FC_SDCLK_EN i) && !c.on (FC_SDCLK_DIV i)) || c.within (FC_SDCLK_DIV i) 10 50) &&
  (groups.all fun g => c.within (BRK_CFG_RB_LIMIT g) 1 255 && c.within (BRK_DARK_PER g) 1 60 &&
    c.within (BRK_BRIGHT_PER g) 1 60 && c.within (BRK_DARK_WIDTH g) 50 200 && c.within (BRK_BRIGHT_WIDTH g) 1 75 &&
    c.within (BRK_TWIN_TOFS g) 4 1023) &&
  c.within TN_FURLONG_LEN_US 250 100000 && c.within TN_WIN_GUARD 8 250 && c.within TN_WIN_ACCEPT 20 250 &&
  c.within TN_SYNCCFG_MISS_LIM 1 255 && c.within TN_SYNCCFG_SWIN 100 1000 && c.within TN_WAKECFG_COUNT 1 16 &&
  c.within TN_WAKECFG_SPACING 20 250 &&
  (cans.all fun n => c.within (CN_CTL_MODE n) 0 4 && c.within (CN_NBT_N_PH1 n) 1 255 && c.within (CN_NBT_N_PH2 n) 1 127) &&
  (links.all fun k => c.within (CL_CFG_ROLE k) 0 2) && c.within GRP_CFG_DL 4 100 && c.within TW_CFG_MARGIN 1 131071 &&
  c.within UPD_CFG_CWIN 5 600 && ((upto 4).all fun p => c.adjOk (TN_DLYADJ_P p)) && links.all fun k => c.adjOk (CL_CFG_DLYADJ k)

/-! ### Tasks (R65, R122, R410, R419) -/

/-- An enabled task that starts in TRIPLE mode. -/
def State.tripleCfg (c : State) (t : Nat) : Bool := c.enabled t && c.get (TSK_CFG_MODE t) == 0

/-- A task that is an enabled TRIPLE safety task. -/
def State.safeTask (c : State) (t : Nat) : Bool := c.tripleCfg t && c.isSafety t

/-- The rules of R65. -/
def State.tasksOk (c : State) (im : LogicImage) : Bool :=
  tasks.all fun t => (!c.isSafety t || c.get (TSK_CFG_MODE t) == 0) &&
    decide (c.get (TSK_OFFSET_OFFSET t) < c.furlongGrains) && (!c.enabled t ||
    (!(tasks.any fun u => u != t && c.enabled u && c.get (TSK_CFG_PRIO u) == c.get (TSK_CFG_PRIO t)) &&
     im.tasks.any fun p => p.1 == t))

/-- The permit rules of R122 and R153 for one permit. -/
def State.permitOk (c : State) (en ch : Fld) : Bool :=
  let t := c.get DBG_PERMIT_TASK
  let x := c.get ch
  !c.on en || (c.tripleCfg t && c.get (FC_CFG_MODE x) == 1 && c.on (FC_IBIND_EN x) && c.get (FC_IBIND_TASK x) == t)

/-- The confirm binding and the request task (R410, R419). -/
def State.bindsOk (c : State) : Bool :=
  let t := c.get UPD_CBIND_TASK
  c.permitOk DBG_PERMIT_STAND_EN DBG_PERMIT_STAND_CH && c.permitOk DBG_PERMIT_MAINT_EN DBG_PERMIT_MAINT_CH &&
    c.on UPD_CBIND_EN && c.safeTask t && c.get UPD_CBIND_OFFSET % 4 == 0 && c.owns t .Q (c.get UPD_CBIND_OFFSET) 8 &&
    (!c.on TN_SWBIND_EN || c.tripleCfg (c.get TN_SWBIND_TASK)) && (!c.on PWR_CFG_RTASK_EN || c.tripleCfg (c.get PWR_CFG_RTASK))

/-! ### Image entries (R68, R167, R217, R270, R345, R348, R411) -/

/-- A bound entry: its task, byte offset and length in bytes. -/
structure Entry where
  task : Nat
  off : Nat
  len : Nat
  deriving DecidableEq, Repr

/-- Bytes rounded up to whole words. -/
def roundUp (n : Nat) : Nat := 4 * ceilDiv n 4

/-- The words of a context of the group, import or export. -/
def ctxWord (ws : List Nat) (i : Nat) : Nat := ws.getD i 0

/-- The entries of the input slices. -/
def State.inEntries (c : State) : List Entry :=
  ((upto 64).filterMap fun ch => if c.on (FC_IBIND_EN ch) then
      some ⟨c.get (FC_IBIND_TASK ch), c.get (FC_IBIND_OFFSET ch), 4 * c.entryWords ch⟩ else none) ++
  (c.flows.filterMap fun f => let x := c.flow f
    if x.dir = 2 ∧ x.en = true then some ⟨x.task, x.off, roundUp x.len⟩ else none) ++
  (cans.flatMap fun n => (upto 128).flatMap fun k =>
    let o := c.canObj n k
    (if o.dir = 2 ∧ o.en = true then [⟨o.task, o.off, 12 + roundUp o.len⟩] else []) ++
      if o.dir = 1 ∧ o.sen = true then [⟨o.task, o.soff, 8⟩] else []) ++
  (groups.filterMap fun g => if c.grpOn g && c.on (BRK_SBIND_EN g) then
      some ⟨c.get (BRK_CFG_TASK g), c.get (BRK_SBIND_OFFSET g), 4⟩ else none) ++
  (c.cfg.imports.filterMap fun p => if (ctxWord p.2 0).testBit 20 then
      some ⟨bits (ctxWord p.2 0) 16 4, bits (ctxWord p.2 0) 0 16, 4 + roundUp (bits (ctxWord p.2 1) 16 12)⟩ else none) ++
  (c.cfg.words.map fun w => ⟨w.task, w.off, 4 * w.words⟩) ++
  (if c.on UPD_SBIND_EN then [⟨c.get UPD_SBIND_TASK, c.get UPD_SBIND_OFFSET, 4⟩] else [])

/-- The entries of the output slices that a block takes, the switch words and the confirm words included (R217, R230, R270,
R410). -/
def State.outEntries (c : State) : List Entry :=
  ((upto 64).filterMap fun ch => if c.on (FC_QBIND_EN ch) then
      some ⟨c.get (FC_QBIND_TASK ch), c.get (FC_QBIND_OFFSET ch), 4⟩ else none) ++
  (c.flows.filterMap fun f => let x := c.flow f
    if x.dir = 1 ∧ x.en = true ∧ x.space = 0 then some ⟨x.task, x.off, roundUp x.len⟩ else none) ++
  (cans.flatMap fun n => (upto 128).filterMap fun k =>
    let o := c.canObj n k
    if o.dir = 1 ∧ o.en = true then some ⟨o.task, o.off, 4 + roundUp o.len⟩ else none) ++
  (if c.on TN_SWBIND_EN then [⟨c.get TN_SWBIND_TASK, c.get TN_SWBIND_OFFSET, 8⟩] else []) ++
  (if c.on UPD_CBIND_EN then [⟨c.get UPD_CBIND_TASK, c.get UPD_CBIND_OFFSET, 8⟩] else [])

/-- The entries that only read a slice: input-fed flows, exports and the sources of task words. -/
def State.readEntries (c : State) : List (Space × Entry) :=
  (c.flows.filterMap fun f => let x := c.flow f
    if x.dir = 1 ∧ x.en = true ∧ x.space = 1 then some (.I, ⟨x.task, x.off, roundUp x.len⟩) else none) ++
  (c.cfg.exports.filterMap fun p => if (ctxWord p.2 0).testBit 20 then
      some (.I, ⟨bits (ctxWord p.2 0) 16 4, bits (ctxWord p.2 0) 0 16, bits (ctxWord p.2 1) 0 12⟩) else none) ++
  (c.cfg.words.map fun w => (.Q, ⟨w.srcTask, w.srcOff, 4 * w.words⟩))

/-- An entry lies wholly inside its task's slice, at a word. -/
def State.entryIn (c : State) (sp : Space) (e : Entry) : Bool := e.off % 4 == 0 && c.owns e.task sp e.off e.len

/-- Whether two of some entries overlap. -/
def entriesOverlap : List Entry → Bool
  | [] => false
  | a :: r => (r.any fun b => !(decide (a.off + a.len ≤ b.off) || decide (b.off + b.len ≤ a.off))) || entriesOverlap r

/-- Every entry lies in its slice and no two overlap. -/
def State.entriesOk (c : State) : Bool :=
  c.inEntries.all (c.entryIn .I) && c.outEntries.all (c.entryIn .Q) && (c.readEntries.all fun p => c.entryIn p.1 p.2) &&
    !entriesOverlap c.inEntries && !entriesOverlap c.outEntries

/-! ### Channels and brake groups (R155, R167, R176, R187) -/

/-- The rules of R154, R155 and R167 for a channel. -/
def State.channelOk (c : State) (ch : Nat) : Bool :=
  let m := c.get (FC_CFG_MODE ch)
  let ib := c.on (FC_IBIND_EN ch)
  let qb := c.on (FC_QBIND_EN ch)
  let safety := c.on (FC_CFG_SAFETY ch)
  (m != 3 || c.on (FC_SDCLK_EN (c.get (FC_CFG_SDSRC ch)))) &&
    !(qb && m == 5 && safety && c.get (TSK_CFG_MODE (c.get (FC_QBIND_TASK ch))) != 0) &&
    (!(ib && c.isSafety (c.get (FC_IBIND_TASK ch))) || safety) && (!(qb && c.isSafety (c.get (FC_QBIND_TASK ch))) || safety) &&
    (m != 0 || (!ib && !qb)) && (m == 5 || !qb) &&
    (!(m == 2 && ib && c.isSafety (c.get (FC_IBIND_TASK ch))) || groups.any fun g => c.grpOn g && c.get (BRK_CFG_RBCH g) == ch)

/-- The width of a group's enabled tests in µs, and whether the windows fit the period (R176, R187). -/
def State.testFits (c : State) (g : Nat) (en w : Fld) : Bool :=
  let deb := 16 * c.get (FC_FILT_DEB (c.get (BRK_CFG_RBCH g)))
  !c.on en ||
    (decide (deb < 4 * c.get w) &&
     decide (c.get (BRK_TWIN_TOFS g) + 4 * c.get w + c.get (BRK_TWIN_RBLAG g) + deb + 8 ≤ c.periodUs (c.get (BRK_CFG_TASK g))))

/-- The rules of R176 for an enabled group. -/
def State.groupOk (c : State) (g : Nat) : Bool :=
  let t := c.get (BRK_CFG_TASK g)
  let o := c.get (BRK_CFG_OUTCH g)
  let r := c.get (BRK_CFG_RBCH g)
  !c.grpOn g ||
    (c.safeTask t && c.get (FC_CFG_MODE o) == 5 && c.on (FC_CFG_SAFETY o) && c.on (FC_QBIND_EN o) && c.get (FC_QBIND_TASK o) == t &&
     (Sparse.get c.cfg.safeQ (c.get (FC_QBIND_OFFSET o)) 0).toNat % 4 == 0 &&
     (c.get (FC_CFG_MODE r) == 1 || c.get (FC_CFG_MODE r) == 2) && c.on (FC_IBIND_EN r) && c.get (FC_IBIND_TASK r) == t &&
     !(groups.any fun h => h != g && c.grpOn h && (c.get (BRK_CFG_OUTCH h) == o || c.get (BRK_CFG_RBCH h) == r)) &&
     (c.demandChannels g).all (fun d => c.get (FC_CFG_MODE d) == 1 && c.on (FC_IBIND_EN d) && c.get (FC_IBIND_TASK d) == t) &&
     c.testFits g (BRK_DARK_EN g) (BRK_DARK_WIDTH g) && c.testFits g (BRK_BRIGHT_EN g) (BRK_BRIGHT_WIDTH g))

/-! ### The network (R212 to R217, R238) -/

/-- The reserved bits of a rod entry are 0 (R213). -/
def rodBitsOk (ws : List Nat) : Bool :=
  ws.length == 4 && bits (ctxWord ws 0) 28 4 == 0 && bits (ctxWord ws 1) 25 7 == 0 && bits (ctxWord ws 3) 0 16 == 0

/-- The rules of R215 for one entry of a channel. An OPEN entry needs no hop counts: the worked example after R230 gives
one with RX and TX bits and no hops (DEDUCED, log 76). -/
def State.rodOk (c : State) (ch : Nat) (r : Rod) : Bool :=
  let node := c.get TN_CFG_NODE
  let x := c.flow r.flow
  let own := decide (r.sender = node)
  let on := (ctxWord (Sparse.get c.flowTab r.flow []) 0).testBit (3 + ch)
  let t := if r.kind = 3 ∧ x.dir ≠ 1 ∧ x.dir ≠ 2 then 168 else wireTime x.len x.safety
  r.crcOk && decide (r.kind < 7) && decide (r.start + r.len ≤ c.furlongGrains) &&
    (decide (r.kind = 0 ∨ 3 < r.kind) || decide (t + c.get TN_WIN_GUARD + c.get TN_WIN_ACCEPT ≤ r.len)) &&
    (r.kind != 1 || (x.dir == 1 && on && own)) && (r.kind != 2 || (x.dir == 2 && on && r.sender == x.src)) &&
    (r.kind == 5 || (upto 2).all fun p => r.hop p != 0 || (!r.rx p && (!r.tx p || own))) &&
    (own || !(r.tx0 || r.tx1) || decide (c.get TN_WIN_ACCEPT ≤ 200)) && decide (ch < 2)

/-- The SYNC entries of a bank and channel. -/
def State.syncRods (c : State) (b ch : Nat) : List Rod := ((c.rods b ch).map (·.2)).filter fun r => r.kind == 4

/-- The rules of R215 for the rod tables. -/
def State.rodsOk (c : State) : Bool :=
  (c.rodTab.all fun p => rodBitsOk p.2) &&
  ((upto 2).all fun b => (upto 2).all fun ch =>
    ((c.rods b ch).all fun p => c.rodOk ch p.2 &&
      (!p.2.paired || (c.rods b (1 - ch)).any fun q => q.2.start == p.2.start && q.2.len == p.2.len &&
        q.2.kind == p.2.kind && q.2.flow == p.2.flow)) &&
    (upto 2).all fun p => !c.rodsOverlap b (2 * ch + p) 0) &&
  (upto 2).all fun ch => decide (c.syncRods 0 ch = c.syncRods 1 ch)

/-- The rules of R217 for a flow. -/
def State.flowOk (c : State) (f : Nat) : Bool :=
  let x := c.flow f
  x.crcOk && (!x.safety || (x.submode != 1 && x.scid != 0 && (!x.en || c.isSafety x.task))) && decide (x.submode ≤ 2) &&
    decide (x.sublen ≤ x.len) && decide (x.sublen ≤ 512) && decide (x.len ≤ 1472) && decide (1 ≤ x.ageLim) && decide (x.dir ≤ 2) &&
    (upto 2).any fun b => (upto 2).any fun ch => (c.rods b ch).any fun p => decide (1 ≤ p.2.kind) && decide (p.2.kind ≤ 3) && p.2.flow == f

/-- The rules of R238. -/
def State.syncCfgOk (c : State) : Bool :=
  (!c.on TN_SYNCCFG_SYNC_CAP || (upto 2).all fun ch =>
    !c.on (TN_CFG_EN ch) || (c.syncRods 0 ch).any fun r => r.sender == c.get TN_CFG_NODE) &&
  (!c.on TN_SYNCCFG_COLD_CAP || c.on TN_SYNCCFG_SYNC_CAP) && (!c.on TN_SYNCCFG_SOLO || c.on TN_SYNCCFG_COLD_CAP)

/-! ### CAN (R266, R269, R270, R281) -/

/-- The reserved bits of an object's words are 0, and the MASK of a SEND object (R269). -/
def State.objBitsOk (c : State) (n k : Nat) : Bool :=
  let w := fun (i : Nat) => c.rd (canMem n k + 4 * i) 4
  bits (w 0) 19 13 == 0 && bits (w 1) 29 3 == 0 && bits (w 2) 29 3 == 0 && bits (w 3) 21 11 == 0 && bits (w 4) 17 15 == 0 &&
    w 5 == 0 && w 6 == 0 && (w 0 % 4 != 1 || w 2 == 0)

/-- An object that the set does not give: its configuration words are 0. -/
def State.objAbsent (c : State) (n k : Nat) : Bool := c.rd (canMem n k) 32 == 0

/-- The rules of R270 for every object that the set gives, an unused one included: no reserved code or bit, and the CRC is
right (log 100). -/
def State.objFormOk (c : State) (n k : Nat) : Bool :=
  let o := c.canObj n k
  c.objAbsent n k || (c.objBitsOk n k && o.crcOk && decide (o.dir ≤ 2) && decide (o.trig < 3) && decide (o.accFmt < 3))

/-- The rules of R270 for an object in use. -/
def State.objOk (c : State) (n k : Nat) : Bool :=
  let o := c.canObj n k
  let task := (o.en || o.sen) && c.isSafety o.task
  (canLens (o.fdf || (o.dir == 2 && o.accFmt != 1))).contains o.len && (o.ide || decide (o.id < 2048)) &&
    (!o.brs || o.fdf) && (!o.fdf || c.on (CN_DBT_D_ON n)) &&
    (!o.safety || (!o.host && o.en && c.isSafety o.task)) && (!task || o.safety) && (!o.host || (!o.en && !o.sen)) &&
    c.get (CN_CTL_MODE n) != 0 &&
    !(o.dir == 1 && (upto k).any fun j => (c.canObj n j).dir == 1 && (c.canObj n j).ide == o.ide && (c.canObj n j).id == o.id)

/-- The bit timing of a controller that is not OFF (R281). -/
def State.timingOk (c : State) (n : Nat) : Bool :=
  let nom := (c.get (CN_NBT_N_PRE n) + 1) * (3 + c.get (CN_NBT_N_PH1 n) + c.get (CN_NBT_N_PH2 n))
  let dat := (c.get (CN_DBT_D_PRE n) + 1) * (3 + c.get (CN_DBT_D_PH1 n) + c.get (CN_DBT_D_PH2 n))
  c.get (CN_CTL_MODE n) == 0 ||
    (decide (c.get (CN_NBT_N_RJW n) ≤ min (c.get (CN_NBT_N_PH1 n)) (c.get (CN_NBT_N_PH2 n))) && decide (80 ≤ nom) &&
     (!c.on (CN_DBT_D_ON n) ||
       (decide (c.get (CN_DBT_D_RJW n) ≤ min (c.get (CN_DBT_D_PH1 n)) (c.get (CN_DBT_D_PH2 n))) && decide (10 ≤ dat) &&
        decide (dat ≤ nom))))

/-- The rules of the CAN controllers. -/
def State.canOk (c : State) : Bool :=
  cans.all fun n => c.timingOk n && (upto 128).all fun k => c.objFormOk n k && ((c.canObj n k).dir == 0 || c.objOk n k)

/-! ### Groups and twins (R341, R348, R351, R353, R361, R368, R374) -/

/-- The export and import contexts (R345, R346, R348, R351). -/
def ConfigSet.groupCtxOk (cs : ConfigSet) : Bool :=
  (cs.exports.all fun p => let w := ctxWord p.2
    let n := bits (w 1) 0 12
    decide (p.1 < 4) && w 3 == crc32c (natWordBytes [w 0, w 1, w 2]) &&
      (!(w 0).testBit 20 || (decide (4 ≤ n) && decide (n ≤ 2048) && n % 4 == 0))) &&
  cs.imports.all fun p => let w := ctxWord p.2
    let n := bits (w 1) 16 12
    decide (p.1 < 12) && w 4 == crc32c (natWordBytes [w 0, w 1, w 2, w 3]) &&
      (!(w 0).testBit 20 || (decide (4 ≤ n) && decide (n ≤ 2048) && decide (1 ≤ bits (w 2) 0 8) &&
        !((w 0).testBit 21 && (w 0).testBit 22)))

/-- The rules of R341. -/
def State.grpCfgOk (c : State) : Bool :=
  let d := c.get GLB_STRAP_DEVID
  (!c.on GRP_CFG_EN ||
    (c.on GRP_CFG_SIZE && decide (d ≤ c.get GRP_CFG_SIZE) &&
     ((upto 3).all fun k => decide (c.get GRP_CFG_SIZE < (d + k + 1) % 4) || c.get (CL_CFG_ROLE k) == 1) &&
     !(c.on GRP_CFG_TSRC && d != 0 && (c.on (TN_CFG_EN 0) || c.on (TN_CFG_EN 1))))) &&
  c.get (CL_CFG_ROLE 3) != 1 && decide ((links.filter fun k => c.get (CL_CFG_ROLE k) == 2).length ≤ 1)

/-- The bytes of a task's state image: window, output slice, instances and edge words (R374). -/
def stateLen (im : LogicImage) (t : Nat) : Nat :=
  let x := im.task t
  let edges := ((im.edges.filter fun d => d.task == t).map fun d => d.idx / 32).eraseDups.length
  64 * x.mUnits + 4 * x.qWords + 16 * (im.timers.filter fun d => d.task == t).length +
    16 * (im.counters.filter fun d => d.task == t).length + 4 * edges

/-- The bytes of a mirror slot of a task: records A and B at their largest (R368, R369). -/
def State.slotLen (c : State) (im : LogicImage) (t : Nat) : Nat :=
  68 + 12 * (im.task t).flows.length + 4 * (im.task t).iWords + 36 + 8 * c.get TW_MIRROR_DMAX

/-- The flow of a twin's lease messages over the network (R353). -/
def State.leaseFlowOk (c : State) (f dir : Nat) : Bool :=
  let x := c.flow f
  x.dir == dir && x.safety && x.len == 32 && !x.en

/-- The rules of R353, R361, R368 and R374. -/
def State.twinOk (c : State) (im : LogicImage) : Bool :=
  let lt := c.get TW_CFG_LTASK
  let l := c.get TW_CFG_LEASE + 1
  let ts := tasks.filter fun t => c.on (TW_TASKS_TASKS t)
  !c.on TW_CFG_EN ||
    ((links.any fun k => c.get (CL_CFG_ROLE k) == 2) && c.safeTask lt && ts.contains lt && ts.all c.tripleCfg &&
     c.get TW_SCID_SCID != 0 &&
     (!c.on TW_NET_NETEN || (c.leaseFlowOk (c.get TW_NET_TXFLOW) 1 && c.leaseFlowOk (c.get TW_NET_RXFLOW) 2)) &&
     decide (c.get TN_FURLONG_LEN_US * 1000000 + 160000 + 4 * l * c.periodUs lt ≤ c.get TW_CFG_MARGIN * 1000000) &&
     decide ((ts.map fun t => 2 * c.slotLen im t).foldl (· + ·) 0 ≤ 0x50000) &&
     ts.all fun t => decide (stateLen im t ≤ 0xA0000))

/-- The maintenance flows (R403). -/
def State.updNetOk (c : State) : Bool :=
  let ok := fun (f dir : Nat) => let x := c.flow f
    x.dir == dir && !x.safety && decide (1464 ≤ x.len) && !x.en
  !c.on UPD_NET_NETEN || (ok (c.get UPD_NET_RXFLOW) 2 && ok (c.get UPD_NET_TXFLOW) 1)

/-! ### The whole -/

/-- The state that shows a configuration set with a logic image. -/
def State.configured (s : State) (im : LogicImage) (cs : ConfigSet) : State :=
  State.showImage { s.writeConfig cs with image := some im }

/-- A configuration set passes its activation checks against a logic image (R409). -/
def State.configOk (s : State) (im : LogicImage) (cs : ConfigSet) : Bool :=
  let c := s.configured im cs
  c.rangesOk && c.tasksOk im && c.bindsOk && c.entriesOk && ((upto 64).all c.channelOk) && (groups.all c.groupOk) && c.rodsOk &&
    (c.flows.all c.flowOk) && c.syncCfgOk && c.canOk && cs.groupCtxOk && c.grpCfgOk && c.twinOk im && c.updNetOk

end Sys2Proof.Machine
end

