-- ==== Sys2Proof/Machine/ConfigApply.lean ====
section
/-! DEFINITION. A configuration set taking effect: what each block starts with at start-up and at activation (R112, R151,
R155, R179, R192, R225, R230, R233, R285, R336, R344, R366, R368, R409). -/

namespace Sys2Proof.Machine
open Reg Hid

/-! ### Field channels and brake groups -/

/-- Every channel starts in DEM with its pins at the demand level, without a fault, a measurement or a launch; the SDCLKs
start 256 grains on (R149, R151, R155, R157, R162, R165). -/
def State.startChannels (s : State) : State :=
  let s := s.each (upto 64) fun s c => s.each Lane.all fun s l => s.set (FC_STATUS_DC c l.idx) DcState.dem.code
  let s := ((((s.restore (DISC_FLAG 0 0) 192).restore (DISC_AT 0 0) 192).restore (DISC_FROM 0 0) 192).restore (DISC_EV 0) 64)
  let s := ((s.restore (SD_WIN 0 0) 192).restore (SD_WIN2 0 0) 192).restore (SD_LATCH 0 0) 192
  let s := ((s.restore (SD_SKIP 0 0) 192).restore (SD_CLKF 0 0) 192).restore (SD_CLKEV 0) 64
  let s := ((s.restore (SPD_CNT 0 0) 192).restore (SPD_PREV 0 0) 192).restore (SPD_LAST 0 0) 192
  let s := ((s.restore (SPD_STILL 0 0) 192).restore (SPD_ONE 0 0) 192).restore (SPD_PHASE 0 0) 192
  let s := ((s.restore (SD_WIN3 0 0) 192).restore (SD_OVW 0) 64).restore (SD_EDGE 0 0) 192
  let s := ((s.restore (SPD_LASTPH 0 0) 192).restore (SPD_LASTDIR 0 0) 192).restore (SPD_EDGE 0 0 0) 384
  let s := ((s.restore (SPD_AGREED 0) 64).restore (OVSPD 0) 64).restore (PADMIS 0 0) 128
  let s := ((s.restore (REQ_LVL 0 0) 128).restore (REQ_CHG 0) 64).restore (SRC_FAULT 0) 4096
  let s := ((s.restore (DRIVE 0 0 0) 384).restore (LAUNCHED 0 0) 192).set SDCLK_T0 (s.now + 256)
  let s := s.each (upto 64) fun s c => s.each Lane.all fun s l =>
    let m := s.get (FC_CFG_MODE c)
    let s := (s.set (DEB l.idx c 0) 0).put (DEB l.idx c 1) (m == 1 && s.get (FC_CFG_WIRING c) == 1)
    let s := (s.set (DEB_AT l.idx c 0) s.now).set (DEB_AT l.idx c 1) s.now
    s.put (FC_STATUS_SDCLK_OK c l.idx) (m == 3)
  { s with runs := [] }

/-- A group that the set enables starts held in every lane, or latched where MRAM holds a latch; another is off (R179,
R192, R193). -/
def State.startGroup (s : State) (g : Nat) : State :=
  let held := s.grpOn g
  let kept := s.get (NV_LATCH g)
  let latched := held && decide (4 ≤ kept)
  let st := if latched then GrpState.latched else if held then GrpState.held else GrpState.off
  let s := (s.each Lane.all fun s l => (s.set (BRK_STAT_ST g l.idx) st.code).put (BRK_HOLD l.idx g) held).put (HOLD_AT g) held
  let s := ((s.put (BRK_STAT_LATCHED g) latched).set (BRK_STAT_LCAUSE g) (if latched then kept % 4 else 0)).put
    (BRK_STAT_DARKDUE g) (held && s.on (BRK_DARK_EN g) && s.on (BRK_STAT_DARKDUE g))
  (s.put (BRK_STAT_BRIGHTDUE g) (held && s.on (BRK_BRIGHT_EN g) && s.on (BRK_STAT_BRIGHTDUE g))).summarise g

/-- The brake groups start (R179, R187, R192). -/
def State.startGroups (s : State) : State :=
  let s := ((s.restore (CLEAN 0 0) 48).restore (IMG_OK 0) 16).restore (CMD 0) 16
  let s := ((s.restore (PULSE 0) 16).restore (WIN 0) 16).restore (TEST_GO 0) 16
  let s := ((s.restore (DARK_FORCE 0) 16).restore (STUCK_RUN 0) 16).restore (RBLOW_RUN 0) 16
  let s := ((s.restore (PADLVL 0) 16).restore (CMP_LVL 0) 16).restore (RST_PEND 0) 16
  let s := s.each groups fun s g => ((s.startGroup g).set (PADCHG g) 1).set (BRK_STAT_PAD g) 0
  let mask := groups.foldl (fun m g => m + s.get (BRK_STAT_LATCHED g) * 2 ^ g) 0
  if mask = 0 then s else s.ev 0x400B 0 mask

/-! ### Tasks -/

/-- The mode of a task as the set gives it; a SINGLE task whose lane is retired falls back (R109, R112). -/
def State.startTask (s : State) (t : Nat) : State :=
  let m := s.get (TSK_CFG_MODE t)
  let s := ((s.set (TSK_STATE_MODE t) m).set (TASK_LANE t) 0).set (DBG_TSTAT_STOPPED t) 0
  match Lane.ofCode m with
  | some l => if s.enabled t && s.lane l == .retired then s.fallback t else s
  | none => s

/-- The channels that a task drives follow the lane of a SINGLE task, or are voted (R92, R109). -/
def State.startFollow (s : State) (c : Nat) : State :=
  if s.on (FC_QBIND_EN c) && !s.on (FC_CFG_SAFETY c) then s.set (BAL_FOLLOW c) (s.get (TSK_STATE_MODE (s.get (FC_QBIND_TASK c))))
  else s.set (BAL_FOLLOW c) 0

/-- The tasks start: nothing is staged, no scan, restart or exercise is in progress (R67, R95, R109, R112, R124, R257). -/
def State.startTasks (s : State) : State :=
  let s := s.each tasks State.abandonScan
  let s := ((s.restore (STG_KIND 0) 16).restore (STARTED 0) 16).restore (RESTART 0) 16
  let s := (s.restore (STG_AT 0) 16).restore (LCH_KIND 0) 16
  let s := ((s.restore (A_FROM 0) 16).restore (NEXT_A 0) 16).restore (AGREE 0) 16
  let s := ((s.restore (VEX_CNT 0) 16).restore (VEX_NOW 0) 16).restore (MODE_PROB 0) 16
  let s := ((s.restore (TRIP_NEXT 0) 16).restore (CL_PEND 0) 16).set MODE_PEND 0
  let s := ((s.restore (LATE_AT 0) 16).restore (VEX_CELL 0) 16).restore (SEED_JOIN 0 0) 48
  let s := s.each tasks State.startTask
  let s := (s.each (upto 64) State.startFollow).each Lane.all fun s l => s.inc (LN_EPOCH l.idx)
  State.paceNote { s with sysLatch := [], flowLatch := [] }

/-! ### The network -/

/-- A measured port is judged again by the windows and rods of the set that takes effect (R202). -/
def State.rejudgePort (s : State) (p : Nat) : State :=
  let d := s.get (TN_DELAY_P p)
  let was := s.on (TN_PORT_USED p)
  if s.portUp p && (was || s.on (TN_PORT_LONG p)) then
    let s := s.judgePort p d
    if was && !s.on (TN_PORT_USED p) then s.portLong p d else s
  else s

/-- Network time restarts at 0, bank 0 is active, the node listens, and nothing of the schedule before stays (R216, R225,
R230, R233, R248, R255, R259). At a start-up event 0x5803 has cause 0; at an activation the cause is free, since its list names none
(log 22). -/
def State.startNet (s : State) : State :=
  let s := s.each Lane.all fun s l => s.set (TNET l.idx) 0
  let s := ((s.set RATE_FRAC 0).set SLEW_N 0).set SLEW_T 0
  let s := (((s.set TN_RATE_RATE 0).set TN_BANK_ACTIVE 0).set TN_BANK_PENDING 0).set ROD_RELOAD 0
  let s := ((s.set TN_SYNCST_ATTEMPTS 0).set TN_SYNCST_GAVEUP 0).set TN_SYNCST_NETSTARTED 0
  let s := ((s.restore (ROD_FAILF 0) 4096).restore (ROD_SKIP 0) 4096).restore (FCTX_FAILF 0) 512
  let s := ((s.restore (FCTX_SKIP 0) 512).restore (FL_AGE 0) 512).restore (FL_STALE 0) 512
  let s := ((s.restore (FL_SAGE 0) 512).restore (FL_REP 0) 512).restore (FL_ACC 0) 512
  let s := s.each (s.flows.filter fun f => (s.flow f).dir == 1) fun s f => s.set (FL_SAGE f) 255
  let s := ((s.restore (FL_LACC 0 0) 1536).restore (FL_STF 0) 512).restore (FLL_SEQ 0 0) 1536
  let s := ((s.restore (SND_RDY 0) 512).restore (SND_RDY2 0) 512).restore (SND_SENT 0) 512
  let s := ((s.restore (SND_SENT2 0) 512).restore (SND_LASTF 0) 512).restore (PORT_RXF 0) 4
  let s := ((s.clearMeas.restore (COLD_FWD 0) 64).restore (COLD_AT 0) 64).set SYNC_MISSED 0
  let s := ((s.restore (FL_ENDF 0) 512).restore (OPEN_END 0) 4).set CORR_F 0
  let s := (((s.set ROD_RELOADS 0).set ROD_RELOAD_F 0).set PREV_BANK 0).set SWITCH_F 0
  let s := (s.set STEP_NET 0).set BND_F 0
  let s := (s.resetRegs 0x8074 0x40).each (s.flows) State.showFlow
  let s := (s.each ports State.rejudgePort).each tasks fun s t => s.put (TN_NETBOUND_TASKS t) (s.netBound t)
  if s.get START_STEP = 2 then s.listenAtStart 0
  else
    let (cause, s) := s.free 16
    s.listenAtStart cause

/-! ### CAN, companion links, group and twin -/

/-- The controllers start with the set's objects: collision flags are cleared, objects disabled by check failures come back
(R267, R271, R285). -/
def State.startCan (s : State) : State :=
  let s := s.each cans fun s n => s.each ((upto 128).filter fun k => s.on (CN_COLL n k)) fun s k => s.canClear n k 2
  let s := ((s.restore (CO_DIS 0 0) 512).restore (CO_FAILAT 0 0) 512).restore (CO_RUN 0 0) 512
  let s := ((s.restore (CO_HAVE 0 0) 512).restore (CO_REQ 0 0) 512).restore (CO_STREQ 0 0) 512
  let s := ((s.restore (CO_RXT 0 0) 512).restore (CO_RXT2 0 0) 512).restore (CO_CNT 0 0) 512
  let s := s.restore (CN_INTEG 0) 4
  let s := ((s.restore (CO_TXAGE 0 0) 512).restore (CO_RXAGE 0 0) 512).restore (CN_TXOBJ 0) 4
  s.each cans fun s n =>
    let m := s.get (CN_CTL_MODE n)
    let s := s.each (upto 128) fun s k => s.set (CN_PEND n k) 0
    let s := s.put (CN_STB n) (m == 0 || m == 4)
    (((s.put (CN_STATUS_STATE n) (m != 0)).set (CN_ERRCNT_TEC n) 0).set (CN_ERRCNT_REC n) 0).each (upto 128) fun s k => s.showObj n k

/-- A refused link tries again, a link whose role is now off goes down, and with the TWIN link a relayed session ends; imports and
exports start afresh; the group waits for its time (R336, R340, R344 to R348, R352, R403). -/
def State.startGroupLinks (s : State) : State :=
  let s := s.each links fun s k => if s.get (CL_STAT_STATE k) = 5 then s.set (CL_STAT_STATE k) 0 else s
  let s := s.each (links.filter fun k => !s.wanted k && s.on (CL_STAT_STATE k)) fun s k => s.linkDown k 3 0
  let s := if s.twinLink.isNone then s.relayEnd else s
  let s := ((s.restore (IMP_ON 0) 12).restore (IMP_DONE 0) 12).restore (IMP_AGE 0) 12
  let s := ((s.restore (IMP_STALE 0) 12).restore (IMP_STP 0) 12).restore (EXP_LATEF 0) 4
  let s := (s.set GRP_TF 0).set GRP_STAT_TSTATE
    (bit (s.on GRP_CFG_EN && s.on GRP_CFG_TSRC && s.get GLB_STRAP_DEVID != 0))
  s.showGroup

/-- Places the mirror slots of the twin tasks one after the other, even before odd (R368). -/
def State.placeSlots (s : State) : List Nat → Nat → State
  | [], _ => s
  | t :: r, off =>
    let n := s.mirrorSlot t
    (s.set (TW_TSLOT_OFFSET t) off).placeSlots r (off + 2 * n)

/-- The twin starts: a member is INIT, nothing of an earlier lease or transfer stays (R354, R366, R368). -/
def State.startTwin (s : State) : State :=
  let s := { s with twinOut := [] }
  let s := (((s.set TW_E 0).set TW_HEARD 0).set TW_GRANT_AT 0).set TW_LSTG 0
  let s := (((s.set TW_LSTG2 0).set TW_PSOLO 0).set TW_PREL 0).set TW_SOLOP 0
  let s := ((((s.set TW_MSGF 0).set TW_ATKO 0).set TW_BOTH 1).set TW_OUTF 0).set TW_REL 0
  let s := ((s.restore (TW_MISSF 0) 16).restore (TW_RA 0) 16).restore (TW_RB 0) 16
  let s := ((s.restore (TW_XREQ 0) 16).restore (TW_RXON 0) 16).restore (TW_XFER 0) 16
  let s := ((s.restore (TW_LASTC 0) 16).restore (TW_CHLEN 0) 16).restore (TW_FZ 0) 16
  if s.on TW_CFG_EN then (s.placeSlots s.twinTasks 0).setRole .init 0
  else ((((s.set TW_STAT_ROLE 0).set TW_STAT_ACTIVE 0).set TW_STAT_SOLO 0).set TW_STAT_FIT 0).set TW_STAT_COMMIT 0

/-- Every block starts with the configuration set in force (R409, R450). -/
def State.startBlocks (s : State) : State :=
  let s := s.startTasks.startChannels.startGroups.startNet.startCan.startGroupLinks.startTwin
  s.set CFG_ON 1

/-- A configuration set is applied (R409, R450). -/
def State.applyConfig (s : State) (cs : ConfigSet) : State := (s.writeConfig cs).startBlocks

end Sys2Proof.Machine
end

