-- ==== Sys2Proof/Machine/ScanBit.lean ====
section
/-! DEFINITION. Bit logic, nesting and edge bits of the scan engine (R42 to R44, R56, R57). -/

namespace Sys2Proof.Machine
open Reg Hid

/-- An instruction that makes a new BA from BA and a bit operand. -/
def State.bitLogic (s : State) (l : Lane) (i : Instr) (o : BitOp) (f : Bool → Bool → Bool) : State :=
  s.scanCtx l i (fun s t _ => s.bitOpOk t o) fun s _ c => { c with ba := f c.ba (s.bitVal l o) }

/-- An instruction that stores to a bit when `go` holds of BA. -/
def State.bitStore (s : State) (l : Lane) (i : Instr) (r : BitRef) (go : Bool → Bool) (v : Bool → Bool) : State :=
  s.scan l i (fun s t _ => s.bitStoreOk t r) fun s t c =>
    (if go c.ba then s.storeBit l r (v c.ba) else s).setCtx l t c

/-- An open instruction: the saved BA with its operator is pushed and BA loads the operand; a full stack is a nesting
overflow (R44). -/
def State.openNest (s : State) (l : Lane) (i : Instr) (o : BitOp) (op : NestOp) : State :=
  s.scan l i (fun s t _ => s.bitOpOk t o) fun s t c =>
    if c.nest.length ≥ 32 then s.scanTrip l t c 0x2004 0 (TSK_EVT_NEST_OVF t)
    else s.setCtx l t { c with nest := { ba := c.ba, op := op } :: c.nest, ba := s.bitVal l o }

/-- Whether an edge instruction primes its bit: in the first scan after a warm restart, after a cold one when
EDGE_COLD is 1, and at the first execution of a bit that an on-line change brought in (R57, R137). -/
def State.primes (s : State) (l : Lane) (t e : Nat) : Bool :=
  (s.sys t).first == 1 || ((s.sys t).first == 2 && s.on (TSK_CFG_EDGE_COLD t)) || s.on (EDGE_NEW l.idx e)

/-- The edge bit E. -/
def State.edgeBit (s : State) (l : Lane) (old : Bool) (e : Nat) : Bool :=
  (s.byte (edgeBase l + oldBank old + e / 8)).getLsbD (e % 8)

/-- Sets E. -/
def State.setEdge (s : State) (l : Lane) (old : Bool) (e : Nat) (b : Bool) : State :=
  let a := edgeBase l + oldBank old + e / 8
  let s := s.setByte a (putBit (s.byte a) (e % 8) b)
  if old then s else s.set (EDGE_NEW l.idx e) 0

/-- An edge instruction: E := BA, BA := the edge, or 0 while priming (R56, R57). -/
def State.edge (s : State) (l : Lane) (i : Instr) (e : Nat) (f : Bool → Bool → Bool) : State :=
  s.scan l i okAlways fun s t c =>
    let r := if s.primes l t e then false else f c.ba (s.edgeBit l c.old e)
    (s.setEdge l c.old e c.ba).setCtx l t { c with ba := r }

/-- NOP does nothing but advance (R42). -/
def execNop (l : Lane) (s : State) : Host.Outcome State Fault Refusal := .next (s.scanCtx l (.nop l) okAlways fun _ _ c => c)

/-- BA := op (R42). -/
def execLd (l : Lane) (o : BitOp) (s : State) : Host.Outcome State Fault Refusal :=
  .next (s.bitLogic l (.ld l o) o fun _ v => v)

/-- BA := NOT op (R42). -/
def execLdn (l : Lane) (o : BitOp) (s : State) : Host.Outcome State Fault Refusal :=
  .next (s.bitLogic l (.ldn l o) o fun _ v => !v)

/-- BA := BA AND op (R42). -/
def execAndBit (l : Lane) (o : BitOp) (s : State) : Host.Outcome State Fault Refusal :=
  .next (s.bitLogic l (.andBit l o) o fun b v => b && v)

/-- BA := BA AND NOT op (R42). -/
def execAndn (l : Lane) (o : BitOp) (s : State) : Host.Outcome State Fault Refusal :=
  .next (s.bitLogic l (.andn l o) o fun b v => b && !v)

/-- BA := BA OR op (R42). -/
def execOrBit (l : Lane) (o : BitOp) (s : State) : Host.Outcome State Fault Refusal :=
  .next (s.bitLogic l (.orBit l o) o fun b v => b || v)

/-- BA := BA OR NOT op (R42). -/
def execOrn (l : Lane) (o : BitOp) (s : State) : Host.Outcome State Fault Refusal :=
  .next (s.bitLogic l (.orn l o) o fun b v => b || !v)

/-- BA := BA XOR op (R42). -/
def execXorBit (l : Lane) (o : BitOp) (s : State) : Host.Outcome State Fault Refusal :=
  .next (s.bitLogic l (.xorBit l o) o fun b v => b != v)

/-- BA := NOT BA (R42). -/
def execNotBit (l : Lane) (s : State) : Host.Outcome State Fault Refusal :=
  .next (s.scanCtx l (.notBit l) okAlways fun _ _ c => { c with ba := !c.ba })

/-- op := BA (R42). -/
def execSt (l : Lane) (r : BitRef) (s : State) : Host.Outcome State Fault Refusal :=
  .next (s.bitStore l (.st l r) r (fun _ => true) (fun b => b))

/-- op := NOT BA (R42). -/
def execStn (l : Lane) (r : BitRef) (s : State) : Host.Outcome State Fault Refusal :=
  .next (s.bitStore l (.stn l r) r (fun _ => true) (fun b => !b))

/-- If BA, then op := 1 (R42). -/
def execSet (l : Lane) (r : BitRef) (s : State) : Host.Outcome State Fault Refusal :=
  .next (s.bitStore l (.set l r) r (fun b => b) (fun _ => true))

/-- If BA, then op := 0 (R42). -/
def execRst (l : Lane) (r : BitRef) (s : State) : Host.Outcome State Fault Refusal :=
  .next (s.bitStore l (.rst l r) r (fun b => b) (fun _ => false))

/-- Push (BA, AND); BA := op (R42, R44). -/
def execAndOpen (l : Lane) (o : BitOp) (s : State) : Host.Outcome State Fault Refusal :=
  .next (s.openNest l (.andOpen l o) o .and)

/-- Push (BA, OR); BA := op (R42, R44). -/
def execOrOpen (l : Lane) (o : BitOp) (s : State) : Host.Outcome State Fault Refusal :=
  .next (s.openNest l (.orOpen l o) o .or)

/-- Push (BA, XOR); BA := op (R42, R44). -/
def execXorOpen (l : Lane) (o : BitOp) (s : State) : Host.Outcome State Fault Refusal :=
  .next (s.openNest l (.xorOpen l o) o .xor)

/-- Pop (s, o); BA := s o BA; an empty stack is a nesting imbalance (R42, R44). -/
def execClose (l : Lane) (s : State) : Host.Outcome State Fault Refusal :=
  .next (s.scan l (.close l) okAlways fun s t c =>
    match c.nest with
    | [] => s.scanTrip l t c 0x2005 0 (TSK_EVT_NEST_IMBAL t)
    | e :: r => s.setCtx l t { c with nest := r, ba := e.op.eval e.ba c.ba })

/-- Rising edge: BA := BA and not E; E := the old BA (R56). -/
def execEdgr (l : Lane) (e : Nat) (s : State) : Host.Outcome State Fault Refusal :=
  .next (s.edge l (.edgr l e) e fun b x => b && !x)

/-- Falling edge: BA := not BA and E; E := the old BA (R56). -/
def execEdgf (l : Lane) (e : Nat) (s : State) : Host.Outcome State Fault Refusal :=
  .next (s.edge l (.edgf l e) e fun b x => !b && x)

end Sys2Proof.Machine
end

