-- ==== Sys2Proof/Machine/ScanControl.lean ====
section
/-! DEFINITION. Jumps, calls, returns and the end of a scan (R42, R44, R49, R75). -/

namespace Sys2Proof.Machine
open Reg Hid

/-- A jump, taken or not; its target is checked either way (R42, R75). -/
def State.jump (s : State) (l : Lane) (i : Instr) (target : Nat) (taken : Bool → Bool) : State :=
  s.scanCtx l i (fun s _ c => s.jumpOk c target) fun _ _ c => if taken c.ba then { c with pc := target } else c

/-- A call, taken or not: the return index and the nesting depth are pushed; a full stack is a call overflow (R42, R49). -/
def State.call (s : State) (l : Lane) (i : Instr) (pou : Nat) (taken : Bool → Bool) : State :=
  s.scan l i (fun s _ c => s.callOk c pou) fun s t c =>
    if !taken c.ba then s.setCtx l t c
    else if c.call.length ≥ 16 then s.scanTrip l t c 0x2006 0 (TSK_EVT_CALL_OVF t)
    else s.setCtx l t { c with call := { ret := c.pc, depth := c.nest.length } :: c.call, pc := s.pouEntry c pou }

/-- A return, taken or not: to the saved index with the nesting depth of the call, or, with an empty call stack, the
end of the scan (R44, R49). -/
def State.return (s : State) (l : Lane) (i : Instr) (taken : Bool → Bool) : State :=
  s.scan l i okAlways fun s t c =>
    if !taken c.ba then s.setCtx l t c
    else match c.call with
    | [] => s.endScan l t c 2
    | e :: r =>
      if c.nest.length = e.depth then s.setCtx l t { c with call := r, pc := e.ret }
      else s.scanTrip l t c 0x2005 2 (TSK_EVT_NEST_IMBAL t)

/-- PC := target (R42). -/
def execJmp (l : Lane) (target : Nat) (s : State) : Host.Outcome State Fault Refusal :=
  .next (s.jump l (.jmp l target) target (fun _ => true))

/-- If BA, then PC := target (R42). -/
def execJmpc (l : Lane) (target : Nat) (s : State) : Host.Outcome State Fault Refusal :=
  .next (s.jump l (.jmpc l target) target (fun b => b))

/-- If NOT BA, then PC := target (R42). -/
def execJmpcn (l : Lane) (target : Nat) (s : State) : Host.Outcome State Fault Refusal :=
  .next (s.jump l (.jmpcn l target) target (fun b => !b))

/-- Push (PC + 1, nesting depth); PC := POU entry (R42, R49). -/
def execCall (l : Lane) (pou : Nat) (s : State) : Host.Outcome State Fault Refusal :=
  .next (s.call l (.call l pou) pou (fun _ => true))

/-- CALL if BA (R42, R49). -/
def execCallc (l : Lane) (pou : Nat) (s : State) : Host.Outcome State Fault Refusal :=
  .next (s.call l (.callc l pou) pou (fun b => b))

/-- CALL if NOT BA (R42, R49). -/
def execCallcn (l : Lane) (pou : Nat) (s : State) : Host.Outcome State Fault Refusal :=
  .next (s.call l (.callcn l pou) pou (fun b => !b))

/-- Return, or end of scan (R49). -/
def execRet (l : Lane) (s : State) : Host.Outcome State Fault Refusal :=
  .next (s.return l (.ret l) (fun _ => true))

/-- RET if BA (R49). -/
def execRetc (l : Lane) (s : State) : Host.Outcome State Fault Refusal :=
  .next (s.return l (.retc l) (fun b => b))

/-- End of scan from any POU: the output slice is presented (R49). -/
def execEndScan (l : Lane) (s : State) : Host.Outcome State Fault Refusal :=
  .next (s.scan l (.endScan l) okAlways fun s t c => s.endScan l t c 1)

end Sys2Proof.Machine
end

