-- ==== Sys2Proof/Machine/ScanSys.lean ====
section
/-! DEFINITION. Timers, counters, FLOW and SYS of the scan engine (R50 to R55, R58, R60 to R62). -/

namespace Sys2Proof.Machine
open Reg Hid

/-- A timer instance as its 16 bytes hold it (R58): ET, Q, IN_prev and T_last. -/
structure TimerInst where
  et : Nat
  q : Bool
  prev : Bool
  tLast : Nat
  deriving DecidableEq, Repr

/-- Reads a timer instance of a lane. -/
def State.timer (s : State) (l : Lane) (old : Bool) (n : Nat) : TimerInst :=
  let a := timerBase l + oldBank old + 16 * n
  { et := s.rd a 4, q := (s.byte (a + 11)).getLsbD 0, prev := (s.byte (a + 11)).getLsbD 1, tLast := s.rd (a + 12) 4 }

/-- Writes a timer instance with the PT_p of this execution; its ID, owner and kind stay (R58). A PT_p above 2^32 − 1 does not fit
the four bytes that R58 gives it: they keep it modulo 2^32 (the model's choice, log 88). -/
def State.setTimer (s : State) (l : Lane) (old : Bool) (n : Nat) (x : TimerInst) (ptp : Nat) : State :=
  let a := timerBase l + oldBank old + 16 * n
  (((s.wr a 4 x.et).wr (a + 4) 4 ptp).wr (a + 11) 1 (bit x.q + 2 * bit x.prev)).wr (a + 12) 4 x.tLast

/-- The preset in periods: ceil(PT × 1000 / T), a negative preset counting as 0 (R50). -/
def presetPeriods (wa : Word) (tUs : Nat) : Nat := ceilDiv (wa.toInt.toNat * 1000) tUs

/-- ET restated in periods of T when the period has changed, saturating (R50, R53). -/
def TimerInst.rescale (x : TimerInst) (tUs : Nat) : TimerInst :=
  if x.tLast = tUs then x else { x with et := min (x.et * x.tLast / tUs) 4294967295, tLast := tUs }

/-- One more period, once a scan, saturating at 2³² − 1 (R50). -/
def advance (adv : Bool) (et : Nat) : Nat := if adv then min (et + 1) 4294967295 else et

/-- TON (R51). -/
def tonStep (x : TimerInst) (inp adv : Bool) (ptp : Nat) : TimerInst :=
  if inp then
    let et := if !x.prev then 0 else if x.et < ptp then advance adv x.et else x.et
    { x with et := et, q := decide (ptp ≤ et), prev := inp }
  else { x with et := 0, q := false, prev := inp }

/-- TOF (R51). -/
def tofStep (x : TimerInst) (inp adv : Bool) (ptp : Nat) : TimerInst :=
  if inp then { x with et := 0, q := true, prev := inp }
  else
    let et := if x.prev then 0 else if x.et < ptp then advance adv x.et else x.et
    { x with et := et, q := x.q && decide (et < ptp), prev := inp }

/-- TP (R51). -/
def tpStep (x : TimerInst) (inp adv : Bool) (ptp : Nat) : TimerInst :=
  if x.q then
    let et := advance adv x.et
    { x with et := et, q := decide (et < ptp), prev := inp }
  else if inp && !x.prev && x.et == 0 then { x with q := decide (0 < ptp), prev := inp }
  else if !inp && decide (ptp ≤ x.et) then { x with et := 0, prev := inp }
  else { x with prev := inp }

/-- A timer instruction: IN from BA, PT from WA; BA := Q, WB := elapsed ms; the instance advances once a scan (R50 to R53). -/
def State.timerOp (s : State) (l : Lane) (i : Instr) (n : Nat)
    (step : TimerInst → Bool → Bool → Nat → TimerInst) : State :=
  s.scan l i okAlways fun s t c =>
    let tUs := s.periodUs t
    let ptp := presetPeriods c.wa tUs
    let x := step ((s.timer l c.old n).rescale tUs) c.ba (!c.timersDone.contains n) ptp
    (s.setTimer l c.old n x ptp).setCtx l t
      { c with ba := x.q, wb := BitVec.ofNat 32 (min (x.et * tUs / 1000) 2147483647), timersDone := n :: c.timersDone }

/-- A flag of a counter instance: 0 CU, 1 CD, 2 R, 3 LD, 4 CU_prev, 5 CD_prev, 6 QU, 7 QD (R58). -/
def State.ctrFlag (s : State) (l : Lane) (old : Bool) (n k : Nat) : Bool :=
  (s.byte (counterBase l + oldBank old + 16 * n + 11)).getLsbD k

/-- A counter port: latches BA as an input, evaluates nothing (R54). -/
def State.ctrPort (s : State) (l : Lane) (i : Instr) (n k : Nat) : State :=
  s.scan l i okAlways fun s t c =>
    let a := counterBase l + oldBank c.old + 16 * n + 11
    (s.setByte a (putBit (s.byte a) k c.ba)).setCtx l t c

/-- CV after an evaluation (R55). -/
def ctrNext (cv pv : Int) (r ld up down : Bool) : Int :=
  if r then 0 else if ld then pv
  else
    let cv := if up && decide (cv < 2147483647) then cv + 1 else cv
    if down && decide (-2147483648 < cv) then cv - 1 else cv

/-- EVAL of a counter: PV from WA; BA := QU, or QD for CTD; WB := CV (R54, R55). -/
def State.ctrEval (s : State) (l : Lane) (i : Instr) (k : CtrKind) (n : Nat) : State :=
  s.scan l i okAlways fun s t c =>
    let a := counterBase l + oldBank c.old + 16 * n
    let cu := s.ctrFlag l c.old n 0
    let cd := s.ctrFlag l c.old n 1
    let cv := ctrNext (s.word a).toInt c.wa.toInt (s.ctrFlag l c.old n 2) (s.ctrFlag l c.old n 3)
      (cu && !s.ctrFlag l c.old n 4) (cd && !s.ctrFlag l c.old n 5)
    let qu := decide (c.wa.toInt ≤ cv)
    let qd := decide (cv ≤ 0)
    let fl := bit cu + 2 * bit cd + 4 * bit (s.ctrFlag l c.old n 2) + 8 * bit (s.ctrFlag l c.old n 3) + 16 * bit cu +
      32 * bit cd + 64 * bit qu + 128 * bit qd
    let w := BitVec.ofInt 32 cv
    (((s.setWord a w).setWord (a + 4) c.wa).wr (a + 11) 1 fl).setCtx l t
      { c with ba := if k = .ctd then qd else qu, wb := w }

/-- A FLOW function: from the state of the flow latched for the task (R60). -/
def State.flowOp (s : State) (l : Lane) (i : Instr) (f : Nat) (g : Ctx → FlowLatch → Ctx) : State :=
  s.scanCtx l i okAlways fun s t c => g c (s.flowSeen t f)

/-- A SYS function: from the values latched for the task (R61). -/
def State.sysOp (s : State) (l : Lane) (i : Instr) (g : Ctx → SysLatch → Ctx) : State :=
  s.scanCtx l i okAlways fun s t c => g c (s.sys t)

/-- The request value of SYS POWER: WA[2:0], 5 to 7 treated as 0 (R61). -/
def powerValue (wa : Word) : Nat := if wa.toNat % 8 ≤ 4 then wa.toNat % 8 else 0

/-- On-delay timer (R50 to R53). -/
def execTon (l : Lane) (n : Nat) (s : State) : Host.Outcome State Fault Refusal :=
  .next (s.timerOp l (.ton l n) n tonStep)

/-- Off-delay timer (R50 to R53). -/
def execTof (l : Lane) (n : Nat) (s : State) : Host.Outcome State Fault Refusal :=
  .next (s.timerOp l (.tof l n) n tofStep)

/-- Pulse timer (R50 to R53). -/
def execTp (l : Lane) (n : Nat) (s : State) : Host.Outcome State Fault Refusal :=
  .next (s.timerOp l (.tp l n) n tpStep)

/-- Latch BA as the count-up input (R54). -/
def execCu (l : Lane) (k : CtrKind) (n : Nat) (s : State) : Host.Outcome State Fault Refusal :=
  .next (s.ctrPort l (.cu l k n) n 0)

/-- Latch BA as the count-down input (R54). -/
def execCd (l : Lane) (k : CtrKind) (n : Nat) (s : State) : Host.Outcome State Fault Refusal :=
  .next (s.ctrPort l (.cd l k n) n 1)

/-- Latch BA as the reset input (R54). -/
def execCounterR (l : Lane) (k : CtrKind) (n : Nat) (s : State) : Host.Outcome State Fault Refusal :=
  .next (s.ctrPort l (.counterR l k n) n 2)

/-- Latch BA as the load input (R54). -/
def execCounterLd (l : Lane) (k : CtrKind) (n : Nat) (s : State) : Host.Outcome State Fault Refusal :=
  .next (s.ctrPort l (.counterLd l k n) n 3)

/-- BA := QD of the last evaluation (R54). -/
def execQd (l : Lane) (k : CtrKind) (n : Nat) (s : State) : Host.Outcome State Fault Refusal :=
  .next (s.scanCtx l (.qd l k n) okAlways fun s _ c => { c with ba := s.ctrFlag l c.old n 7 })

/-- Evaluates a counter (R54, R55). -/
def execEval (l : Lane) (k : CtrKind) (n : Nat) (s : State) : Host.Outcome State Fault Refusal :=
  .next (s.ctrEval l (.eval l k n) k n)

/-- WA := receive age (R60). -/
def execReceiveAge (l : Lane) (f : Nat) (s : State) : Host.Outcome State Fault Refusal :=
  .next (s.flowOp l (.receiveAge l f) f fun c x => { c with wa := BitVec.ofNat 32 x.rxAge })

/-- WA := sender age (R60). -/
def execSenderAge (l : Lane) (f : Nat) (s : State) : Host.Outcome State Fault Refusal :=
  .next (s.flowOp l (.senderAge l f) f fun c x => { c with wa := BitVec.ofNat 32 x.sndAge })

/-- BA := stale (R60). -/
def execStale (l : Lane) (f : Nat) (s : State) : Host.Outcome State Fault Refusal :=
  .next (s.flowOp l (.stale l f) f fun c x => { c with ba := x.stale })

/-- BA := repeat flag of the last accepted frame (R60). -/
def execRepeatFlag (l : Lane) (f : Nat) (s : State) : Host.Outcome State Fault Refusal :=
  .next (s.flowOp l (.repeatFlag l f) f fun c x => { c with ba := x.rep })

/-- WA := lanes in the vote, in ASSAY or SEEDING, retired; BA := all three in the vote (R61). -/
def execLanes (l : Lane) (s : State) : Host.Outcome State Fault Refusal :=
  .next (s.sysOp l (.lanes l) fun c x => { c with wa := x.lanes, ba := x.allIn })

/-- WA := network state; BA := in sync (R61). -/
def execSync (l : Lane) (s : State) : Host.Outcome State Fault Refusal :=
  .next (s.sysOp l (.sync l) fun c x => { c with wa := x.sync, ba := x.inSync })

/-- WA := role, ACTIVE, SOLO and periods to expiry; BA := ACTIVE (R61). -/
def execLease (l : Lane) (s : State) : Host.Outcome State Fault Refusal :=
  .next (s.sysOp l (.lease l) fun c x => { c with wa := x.lease, ba := x.active })

/-- WA := the lane of a SINGLE task, 0 in a TRIPLE task (R61). -/
def execLane (l : Lane) (s : State) : Host.Outcome State Fault Refusal :=
  .next (s.sysOp l (.lane l) fun c x => { c with wa := x.lane })

/-- WA := T in µs (R61). -/
def execPeriod (l : Lane) (s : State) : Host.Outcome State Fault Refusal :=
  .next (s.sysOp l (.period l) fun c x => { c with wa := BitVec.ofNat 32 x.period })

/-- BA := first scan after a restart; WA := 1 after warm, 2 after cold (R61). -/
def execFirst (l : Lane) (s : State) : Host.Outcome State Fault Refusal :=
  .next (s.sysOp l (.first l) fun c x => { c with wa := x.first, ba := x.first != 0 })

/-- WA := low 32 bits of the furlong number at the action instant (R61). -/
def execFurlong (l : Lane) (s : State) : Host.Outcome State Fault Refusal :=
  .next (s.sysOp l (.furlong l) fun c x => { c with wa := x.furlong })

/-- Requests a power state: in a TRIPLE task the value becomes part of the presentation and BA the latched forwarding
result; in a SINGLE task it is refused and BA is 0 (R24, R61, R62). -/
def execPower (l : Lane) (s : State) : Host.Outcome State Fault Refusal :=
  .next (s.scan l (.power l) okAlways fun s t c =>
    if s.isTriple t then s.setCtx l t { c with ba := (s.sys t).powerFwd, power := powerValue c.wa + 1 }
    else
      let s := s.raise (TSK_EVT_REFUSED t) (TSK_EVCNT1_FAULT_CNT t)
      (s.ev 0x2009 l.code 0x00010000 t l.code).setCtx l t { c with ba := false })

end Sys2Proof.Machine
end

