-- ==== Sys2Proof/Machine/ScanWord.lean ====
section
/-! DEFINITION. Word instructions of the scan engine (R42, R45 to R48). -/

namespace Sys2Proof.Machine
open Reg Hid

/-- An instruction with a word operand whose only effect is on the context. -/
def State.wordOp (s : State) (l : Lane) (i : Instr) (o : WordOp) (f : Ctx → Word → Ctx) : State :=
  s.scanCtx l i (fun s t _ => s.wordOpOk t o) fun s _ c => f c (s.wordVal l o)

/-- An arithmetic result into WA, CY and OV (R45). -/
def Ctx.arith (c : Ctx) (r : Arith) : Ctx := { c with wa := r.wa, cy := r.cy, ov := r.ov }

/-- A shift result into WA and CY (R47). -/
def Ctx.shift (c : Ctx) (r : Word × Bool) : Ctx := { c with wa := r.1, cy := r.2 }

/-- WA := op (R42). -/
def execLdw (l : Lane) (o : WordOp) (s : State) : Host.Outcome State Fault Refusal :=
  .next (s.wordOp l (.ldw l o) o fun c v => { c with wa := v })

/-- op := WA (R42). -/
def execStw (l : Lane) (r : WordRef) (s : State) : Host.Outcome State Fault Refusal :=
  .next (s.scan l (.stw l r) (fun s t _ => s.wordStoreOk t r) fun s t c =>
    (s.setWord (wordAddr r l) c.wa).setCtx l t c)

/-- WB := op (R42). -/
def execLdwb (l : Lane) (o : WordOp) (s : State) : Host.Outcome State Fault Refusal :=
  .next (s.wordOp l (.ldwb l o) o fun c v => { c with wb := v })

/-- WA := WA + op; sets CY and OV (R42, R45). -/
def execAdd (l : Lane) (o : WordOp) (s : State) : Host.Outcome State Fault Refusal :=
  .next (s.wordOp l (.add l o) o fun c v => c.arith (addFlags c.wa v))

/-- WA := WA − op; sets CY (borrow) and OV (R42, R45). -/
def execSub (l : Lane) (o : WordOp) (s : State) : Host.Outcome State Fault Refusal :=
  .next (s.wordOp l (.sub l o) o fun c v => c.arith (subFlags c.wa v))

/-- WA := low 32 bits of WA × op; sets OV; CY := 0 (R42, R45). -/
def execMul (l : Lane) (o : WordOp) (s : State) : Host.Outcome State Fault Refusal :=
  .next (s.wordOp l (.mul l o) o fun c v => c.arith (mulFlags c.wa v))

/-- WA := WA / op, truncated toward zero; WB := remainder. By zero: WA = WB = 0, DZ set and counted, no trip; any DIV
but that of −2³¹ by −1 clears OV (R42, R45). -/
def execDiv (l : Lane) (o : WordOp) (s : State) : Host.Outcome State Fault Refusal :=
  .next (s.scan l (.div l o) (fun s t _ => s.wordOpOk t o) fun s t c =>
    let v := s.wordVal l o
    let c' := { c with wa := divQuot c.wa v, wb := divRem c.wa v, ov := divOv c.wa v }
    if v = 0 then
      let c' := { c' with dz := true, dzCount := c'.dzCount + 1 }
      (s.divZero l t c').setCtx l t c'
    else s.setCtx l t c')

/-- WA := WA AND WB (R46). -/
def execWopAnd (l : Lane) (s : State) : Host.Outcome State Fault Refusal :=
  .next (s.scanCtx l (.wopAnd l) okAlways fun _ _ c => { c with wa := c.wa &&& c.wb })

/-- WA := WA OR WB (R46). -/
def execWopOr (l : Lane) (s : State) : Host.Outcome State Fault Refusal :=
  .next (s.scanCtx l (.wopOr l) okAlways fun _ _ c => { c with wa := c.wa ||| c.wb })

/-- WA := WA XOR WB (R46). -/
def execWopXor (l : Lane) (s : State) : Host.Outcome State Fault Refusal :=
  .next (s.scanCtx l (.wopXor l) okAlways fun _ _ c => { c with wa := c.wa ^^^ c.wb })

/-- WA := NOT WA (R46). -/
def execInv (l : Lane) (s : State) : Host.Outcome State Fault Refusal :=
  .next (s.scanCtx l (.inv l) okAlways fun _ _ c => { c with wa := ~~~c.wa })

/-- WA := −WA; OV := 1 when WA was −2³¹, else 0 (R46). -/
def execNeg (l : Lane) (s : State) : Host.Outcome State Fault Refusal :=
  .next (s.scanCtx l (.neg l) okAlways fun _ _ c => { c with wa := -c.wa, ov := negOv c.wa })

/-- WA := |WA|; OV := 1 when WA was −2³¹, which stays, else 0 (R46). -/
def execAbs (l : Lane) (s : State) : Host.Outcome State Fault Refusal :=
  .next (s.scanCtx l (.abs l) okAlways fun _ _ c => { c with wa := absWord c.wa, ov := negOv c.wa })

/-- WA := WA rem WB, with the sign of WA; WB = 0 gives 0 and sets DZ as for DIV (R46). -/
def execMod (l : Lane) (s : State) : Host.Outcome State Fault Refusal :=
  .next (s.scan l (.mod l) okAlways fun s t c =>
    let c' := { c with wa := divRem c.wa c.wb }
    if c.wb = 0 then
      let c' := { c' with dz := true, dzCount := c'.dzCount + 1 }
      (s.divZero l t c').setCtx l t c'
    else s.setCtx l t c')

/-- Exchange WA and WB (R46). -/
def execSwap (l : Lane) (s : State) : Host.Outcome State Fault Refusal :=
  .next (s.scanCtx l (.swap l) okAlways fun _ _ c => { c with wa := c.wb, wb := c.wa })

/-- WB := WA (R46). -/
def execTob (l : Lane) (s : State) : Host.Outcome State Fault Refusal :=
  .next (s.scanCtx l (.tob l) okAlways fun _ _ c => { c with wb := c.wa })

/-- WA := WB (R46). -/
def execFromb (l : Lane) (s : State) : Host.Outcome State Fault Refusal :=
  .next (s.scanCtx l (.fromb l) okAlways fun _ _ c => { c with wa := c.wb })

/-- BA := bit (WB mod 32) of WA (R46). -/
def execBtst (l : Lane) (s : State) : Host.Outcome State Fault Refusal :=
  .next (s.scanCtx l (.btst l) okAlways fun _ _ c => { c with ba := c.wa.getLsbD (c.wb.toNat % 32) })

/-- WA := 1 if BA, else 0 (R46). -/
def execBtow (l : Lane) (s : State) : Host.Outcome State Fault Refusal :=
  .next (s.scanCtx l (.btow l) okAlways fun _ _ c => { c with wa := if c.ba then 1 else 0 })

/-- BA := (WA = op) (R42). -/
def execCeq (l : Lane) (o : WordOp) (s : State) : Host.Outcome State Fault Refusal :=
  .next (s.wordOp l (.ceq l o) o fun c v => { c with ba := c.wa == v })

/-- BA := (WA ≠ op) (R42). -/
def execCne (l : Lane) (o : WordOp) (s : State) : Host.Outcome State Fault Refusal :=
  .next (s.wordOp l (.cne l o) o fun c v => { c with ba := c.wa != v })

/-- BA := (WA > op), signed (R42). -/
def execCgt (l : Lane) (o : WordOp) (s : State) : Host.Outcome State Fault Refusal :=
  .next (s.wordOp l (.cgt l o) o fun c v => { c with ba := decide (v.toInt < c.wa.toInt) })

/-- BA := (WA ≥ op), signed (R42). -/
def execCge (l : Lane) (o : WordOp) (s : State) : Host.Outcome State Fault Refusal :=
  .next (s.wordOp l (.cge l o) o fun c v => { c with ba := decide (v.toInt ≤ c.wa.toInt) })

/-- BA := (WA < op), signed (R42). -/
def execClt (l : Lane) (o : WordOp) (s : State) : Host.Outcome State Fault Refusal :=
  .next (s.wordOp l (.clt l o) o fun c v => { c with ba := decide (c.wa.toInt < v.toInt) })

/-- BA := (WA ≤ op), signed (R42). -/
def execCle (l : Lane) (o : WordOp) (s : State) : Host.Outcome State Fault Refusal :=
  .next (s.wordOp l (.cle l o) o fun c v => { c with ba := decide (c.wa.toInt ≤ v.toInt) })

/-- Shift WA left (R42, R47). -/
def execShl (l : Lane) (o : WordOp) (s : State) : Host.Outcome State Fault Refusal :=
  .next (s.wordOp l (.shl l o) o fun c v => c.shift (shlFlags c.wa v.toNat))

/-- Shift WA right, logical (R42, R47). -/
def execShr (l : Lane) (o : WordOp) (s : State) : Host.Outcome State Fault Refusal :=
  .next (s.wordOp l (.shr l o) o fun c v => c.shift (shrFlags c.wa v.toNat))

/-- Shift WA right, arithmetic (R42, R47). -/
def execSar (l : Lane) (o : WordOp) (s : State) : Host.Outcome State Fault Refusal :=
  .next (s.wordOp l (.sar l o) o fun c v => c.shift (sarFlags c.wa v.toNat))

/-- Rotate WA left by the count mod 32 (R42, R47). -/
def execRol (l : Lane) (o : WordOp) (s : State) : Host.Outcome State Fault Refusal :=
  .next (s.wordOp l (.rol l o) o fun c v => c.shift (rolFlags c.wa v.toNat))

/-- WA := min(WA, op), signed (R42). -/
def execMin (l : Lane) (o : WordOp) (s : State) : Host.Outcome State Fault Refusal :=
  .next (s.wordOp l (.min l o) o fun c v => { c with wa := minWord c.wa v })

/-- WA := max(WA, op), signed (R42). -/
def execMax (l : Lane) (o : WordOp) (s : State) : Host.Outcome State Fault Refusal :=
  .next (s.wordOp l (.max l o) o fun c v => { c with wa := maxWord c.wa v })

/-- WA := min(max(WA, WB), op), signed (R42, R47). -/
def execLimit (l : Lane) (o : WordOp) (s : State) : Host.Outcome State Fault Refusal :=
  .next (s.wordOp l (.limit l o) o fun c v => { c with wa := limitWord c.wa c.wb v })

/-- If BA, then WA := op (R42). -/
def execSel (l : Lane) (o : WordOp) (s : State) : Host.Outcome State Fault Refusal :=
  .next (s.wordOp l (.sel l o) o fun c v => { c with wa := if c.ba then v else c.wa })

/-- WA := word at base + WB; outside the slice or window, or unaligned, an index fault (R48). A base that itself lies outside is
taken as a direct operand of R75 and makes the word illegal, even where base + WB lies inside (the model's choice, log 89). -/
def execLdx (l : Lane) (r : WordRef) (s : State) : Host.Outcome State Fault Refusal :=
  .next (s.scan l (.ldx l r) (fun s t _ => s.owns t r.sp r.addr 4) fun s t c =>
    if s.indexFault t r c.wb then s.scanTrip l t c 0x2007 (c.wb.toNat % 65536) (TSK_EVT_INDEX t)
    else s.setCtx l t { c with wa := s.word (spBase r.sp l + indexed r c.wb) })

/-- Word at base + WB := WA; outside the slice or window, or unaligned, an index fault (R48). A base that itself lies outside makes
the word illegal (the model's choice, log 89). -/
def execStx (l : Lane) (r : WordRef) (s : State) : Host.Outcome State Fault Refusal :=
  .next (s.scan l (.stx l r) (fun s t _ => s.wordStoreOk t r) fun s t c =>
    if s.indexFault t r c.wb then s.scanTrip l t c 0x2007 (c.wb.toNat % 65536) (TSK_EVT_INDEX t)
    else (s.setWord (spBase r.sp l + indexed r c.wb) c.wa).setCtx l t c)

/-- The flag that LDF reads. -/
def Ctx.flag (c : Ctx) : FlagSel → Bool
  | .CY => c.cy
  | .OV => c.ov
  | .DZ => c.dz

/-- The context with a flag cleared. -/
def Ctx.clearFlag (c : Ctx) : FlagSel → Ctx
  | .CY => { c with cy := false }
  | .OV => { c with ov := false }
  | .DZ => { c with dz := false }

/-- BA := CY, OV or DZ; with the clear bit the flag is then cleared (R42). -/
def execLdf (l : Lane) (f : FlagSel) (clear : Bool) (s : State) : Host.Outcome State Fault Refusal :=
  .next (s.scanCtx l (.ldf l f clear) okAlways fun _ _ c =>
    let c' := { c with ba := c.flag f }
    if clear then c'.clearFlag f else c')

/-- WA[31:16] := value; WA[15:0] unchanged (R42). -/
def execLdh (l : Lane) (v : BitVec 16) (s : State) : Host.Outcome State Fault Refusal :=
  .next (s.scanCtx l (.ldh l v) okAlways fun _ _ c => { c with wa := v ++ c.wa.setWidth 16 })

end Sys2Proof.Machine
end

