-- ==== Sys2Proof/Machine/ScanRun.lean ====
section
/-! DEFINITION. Running the instruction that stands in a lane's program memory, for the debugger's STEP and CONT, and
the illegal word (R75, R133). -/

namespace Sys2Proof.Machine
open Reg Hid

/-- The meaning of a scan instruction, by its constructor; a row that is none changes nothing. -/
def execScan (i : Instr) (s : State) : Host.Outcome State Fault Refusal :=
  match i with
  | .nop l => execNop l s
  | .notBit l => execNotBit l s
  | .close l => execClose l s
  | .wopAnd l => execWopAnd l s
  | .wopOr l => execWopOr l s
  | .wopXor l => execWopXor l s
  | .inv l => execInv l s
  | .neg l => execNeg l s
  | .abs l => execAbs l s
  | .mod l => execMod l s
  | .swap l => execSwap l s
  | .tob l => execTob l s
  | .fromb l => execFromb l s
  | .btst l => execBtst l s
  | .btow l => execBtow l s
  | .ret l => execRet l s
  | .retc l => execRetc l s
  | .lanes l => execLanes l s
  | .sync l => execSync l s
  | .lease l => execLease l s
  | .lane l => execLane l s
  | .period l => execPeriod l s
  | .first l => execFirst l s
  | .power l => execPower l s
  | .furlong l => execFurlong l s
  | .endScan l => execEndScan l s
  | .ld l x => execLd l x s
  | .ldn l x => execLdn l x s
  | .andBit l x => execAndBit l x s
  | .andn l x => execAndn l x s
  | .orBit l x => execOrBit l x s
  | .orn l x => execOrn l x s
  | .xorBit l x => execXorBit l x s
  | .st l x => execSt l x s
  | .stn l x => execStn l x s
  | .set l x => execSet l x s
  | .rst l x => execRst l x s
  | .andOpen l x => execAndOpen l x s
  | .orOpen l x => execOrOpen l x s
  | .xorOpen l x => execXorOpen l x s
  | .edgr l x => execEdgr l x s
  | .edgf l x => execEdgf l x s
  | .ldw l x => execLdw l x s
  | .stw l x => execStw l x s
  | .ldwb l x => execLdwb l x s
  | .add l x => execAdd l x s
  | .sub l x => execSub l x s
  | .mul l x => execMul l x s
  | .div l x => execDiv l x s
  | .ceq l x => execCeq l x s
  | .cne l x => execCne l x s
  | .cgt l x => execCgt l x s
  | .cge l x => execCge l x s
  | .clt l x => execClt l x s
  | .cle l x => execCle l x s
  | .shl l x => execShl l x s
  | .shr l x => execShr l x s
  | .sar l x => execSar l x s
  | .rol l x => execRol l x s
  | .min l x => execMin l x s
  | .max l x => execMax l x s
  | .limit l x => execLimit l x s
  | .sel l x => execSel l x s
  | .ldx l x => execLdx l x s
  | .stx l x => execStx l x s
  | .jmp l x => execJmp l x s
  | .jmpc l x => execJmpc l x s
  | .jmpcn l x => execJmpcn l x s
  | .call l x => execCall l x s
  | .callc l x => execCallc l x s
  | .callcn l x => execCallcn l x s
  | .ton l x => execTon l x s
  | .tof l x => execTof l x s
  | .tp l x => execTp l x s
  | .receiveAge l x => execReceiveAge l x s
  | .senderAge l x => execSenderAge l x s
  | .stale l x => execStale l x s
  | .repeatFlag l x => execRepeatFlag l x s
  | .ldh l x => execLdh l x s
  | .ldf l x y => execLdf l x y s
  | .cu l x y => execCu l x y s
  | .cd l x y => execCd l x y s
  | .counterR l x y => execCounterR l x y s
  | .counterLd l x y => execCounterLd l x y s
  | .qd l x y => execQd l x y s
  | .eval l x y => execEval l x y s
  | _ => .next s

/-- The state that a scan instruction leaves. -/
def State.runScan (s : State) (i : Instr) : State :=
  match execScan i s with
  | .next s' => s'
  | _ => s

/-- The word at PC in a lane's program memory. -/
def State.fetch (s : State) (l : Lane) (t : Nat) : Word := s.word (progBase l + 4 * (s.ctx l t).pc)

/-- The lane executes the word at PC of the task it runs. -/
def State.stepWord (s : State) (l : Lane) : State :=
  match s.running l with
  | none => s
  | some t =>
    match decodeScan l (s.fetch l t) with
    | some i => s.runScan i
    | none => s.illegal l t (s.ctx l t) ((s.fetch l t).toNat / 67108864)

/-- Whether the operand of a scan instruction is one that the task may use (R75). The base of LDX and STX counts as a direct
operand (the model's choice, log 89). -/
def State.usable (s : State) (t : Nat) (c : Ctx) : Instr → Bool
  | .ld _ o => s.bitOpOk t o
  | .ldn _ o => s.bitOpOk t o
  | .andBit _ o => s.bitOpOk t o
  | .andn _ o => s.bitOpOk t o
  | .orBit _ o => s.bitOpOk t o
  | .orn _ o => s.bitOpOk t o
  | .xorBit _ o => s.bitOpOk t o
  | .andOpen _ o => s.bitOpOk t o
  | .orOpen _ o => s.bitOpOk t o
  | .xorOpen _ o => s.bitOpOk t o
  | .st _ r => s.bitStoreOk t r
  | .stn _ r => s.bitStoreOk t r
  | .set _ r => s.bitStoreOk t r
  | .rst _ r => s.bitStoreOk t r
  | .ldw _ o => s.wordOpOk t o
  | .ldwb _ o => s.wordOpOk t o
  | .add _ o => s.wordOpOk t o
  | .sub _ o => s.wordOpOk t o
  | .mul _ o => s.wordOpOk t o
  | .div _ o => s.wordOpOk t o
  | .ceq _ o => s.wordOpOk t o
  | .cne _ o => s.wordOpOk t o
  | .cgt _ o => s.wordOpOk t o
  | .cge _ o => s.wordOpOk t o
  | .clt _ o => s.wordOpOk t o
  | .cle _ o => s.wordOpOk t o
  | .shl _ o => s.wordOpOk t o
  | .shr _ o => s.wordOpOk t o
  | .sar _ o => s.wordOpOk t o
  | .rol _ o => s.wordOpOk t o
  | .min _ o => s.wordOpOk t o
  | .max _ o => s.wordOpOk t o
  | .limit _ o => s.wordOpOk t o
  | .sel _ o => s.wordOpOk t o
  | .stw _ r => s.wordStoreOk t r
  | .stx _ r => s.wordStoreOk t r
  | .ldx _ r => s.owns t r.sp r.addr 4
  | .jmp _ x => s.jumpOk c x
  | .jmpc _ x => s.jumpOk c x
  | .jmpcn _ x => s.jumpOk c x
  | .call _ x => s.callOk c x
  | .callc _ x => s.callOk c x
  | .callcn _ x => s.callOk c x
  | _ => true

/-- A lane that executes a task decodes the word `w`: if R75 calls it illegal for this task it has no effect but those
of R75; a legal word is no event of this row. -/
def execIllegalWord (l : Lane) (w : Word) (s : State) : Host.Outcome State Fault Refusal :=
  match s.running l with
  | none => .next s
  | some t =>
    match decodeScan l w with
    | none => .next (s.illegal l t (s.ctx l t) (w.toNat / 67108864))
    | some i => if s.usable t (s.ctx l t) i then .next s else .next (s.illegal l t (s.ctx l t) (w.toNat / 67108864))

end Sys2Proof.Machine
end

