-- ==== Sys2Proof/Machine/LoadCheck.lean ====
section
/-! DEFINITION. The checks of a logic image at load, its worst-case scan length, and the checks of an on-line change image
against the running one (R41, R54, R66, R138, R464). -/

namespace Sys2Proof.Machine
open Reg Hid

/-! ### Code (R41) -/

/-- The word at an index of the code. -/
def LogicImage.wordAt (im : LogicImage) (i : Nat) : Word := im.code.getD i 0

/-- The instruction at an index, as a lane decodes it. -/
def LogicImage.instrAt (im : LogicImage) (i : Nat) : Option Instr := decodeScan .la (im.wordAt i)

/-- The indexes of a POU. -/
def Pou.indexes (p : Pou) : List Nat := (upto p.len).map fun i => p.entry + i

/-- The POU that an instruction calls. -/
def callee : Instr → Option Nat
  | .call _ p => some p
  | .callc _ p => some p
  | .callcn _ p => some p
  | _ => none

/-- The POUs that a POU calls. -/
def LogicImage.callees (im : LogicImage) (p : Nat) : List Nat :=
  match im.pous[p]? with
  | some x => x.indexes.filterMap fun i => (im.instrAt i).bind callee
  | none => []

/-- The POUs reached from some POUs in at most `n` calls. -/
def LogicImage.reach (im : LogicImage) : Nat → List Nat → List Nat
  | 0, ps => ps
  | n + 1, ps => im.reach n (ps ++ (ps.flatMap im.callees)).eraseDups

/-- The POUs of a task: those that its root reaches. -/
def LogicImage.pousOf (im : LogicImage) (t : Nat) : List Nat := im.reach im.pous.length [(im.task t).root]

/-- Some POU reaches itself: the call graph has a cycle. -/
def LogicImage.cyclic (im : LogicImage) : Bool :=
  (upto im.pous.length).any fun p => (im.reach im.pous.length (im.callees p)).contains p

/-- The timers, counters and edge bits that an instruction uses: kind and index. -/
def instanceOf : Instr → Option (Nat × Nat)
  | .ton _ n => some (0, n)
  | .tof _ n => some (0, n)
  | .tp _ n => some (0, n)
  | .cu _ _ n => some (1, n)
  | .cd _ _ n => some (1, n)
  | .counterR _ _ n => some (1, n)
  | .counterLd _ _ n => some (1, n)
  | .qd _ _ n => some (1, n)
  | .eval _ _ n => some (1, n)
  | .edgr _ n => some (2, n)
  | .edgf _ n => some (2, n)
  | _ => none

/-- The instances that a task's code uses. -/
def LogicImage.uses (im : LogicImage) (t : Nat) : List (Nat × Nat) :=
  (im.pousOf t).flatMap fun p => match im.pous[p]? with
    | some x => x.indexes.filterMap fun i => (im.instrAt i).bind instanceOf
    | none => []

/-- Every word of every POU is an instruction in its legal form (R41, R54). -/
def LogicImage.formsOk (im : LogicImage) : Bool :=
  im.pous.all fun p => p.indexes.all fun i => match im.instrAt i with
    | some x => x.wf
    | none => false

/-- A jump goes forward to an index of its own POU, and a call names a POU that exists (R41). -/
def LogicImage.branchOk (im : LogicImage) (p : Pou) (i : Nat) : Instr → Bool
  | .jmp _ j => decide (i < j) && decide (j < p.entry + p.len)
  | .jmpc _ j => decide (i < j) && decide (j < p.entry + p.len)
  | .jmpcn _ j => decide (i < j) && decide (j < p.entry + p.len)
  | x => match callee x with
    | some q => decide (q < im.pous.length)
    | none => true

/-- The jumps and calls of every POU, reached by a task or not (R41). -/
def LogicImage.branchesOk (im : LogicImage) : Bool :=
  im.pous.all fun p => p.indexes.all fun i => match im.instrAt i with
    | some x => im.branchOk p i x
    | none => false

/-- Every operand, jump and call of a task's code is one that the task may use; `s` shows the image (R41). -/
def LogicImage.operandsOk (im : LogicImage) (s : State) (t : Nat) : Bool :=
  (im.pousOf t).all fun p => match im.pous[p]? with
    | some x => x.indexes.all fun i => match im.instrAt i with
      | some ins => s.usable t { Ctx.start with pc := i } ins
      | none => false
    | none => false

/-- No timer, counter or edge bit is used by code of more than one task (R41). -/
def LogicImage.instancesOk (im : LogicImage) : Bool :=
  im.tasks.all fun a => im.tasks.all fun b =>
    decide (b.1 ≤ a.1) || !((im.uses a.1).any fun x => (im.uses b.1).contains x)

/-- Ranges given by their first unit and length. -/
def apart (a b : Nat × Nat) : Bool := decide (a.1 + a.2 ≤ b.1) || decide (b.1 + b.2 ≤ a.1)

/-- The slices and windows of different tasks do not overlap, are aligned and lie in their spaces (R66). -/
def LogicImage.slicesOk (im : LogicImage) : Bool :=
  (im.tasks.all fun a => a.2.iBase % 4 == 0 && a.2.qBase % 4 == 0 && decide (a.2.iBase + 4 * a.2.iWords ≤ Space.size .I) &&
      decide (a.2.qBase + 4 * a.2.qWords ≤ Space.size .Q) && decide (64 * (a.2.mBase + a.2.mUnits) ≤ Space.size .M)) &&
  im.tasks.all fun a => im.tasks.all fun b =>
    decide (b.1 ≤ a.1) ||
      (apart (a.2.iBase, 4 * a.2.iWords) (b.2.iBase, 4 * b.2.iWords) &&
       apart (a.2.qBase, 4 * a.2.qWords) (b.2.qBase, 4 * b.2.qWords) &&
       apart (a.2.mBase, a.2.mUnits) (b.2.mBase, b.2.mUnits))

/-- The settings window lies in the data window of its task (R411). -/
def LogicImage.windowOk (im : LogicImage) : Bool :=
  im.setLen == 0 ||
    let t := im.task im.setTask
    decide (64 * t.mBase ≤ im.setAddr) && decide (im.setAddr + im.setLen ≤ 64 * (t.mBase + t.mUnits))

/-- The limits of an image (R41, R59). -/
def LogicImage.limitsOk (im : LogicImage) : Bool :=
  decide (im.instrs ≤ 262144) && decide (im.pous.length ≤ 1024) && (im.pous.all fun p => decide (p.entry + p.len ≤ 262144)) &&
    (im.timers.all fun d => decide (d.idx < 4096)) && (im.counters.all fun d => decide (d.idx < 4096)) &&
    im.edges.all fun d => decide (d.idx < 16384)

/-- The loader accepts a logic image (R41, R54, R59, R66, R411). -/
def State.logicOk (s : State) (im : LogicImage) : Bool :=
  let c := State.showImage { s with image := some im }
  im.limitsOk && im.formsOk && im.branchesOk && !im.cyclic && im.instancesOk && im.slicesOk && im.windowOk &&
    im.tasks.all fun p => im.operandsOk c p.1

/-! ### The worst-case scan length (R464) -/

/-- The largest of two weights that may be absent. -/
def best : Option Nat → Option Nat → Option Nat
  | some a, some b => some (max a b)
  | some a, none => some a
  | none, b => b

/-- A weight added to one that may be absent. -/
def plus (n : Nat) (x : Option Nat) : Option Nat := x.map fun a => a + n

/-- The weights of the paths from an index: the largest that returns from the POU and the largest that ends the scan in
it; `at_` gives those of later indexes and `pou` those of other POUs. -/
def pathsOf (i : Nat) (x : Instr) (at_ : Nat → Option Nat × Option Nat) (pou : Nat → Option Nat × Option Nat) :
    Option Nat × Option Nat :=
  let w := x.weight
  let go := fun (p : Option Nat × Option Nat) => (plus w p.1, plus w p.2)
  let next := at_ (i + 1)
  let both := fun (a b : Option Nat × Option Nat) => (best a.1 b.1, best a.2 b.2)
  let into := fun (p : Nat) =>
    let c := pou p
    ((c.1.bind fun n => plus n next.1), best (c.1.bind fun n => plus n next.2) c.2)
  match x with
  | .endScan _ => (none, some w)
  | .ret _ => (some w, none)
  | .retc _ => both (some w, none) (go next)
  | .jmp _ j => go (at_ j)
  | .jmpc _ j => go (both (at_ j) next)
  | .jmpcn _ j => go (both (at_ j) next)
  | .call _ p => go (into p)
  | .callc _ p => go (both (into p) next)
  | .callcn _ p => go (both (into p) next)
  | _ => go next

/-- The path weights of the indexes of a POU, from its last index back, given those of the POUs it calls. A path that runs past
the POU's last index without RET or END has no end under R464 and no total weight (the model's choice, log 90). -/
def LogicImage.pouPaths (im : LogicImage) (p : Pou) (pou : Nat → Option Nat × Option Nat) : Option Nat × Option Nat :=
  let tab := p.indexes.reverse.foldl (fun (m : List (Nat × (Option Nat × Option Nat))) i =>
    match im.instrAt i with
    | some x => (i, pathsOf i x (fun j => Sparse.get m j (none, none)) pou) :: m
    | none => m) []
  Sparse.get tab p.entry (none, none)

/-- The path weights of every POU, with calls nested at most `n` deep. -/
def LogicImage.paths (im : LogicImage) : Nat → List (Nat × (Option Nat × Option Nat))
  | 0 => []
  | n + 1 =>
    let m := im.paths n
    (im.pous.zipIdx).map fun p => (p.2, im.pouPaths p.1 fun q => Sparse.get m q (none, none))

/-- N: the largest total weight of any path of one scan of the task; a return with an empty call stack ends the path
(R464). -/
def LogicImage.worst (im : LogicImage) (t : Nat) : Nat :=
  let x := Sparse.get (im.paths im.pous.length) (im.task t).root (none, none)
  (best x.1 x.2).getD 0

/-- The loader stores N of each task in the image (R41, R464). -/
def LogicImage.withWorst (im : LogicImage) : LogicImage :=
  { im with tasks := im.tasks.map fun p => (p.1, { p.2 with nmax := im.worst p.1 }) }

/-! ### On-line change (R135, R138) -/

/-- A grown range takes nothing from another task's range of the running image. -/
def LogicImage.growOk (old : LogicImage) (t : Nat) (f : TaskImage → Nat × Nat) (new : Nat × Nat) : Bool :=
  old.tasks.all fun o => o.1 == t || apart (f o.2) new

/-- The layout of a new image extends that of the running one (R138). -/
def LogicImage.extends_ (im old : LogicImage) : Bool :=
  (im.tasks.map (·.1)) == (old.tasks.map (·.1)) &&
  (im.vars.all fun v => old.vars.all fun o =>
    o.id != v.id || (o.addr == v.addr && o.size == v.size && o.type == v.type)) &&
  (im.tasks.all fun p =>
    let o := old.task p.1
    p.2.iBase == o.iBase && p.2.qBase == o.qBase && p.2.mBase == o.mBase &&
    old.growOk p.1 (fun x => (x.iBase, 4 * x.iWords)) (p.2.iBase, 4 * p.2.iWords) &&
    old.growOk p.1 (fun x => (x.qBase, 4 * x.qWords)) (p.2.qBase, 4 * p.2.qWords) &&
    old.growOk p.1 (fun x => (x.mBase, x.mUnits)) (p.2.mBase, p.2.mUnits) &&
    o.retained.isPrefixOf p.2.retained) &&
  decide (old.retainedLen ≤ im.retainedLen)

/-- The new and changed POUs fit in free program memory (R135). -/
def LogicImage.fits (im old : LogicImage) : Bool := decide (im.changedInstrs + old.instrs ≤ 262144)

end Sys2Proof.Machine
end

