-- ==== Sys2Proof/Machine/UpdCmd.lean ====
section
/-! DEFINITION. The commands of an update session, whatever carries them: open, write, verify, activate, apply on line and
close (R395 to R399, R401 to R410). -/

namespace Sys2Proof.Machine
open Reg Hid

/-- What a session command comes to: the state after it, its status and result, and whether the answer comes later. -/
structure UpdAns where
  st : State
  status : Nat
  result : Nat
  wait : Bool
  deriving DecidableEq, Repr

/-- A command accepted from the holder, with its result: the lapse starts again (R401). -/
def State.updDone (s : State) (result : Nat) : UpdAns :=
  ⟨(s.set SES_AT s.now).set UPD_SESSION_LAPSE_S 60, stSuccess, result, false⟩

/-- A command refused for a reason of R405 (R402, R416). -/
def State.updRefuse (s : State) (src op reason : Nat) : UpdAns :=
  let s := ((s.set UPD_REFUSE_REASON reason).set UPD_REFUSE_SOURCE src).set UPD_REFUSE_OPCODE op
  ⟨(s.raise UPD_EVT_REFUSED UPD_EVCNT_OTHER_CNT).ev 0x9004 0 reason op src, stRefused, reason, false⟩

/-- Does a command, unless there is a reason to refuse it. -/
def State.updCheck (s : State) (src op : Nat) (reasons : List (Bool × Nat)) (f : State → UpdAns) : UpdAns :=
  match reasons.find? fun p => p.1 with
  | some p => s.updRefuse src op p.2
  | none => f s

/-! ### UPD_OPEN (R401, R402, R404) -/

/-- An on-line change is loading or armed. -/
def State.olcBusy (s : State) : Bool := s.get DBG_OLC_STATE == 1 || s.get DBG_OLC_STATE == 2

/-- A probation, an activation or a fallback is in progress. -/
def State.probation (s : State) : Bool := s.on UPD_STAT_PROB || s.on ACT_STEP || s.on FB_PEND

/-- A resynchronisation transfer of the twin is in progress. -/
def State.resyncing (s : State) : Bool := tasks.any fun t => s.on (TW_XREQ t) || s.on (TW_RXON t)

/-- A kind of the session is closed. -/
def State.closeKind (s : State) (k : Nat) : State :=
  ((s.set (UPD_SESSION_OPEN k) 0).set (UPD_SESSION_VERIFIED k) 0).set (SES_N k) 0

/-- UPD_OPEN of a kind by a source. -/
def State.updOpen (s : State) (src k : Nat) : UpdAns :=
  let h := s.get UPD_SESSION_HOLDER
  let off := (src == 2 && !s.on UPD_NET_NETEN) || (src == 3 && !s.on UPD_NET_TWINEN)
  if off then s.updRefuse src 0x60 21
  else if s.blk 1 then ⟨s, stBusy, 0, false⟩
  else if h ≠ 0 ∧ h ≠ src then
    ⟨(s.raise UPD_EVT_BUSY UPD_EVCNT_OTHER_CNT).ev 0x9002 0 k src h, stSessionBusy, 0, false⟩
  else s.updCheck src 0x60 [(decide (4 < k), 2), (s.probation, 15), (s.olcBusy, 19), (s.safe, 16), (src == 3 && s.resyncing, 20)]
    fun s =>
      let s := if h = 0 then
          let no := s.get NV_SESNO + 1
          (((s.set NV_SESNO no).set SES_NO no).set UPD_SESSION_HOLDER src).ev 0x9001 0 k src (bit (src == 3))
        else s
      let s := if s.on (UPD_SESSION_OPEN k) then (s.replay [k] 0).closeKind k else s
      ((s.set (UPD_SESSION_OPEN k) 1).set SES_KIND (k + 1)).updDone 0

/-! ### UPD_WRITE (R395, R396, R399, R402, R406) -/

/-- Where a session writes a kind: its slot, the inactive settings copy, or the staging place of certificates. -/
def State.kindDest (s : State) (k : Nat) : Nat :=
  if k < 3 then imageArea + (kindSlot k).1
  else if k = 3 then settingsCopy (1 - s.get UPD_ACTSET_ACTIVE) else stagedCert

/-- Why the first write of a kind is refused (R395, R396, R399). -/
def State.headerReasons (s : State) (k : Nat) (data : List Byte) : List (Bool × Nat) :=
  let h := imgHdr data
  [(decide (data.length < 128) || !h.formOk k (s.get GLB_IDENT_STEP_MAJ) (s.get GLB_IDENT_STEP_MIN), 4),
   (decide ((kindSlot k).2 < h.total), 5), (!s.signerOk k h.signer, 6), (decide (k < 4) && decide (h.svn < s.floorOf k), 8)]

/-- Puts a chunk in its place, saving the image blocks that it is the first to overwrite (R406, R407). -/
def State.writeChunk (s : State) (k off : Nat) (data : List Byte) : State :=
  let a := s.kindDest k + off
  let s := if k < 3 then
      let b0 := (a - imageArea) / 4096
      let b1 := (a - imageArea + data.length - 1) / 4096
      let s := s.setJournal 1 (s.openMask % 8)
      s.each ((upto (b1 + 1 - b0)).map fun i => b0 + i) State.saveBlock
    else if k = 3 then (s.set UPD_ACTSET_PREV 0).set NV_SETBAD 1 else s
  (s.setBytes a data).set (SES_N k) (off + data.length)

/-- UPD_WRITE by a source. -/
def State.updWrite (s : State) (src off : Nat) (data : List Byte) : UpdAns :=
  let k := s.get SES_KIND - 1
  s.updCheck src 0x61 ([(s.get UPD_SESSION_HOLDER != src, 1), (!s.on SES_KIND || !s.on (UPD_SESSION_OPEN k) || s.on (UPD_SESSION_VERIFIED k), 3),
      (off != s.get (SES_N k), 10)] ++ (if off = 0 then s.headerReasons k data else []))
    fun s =>
      let total := (imgHdr (if off = 0 then data else s.bytes (s.kindDest k) 128)).total
      s.updCheck src 0x61 [(decide (total < off + data.length), 10)] fun s => (s.writeChunk k off data).updDone data.length

/-! ### UPD_VERIFY (R397 to R399, R402) -/

/-- The container that the session has written for a kind. -/
def State.sesImage (s : State) (k : Nat) : List Byte := s.bytes (s.kindDest k) (imgHdr (s.bytes (s.kindDest k) 128)).total

/-- An open kind is written to the end of its container. -/
def State.sesWhole (s : State) (k : Nat) : Bool :=
  decide (128 ≤ s.get (SES_N k)) && s.get (SES_N k) == (imgHdr (s.bytes (s.kindDest k) 128)).total

/-- The key index that a certificate names, and whether its binding and reserved bytes let this device take it (R398). -/
def certIndex (b : List Byte) : Nat := ofLe (slice b 128 1)

/-- The form of a certificate's payload (R398). -/
def certForm (b : List Byte) : Bool :=
  decide (certIndex b < 8) && decide (ofLe (slice b 129 1) < 128) && ofLe (slice b 130 2) == 0 && ofLe (slice b 144 16) == 0

/-- A certificate is bound to this device or to none (R398). -/
def certBound (b : List Byte) : Bool :=
  let v := ofLe (slice b 136 8)
  v == 0 || v == identityHash % 2 ^ 64

/-- Why a written kind does not verify (R397 to R399, R402). -/
def State.verifyReasons (s : State) (k : Nat) : List (Bool × Nat) :=
  let b := s.sesImage k
  let h := imgHdr b
  let sig := b.getLast? == some 0 && s.sigOk b
  if k = 4 then
    let i := certIndex b
    [(!sig, 7), (!certForm b, 4), (!certBound b, 6),
     (s.keyPerms i != 0 && decide (ofLe (slice b 132 4) ≤ s.keySvn i), 8)]
  else
    [(!s.signerOk k h.signer, 6), (!sig, 7), (decide (h.svn < s.floorOf k), 8),
     (s.on (KIND_OK k) && h.svn == s.runSvn k && containerDigest b != s.runDigest k, 9),
     (k == 1 && match logicOf b, s.image with
       | none, _ => true
       | some im, old => !s.logicOk im || (h.olc && !(match old with
         | some o => im.extends_ o
         | none => false)), 11)]

/-- Verifies one kind: a failure discards it (R402, R408). -/
def State.verifyKind (s : State) (k : Nat) : State :=
  let h := imgHdr (s.sesImage k)
  match (s.verifyReasons k).find? fun p => p.1 with
  | some p =>
    let s := (s.raise UPD_EVT_VFAIL UPD_EVCNT_OTHER_CNT).ev 0x9006 0 p.2 k h.signer
    (s.replay [k] 1).closeKind k
  | none =>
    let s := if k = 3 then (s.set UPD_ACTSET_PREV 1).set NV_SETBAD 0 else s
    (s.set (UPD_SESSION_VERIFIED k) 1).ev 0x9005 0 h.svn k h.signer

/-- UPD_VERIFY by a source. -/
def State.updVerify (s : State) (src : Nat) : UpdAns :=
  let open_ := maskKinds 5 s.openMask
  let todo := open_.filter fun k => !s.on (UPD_SESSION_VERIFIED k)
  s.updCheck src 0x62 [(s.get UPD_SESSION_HOLDER != src, 1), (open_.isEmpty, 3), (!todo.all s.sesWhole, 10)] fun s =>
    let bad := todo.filterMap fun k => ((s.verifyReasons k).find? fun p => p.1).map fun p => p.2
    let s := s.each todo State.verifyKind
    let left := s.openMask % 8
    let s := if left ≠ 0 ∧ s.verifiedMask % 8 = left then s.setJournal 2 left else s
    match bad with
    | r :: _ => s.updRefuse src 0x62 r
    | [] => s.updDone 0

/-! ### UPD_ACTIVATE (R398, R409) -/

/-- An accepted certificate replaces the key at its index (R398). -/
def State.enrol (s : State) : State :=
  let b := s.sesImage 4
  let i := certIndex b
  let perms := ofLe (slice b 129 1)
  let s := s.zero (keyStore i) 4096
  let s := if perms = 0 then s else s.setBytes (keyStore i) (slice b 128 2624)
  (s.showKeys.writeFloors).ev 0x900D 0 i (ofLe (slice b 132 4)) perms

/-- The logic image and the configuration set that will run after the activation of some kinds (R409). -/
def State.nextImages (s : State) (m : Nat) : Option LogicImage × Option ConfigSet :=
  (if m.testBit 1 then logicOf (s.sesImage 1) else s.image,
   if m.testBit 2 then configOf (s.sesImage 2) else if s.on CFG_ON then some s.cfg else none)

/-- The configuration set that will be active passes its checks against the logic image that will run; where one of the two
is missing there is nothing to check it against, but a container that holds no set fails (R409, log 23). -/
def State.checksPass (s : State) (m : Nat) : Bool :=
  match s.nextImages m with
  | (some im, some cs) => s.configOk im cs
  | (_, none) => !m.testBit 2
  | _ => true

/-- A lane is in ASSAY or SEEDING. -/
def State.laneAway (s : State) : Bool := Lane.all.any fun l => s.lane l == .assay || s.lane l == .seeding

/-- The pause of an activation begins: journal, settings pointer, kinds (R409). -/
def State.beginPause (s : State) (src m : Nat) : State :=
  let s := s.setJournal 3 m
  let s := if m.testBit 3 then
      let s := (s.put UPD_ACTSET_PREV (s.on (KIND_OK 3))).put NV_SETBAD (!s.on (KIND_OK 3))
      let n := 1 - s.get UPD_ACTSET_ACTIVE
      (s.set UPD_ACTSET_ACTIVE n).set NV_SETACT n
    else s
  let s := s.each (maskKinds 4 m) fun s k => (s.set (KIND_OK k) 1).set (START_BAD k) 0
  (((s.set ACT_STEP 1).set ACT_AT s.now).set ACT_SRC src).put FW_TESTED (!m.testBit 0)

/-- UPD_ACTIVATE by a source. -/
def State.updActivate (s : State) (src : Nat) : UpdAns :=
  let m := s.openMask
  s.updCheck src 0x63 [(s.get UPD_SESSION_HOLDER != src, 1), (m == 0, 3), (s.verifiedMask != m, 17), (!s.checksPass m, 12),
      (s.prog != .stop, 13), (!s.standPermit, 14), (s.laneAway, 18), (s.safe, 16), (s.probation, 15), (s.olcBusy, 19)] fun s =>
    let s := if m.testBit 4 then s.enrol else s
    let s := if m % 16 = 0 then s.ev 0x9008 0 m src 0 else s.beginPause src (m % 16)
    s.closeKinds.updDone 0

/-! ### UPD_APPLY_ONLINE (R135, R136, R402) -/

/-- Why an on-line change is refused, coded as DBG_PSSTAT, 0 for none (R135). -/
def State.olcRefusal (s : State) (im : LogicImage) (olc : Bool) : Nat :=
  let hash := (s.image.map fun o => o.layoutHash).getD 0
  let ls := Lane.all.filter fun l => s.lane l != .retired
  if s.safe then 6
  else if s.prog != .run then 4
  else if !s.maintPermit then 2
  else if !olc || s.image.isNone || im.baseHash != hash then 10
  else if ls.any fun l => s.lane l != .vote then 9
  else if s.olcBusy || !s.on OLC_DONE then 8
  else if !(match s.image with
    | some o => im.fits o
    | none => false) then 11
  else 0

/-- UPD_APPLY_ONLINE by a source: the answer follows when the switch is armed (R136, R301). -/
def State.updApply (s : State) (src : Nat) : UpdAns :=
  s.updCheck src 0x64 [(s.get UPD_SESSION_HOLDER != src, 1), (s.openMask != 2, 3), (s.verifiedMask != 2, 17)] fun s =>
    let b := s.sesImage 1
    match logicOf b with
    | none => s.updRefuse src 0x64 11
    | some im =>
      let r := s.olcRefusal im (imgHdr b).olc
      if r ≠ 0 then ⟨s.raise DBG_EVT_REFUSED DBG_EVCNT_REFUSED_CNT, stRefused, r, false⟩
      else
        let s := State.set { s with olcImage := some im.withWorst } DBG_OLC_STATE 1
        let s := ((s.set DBG_OLC_ABORT 0).set SES_APPLIED 1).restore (OLC_OK 0) 3
        let s := if src = 1 then s else s.set OLC_ASK src
        { s.updDone 0 with wait := true }

/-! ### UPD_CLOSE, and every command (R401, R402) -/

/-- UPD_CLOSE by a source. -/
def State.updClose (s : State) (src : Nat) : UpdAns :=
  s.updCheck src 0x65 [(s.get UPD_SESSION_HOLDER != src, 1)] fun s => ⟨s.release 0, stSuccess, 0, false⟩

/-- A session command of a source: 1 host rings, 2 maintenance flow, 3 twin. -/
def State.updCmd (s : State) (src op p0 off : Nat) (data : List Byte) : UpdAns :=
  if op = 0x60 then s.updOpen src (p0 % 16)
  else if op = 0x61 then s.updWrite src off data
  else if op = 0x62 then s.updVerify src
  else if op = 0x63 then s.updActivate src
  else if op = 0x64 then s.updApply src
  else s.updClose src

end Sys2Proof.Machine
end

