-- ==== Sys2Proof/Machine/UpdRun.lean ====
section
/-! DEFINITION. Activation, probation, confirmation and fallback (R399, R408 to R412). -/

namespace Sys2Proof.Machine
open Reg Hid

/-! ### Loading the running images -/

/-- A kind's running image is whole and signed (R396, R397). -/
def State.kindValid (s : State) (k : Nat) : Bool :=
  let b := s.running_ k
  let h := imgHdr b
  h.formOk k (s.get GLB_IDENT_STEP_MAJ) (s.get GLB_IDENT_STEP_MIN) && decide (h.total ≤ (kindSlot k).2) &&
    s.signerOk k h.signer && b.getLast? == some 0 && s.sigOk b

/-- The running logic image, none where it is not valid, is shown and loaded into every lane in the vote (R407, R409). -/
def State.loadLogic (s : State) : State :=
  let im := if s.on (KIND_OK 1) then (logicOf (s.running_ 1)).map LogicImage.withWorst else none
  let s := State.showImage { s with image := im, oldImage := none, olcImage := none }
  s.each (Lane.all.filter s.inVote) fun s l => (s.loadProgram l).freshInstances l

/-- The running configuration set is applied; without a valid one every field reads its reset value (R18, R409). -/
def State.loadConfig (s : State) : State :=
  match (if s.on (KIND_OK 2) then configOf (s.running_ 2) else none) with
  | some cs => s.applyConfig cs
  | none => (s.applyConfig ConfigSet.none).set CFG_ON 0

/-! ### Fallback (R408, R412) -/

/-- The undo of a probation: the old blocks, the old settings pointer, the journal IDLE, and what the registers show
(R408, R412). How long it takes is free up to 500 ms (log 4). -/
def State.updUndo (s : State) (cause : Nat) : State :=
  let m := s.get NV_JKINDS % 16
  let s := (s.replay (maskKinds 4 m) 2).setJournal 0 0
  let s := if m.testBit 3 then
      let a := 1 - s.get UPD_ACTSET_ACTIVE
      (((s.set UPD_ACTSET_ACTIVE a).set NV_SETACT a).set UPD_ACTSET_PREV 0).set NV_SETBAD 1
    else s
  let s := s.each (maskKinds 4 m) fun s k => s.put (KIND_OK k) (s.kindValid k)
  let s := ((s.set UPD_STAT_PROB 0).set UPD_STAT_PKINDS 0).set UPD_STAT_CONF_S 0
  let s := ((s.set UPD_STAT_LAST 2).set UPD_STAT_FBCAUSE cause).set ACT_STEP 0
  let s := (((s.set FB_PEND 0).set FW_TESTED 1).raise UPD_EVT_FALLBACK UPD_EVCNT_FALLBACK_CNT)
  let (d, s) := s.free 16
  s.ev 0x900A 0 cause m (d % 501)

/-- Fallback in STOP: undo, the old images as the kinds require, and the choice of the restart (R129, R411, R412). -/
def State.fallbackNow (s : State) (cause : Nat) : State :=
  let m := s.get NV_JKINDS % 16
  let s := s.updUndo cause
  let s := s.each tasks fun s t => (s.abandonScan t).set (STARTED t) 0
  let s := if m.testBit 1 then s.loadLogic else s
  let s := if m.testBit 2 then s.loadConfig else s
  let s := (s.loadWindow (Lane.all.filter s.inVote)).showImages
  let s := s.set AUTO_DUE 1
  (if m.testBit 1 || m.testBit 2 then s.set FIRST_RUN 2 else s).chooseRestart

/-- Fallback begins: the device enters STOP at once; the old images follow when the snapshot that this writes is done. The
cause that event 0x2010 carries is free: its list names none for a fallback (R127, R412, log 22). -/
def State.updFallback (s : State) (cause : Nat) : State :=
  if s.on FB_PEND then s
  else
    let s := if s.on PS_PEND then ((s.set PS_PEND 0).set DBG_PSSTAT_OUTCOME 3).settle 0x78 (fun _ => true) stAborted 0 else s
    let s := s.olcAbort 3
    let s := match s.prog with
      | .run | .hold =>
        let (c, s) := s.free 16
        s.enterStop c
      | _ => s
    if s.on SNAP_BUSY then (s.set FB_PEND 1).set FB_CAUSE cause else s.fallbackNow cause

/-! ### The activation pause (R409) -/

/-- The kinds of the activation in progress. -/
def State.actKinds (s : State) : Nat := s.get NV_JKINDS % 16

/-- The new firmware's self-test completes; a failure starts fallback (R409, R412). -/
def execFirmwareSelfTest (ok : Bool) (s : State) : Host.Outcome State Fault Refusal :=
  occurs (s.get ACT_STEP == 1 && s.actKinds.testBit 0) s fun s =>
    if ok then (s.set FW_TESTED 1).set ACT_STEP 2 else s.updFallback 2

/-- The pause ends: settings windows are loaded, probation begins, and the first entry to RUN follows R129; `ok` says
whether the windows could be loaded (R409 to R411). -/
def execActivationPauseEnd (ok : Bool) (s : State) : Host.Outcome State Fault Refusal :=
  occurs (s.get ACT_STEP == 4) s fun s =>
    if !ok then s.updFallback 3
    else
      let m := s.actKinds
      let s := (s.loadWindow (Lane.all.filter s.inVote)).set ACT_STEP 0
      let s := s.ev 0x9008 0 m (s.get ACT_SRC) ((s.now - s.get ACT_AT) / grainsMs)
      let s := (s.beginProbation m).showImages.set AUTO_DUE 1
      (if m.testBit 1 || m.testBit 2 then s.set FIRST_RUN 2 else s).chooseRestart

/-- The confirm window expires: fallback, cause 0 (R410, R412). -/
def execConfirmWindowExpiry (s : State) : Host.Outcome State Fault Refusal :=
  occurs (s.on UPD_STAT_PROB && !s.on FB_PEND && decide (s.get PROB_FROM + 1000 * s.get UPD_CFG_CWIN ≤ s.opTime)) s fun s =>
    s.updFallback 0

/-! ### Confirmation (R399, R400, R410) -/

/-- The confirm words as the last staging staged them. -/
def State.confirmWords (s : State) : Nat × Nat :=
  let a := stagedImg + s.get UPD_CBIND_OFFSET
  (s.rd a 4, s.rd (a + 4) 4)

/-- The images in probation can be confirmed: the words, the self-test and the settings window (R410). -/
def State.confirmable (s : State) : Bool :=
  let w := s.confirmWords
  s.on UPD_STAT_PROB && !s.on FB_PEND && s.on UPD_CBIND_EN && w.1 == 0x434F4E46 && w.2 % 16 == s.get UPD_STAT_PKINDS &&
    s.on FW_TESTED && (s.on UPD_STAT_LOADED || (s.image.map fun im => im.setLen).getD 0 == 0)

/-- The images in probation are confirmed: floors, journal, event 0x9009 (R399, R400, R410). -/
def State.updConfirm (s : State) : State :=
  let m := s.get UPD_STAT_PKINDS
  let s := s.each (maskKinds 4 m) fun s k => s.raiseFloor k (s.runningHdr k).floor
  let s := s.each ((maskKinds 4 m).flatMap kindBlocks) fun s b => s.zero (undoEntry b) 16
  let s := (s.setJournal 0 0).ev 0x9009 0 m ((s.opTime - s.get PROB_FROM) / 1000)
  let s := ((s.set UPD_STAT_PROB 0).set UPD_STAT_PKINDS 0).set UPD_STAT_CONF_S 0
  (s.set UPD_STAT_LAST 1).raise UPD_EVT_CONFIRM UPD_EVCNT_OTHER_CNT

/-- A staging of the confirm binding's task looks at the confirm words (R410). -/
def State.confirmAt (s : State) (t : Nat) : State :=
  if s.get UPD_CBIND_TASK = t ∧ s.confirmable = true then s.updConfirm else s

/-- The update status word of R411. -/
def State.updWord (s : State) : Nat :=
  s.get UPD_STAT_LOADED + 2 * s.get UPD_STAT_PROB + 4 * s.get UPD_STAT_PKINDS + 2 ^ 16 * s.setSchema

end Sys2Proof.Machine
end

