-- ==== Sys2Proof/Machine/InputOps.lean ====
section
/-! DEFINITION. What a task's action instant latches: the sources of its input slice, the entry of each as a lane latches it,
pad readback, and the state that SYS and FLOW return (R60, R61, R68, R78, R158, R162, R166, R168, R169, R183, R226,
R411). -/

namespace Sys2Proof.Machine
open Reg Hid

/-! ### The sources of an input slice (R68, R116) -/

/-- A source bound into an input slice: a channel, a received flow, a CAN object received or sent, words of another task, a
brake group's status word, a group import, the update status word; and the SYS state of a task and the state of a flow, which
the scan reads by function and not in I (R60, R61, R79). -/
inductive Src where
  | chan (c : Nat)
  | flow (f : Nat)
  | canRx (n k : Nat)
  | canTx (n k : Nat)
  | words (j : Nat)
  | brake (g : Nat)
  | imp (i : Nat)
  | upd
  | sys (t : Nat)
  | flowSt (t f : Nat)
  deriving DecidableEq, Repr

/-- The code of a source as XCH_SDLAST gives it; for the last five it lists none, and the model numbers them from 0x700
on (log 24). -/
def Src.code : Src → Nat
  | .chan c => c
  | .flow f => 0x200 + f
  | .canRx n k => 0x400 + 128 * n + k
  | .canTx n k => 0x400 + 128 * n + k
  | .words j => 0x600 + j
  | .brake g => 0x700 + g
  | .imp i => 0x720 + i
  | .upd => 0x730
  | .sys _ => 0x731
  | .flowSt _ f => 0x800 + f

/-- The task-word binding of a number (R68). -/
def State.wordBind (s : State) (j : Nat) : TaskWordBind :=
  s.cfg.words.getD j { task := 0, off := 0, srcTask := 0, srcOff := 0, words := 0 }

/-- A source's byte offset in I and its number of words. -/
def State.srcPlace (s : State) : Src → Nat × Nat
  | .chan c => (s.get (FC_IBIND_OFFSET c), s.entryWords c)
  | .flow f => ((s.flow f).off, ceilDiv (s.flow f).len 4)
  | .canRx n k => ((s.canObj n k).off, 3 + ceilDiv (s.canObj n k).len 4)
  | .canTx n k => ((s.canObj n k).soff, 2)
  | .words j => ((s.wordBind j).off, (s.wordBind j).words)
  | .brake g => (s.get (BRK_SBIND_OFFSET g), 1)
  | .imp i => (s.ictx i 0 % 65536, 1 + ceilDiv (s.impLen i - 32) 4)
  | .upd => (s.get UPD_SBIND_OFFSET, 1)
  | .sys t => (sysOff t, 8)
  | .flowSt t f => (flowStOff t f, 1)

/-- A source's byte offset in I. -/
def State.srcOff (s : State) (x : Src) : Nat := (s.srcPlace x).1

/-- The channels whose entry a task reads. -/
def State.inputChannels (s : State) (t : Nat) : List Nat :=
  (upto 64).filter fun c => s.on (FC_CFG_MODE c) && s.on (FC_IBIND_EN c) && s.get (FC_IBIND_TASK c) == t

/-- The received flows bound to a task (R226). -/
def State.inputFlows (s : State) (t : Nat) : List Nat := s.rxFlows.filter fun f => (s.flow f).en && (s.flow f).task == t

/-- The enabled imports of a task (R346). -/
def State.inputImports (s : State) (t : Nat) : List Nat :=
  if s.on GRP_CFG_EN then (upto 12).filter fun i => s.impOn i && s.impTask i == t else []

/-- The CAN objects bound to a task's input slice. -/
def State.inputCan (s : State) (t : Nat) : List Src :=
  cans.flatMap fun n =>
    (((s.objects n 2).filter fun k => (s.canObj n k).en && (s.canObj n k).task == t).map fun k => Src.canRx n k) ++
    ((s.objects n 1).filter fun k => (s.canObj n k).sen && (s.canObj n k).task == t).map fun k => Src.canTx n k

/-- The sources that a task latches at its action instant. -/
def State.latchSrcs (s : State) (t : Nat) : List Src :=
  (s.inputChannels t).map Src.chan ++ (s.inputFlows t).map Src.flow ++ s.inputCan t ++
    ((upto s.cfg.words.length).filter fun j => (s.wordBind j).task == t).map Src.words ++
    (groups.filter fun g => s.grpOn g && s.get (BRK_CFG_TASK g) == t && s.on (BRK_SBIND_EN g)).map Src.brake ++
    if s.on UPD_SBIND_EN ∧ s.get UPD_SBIND_TASK = t then [Src.upd] else []

/-- The SYS and FLOW state that the shared blocks deliver to each lane for a task's scan (R60, R61, R79). -/
def State.stateSrcs (s : State) (t : Nat) : List Src := Src.sys t :: s.flows.map (Src.flowSt t)

/-! ### Channels (R158, R162, R166, R168, R169) -/

/-- A number as a word. -/
def w32 (n : Nat) : Word := BitVec.ofNat 32 n

/-- A 24-bit number, sign-extended. -/
def sext24 (n : Nat) : Word := BitVec.ofInt 32 (signed 24 n)

/-- The SAFE and BANKF bits of an entry that holds its safe value. -/
def State.safeBits (s : State) (c : Nat) : Nat := 2 ^ 31 + 2 ^ 30 * bit (s.bankFault c)

/-- A channel's whole safe value (R169). -/
def State.chanSafe (s : State) (c : Nat) : List Word :=
  match s.get (FC_CFG_MODE c) with
  | 3 => [sext24 (s.get (FC_SAFE_VAL c)), w32 (s.safeBits c + 4 * bit (s.on (SD_CLKEV c)))]
  | 4 => [w32 (s.get (SPD_AGREED c)), 0, w32 (s.get (FC_SAFE_VAL c)), w32 (s.safeBits c + s.get (FC_STATUS_DIR c))]
  | 5 => [w32 (s.safeBits c + 8 * s.get (BAL_PADF c))]
  | _ => [w32 (s.safeBits c)]

/-- The window that a lane latches: the newest one whose last launching edge lies at least 250 grains back, as result,
number plus 1 and overrange (R158). -/
def State.sdPick (s : State) (l : Lane) (c : Nat) : Option (Nat × Nat × Bool) :=
  if s.on (SD_WIN l.idx c) && decide (s.get (SD_EDGE l.idx c) + 250 ≤ s.now) then
    some (s.get (SD_R l.idx c), s.get (SD_WIN l.idx c), s.on (SD_OVR l.idx c))
  else if s.on (SD_WIN2 l.idx c) && decide (s.get (SD_EDGE2 l.idx c) + 250 ≤ s.now) then
    some (s.get (SD_R2 l.idx c), s.get (SD_WIN2 l.idx c), s.on (SD_OVR2 l.idx c))
  else if s.on (SD_WIN3 l.idx c) && decide (s.get (SD_EDGE3 l.idx c) + 250 ≤ s.now) then
    some (s.get (SD_R3 l.idx c), s.get (SD_WIN3 l.idx c), s.on (SD_OVR3 l.idx c))
  else none

/-- The entry of an SD_MEASURE channel; before the first window after a start or a clock fault the safe value stands
(R158, R159, log 25). -/
def State.sdEntry (s : State) (l : Lane) (c : Nat) : List Word :=
  let safe := sext24 (s.get (FC_SAFE_VAL c))
  if s.on (SD_CLKF l.idx c) then [safe, w32 (s.safeBits c + 4)]
  else match s.sdPick l c with
    | none => [safe, w32 (s.safeBits c)]
    | some (r, w, o) => [sext24 r, w32 (bit (decide (s.get (SD_LATCH l.idx c) < w)) + 2 * bit o)]

/-- The period that a lane latches in grains, 0 at standstill and until a second edge (R162). -/
def State.speedPeriod (s : State) (l : Lane) (c : Nat) : Nat :=
  let last := s.get (SPD_LAST l.idx c)
  if s.on (SPD_STILL l.idx c) || s.on (SPD_ONE l.idx c) then 0
  else max (last - s.get (SPD_PREV l.idx c)) (s.now + 1 - last)

/-- The entry of a SPEED channel (R162, R168). -/
def State.speedEntry (s : State) (l : Lane) (c : Nat) : List Word :=
  let p := s.speedPeriod l c
  [w32 (s.get (SPD_CNT l.idx c)), w32 p, w32 (25000000000 / p),
   w32 (s.get (SPD_DIR l.idx c) + 2 * s.get (SPD_STILL l.idx c) + 4 * s.get (SPD_PHASE l.idx c) +
     8 * bit (decide (0 < p) && decide (p < 2500)))]

/-- A vote exercise holds a lane's enable inverted: for 4 grains from its action instant (R95). -/
def State.exercisedNow (s : State) (l : Lane) (c p : Nat) : Bool :=
  tasks.any fun t => s.get (VEX_CELL t) == 2 * c + p + 1 && s.get (VEX_NOW t) == l.code && decide (s.now < s.get (VEX_AT t) + 3)

/-- The enable that a lane drives on a pad: the one it launched, inverted while a vote exercise inverts it (R91, R95). -/
def State.enable (s : State) (l : Lane) (c p : Nat) : Bool := s.on (DRIVE l.idx c p) != s.exercisedNow l c p

/-- The level of a pad as its majority cell drives it (R92). -/
def State.padLevel (s : State) (c p : Nat) : Bool :=
  match Lane.ofCode (s.get (BAL_FOLLOW c)) with
  | some l => s.enable l c p
  | none => decide (2 ≤ (Lane.all.filter fun l => s.enable l c p).length)

/-- What drives a field-channel or SDCLK pin. -/
inductive PinState where
  | low | high
  | /-- High impedance. -/ floating
  deriving DecidableEq, Repr

/-- A driven pin's level. -/
def PinState.ofLevel (b : Bool) : PinState := if b then .high else .low

/-- The domain that drives a bank's pins has no supply: SLEEP and below, or the bank's own supply (R172, R432). -/
def State.bankDark (s : State) (b : Nat) : Bool := decide (2 ≤ s.get PW_STATE) || s.on (BANKF b)

/-- The pins of a bank are not driven: no supply, internal reset, or start-up before the configuration set is applied (R172, R437). -/
def State.pinsFloat (s : State) (b : Nat) : Bool := s.on IN_RESET || decide (s.get START_STEP < 3) || s.bankDark b

/-- EXTEST drives the field pins around the pad majority cells, with TEST_EN high alone (R438). -/
def State.extest (s : State) : Bool := s.on TEST_EN && s.get TAP_IR == 3

/-- A field-channel pin: an OUT_PAIR pin is driven by its pad majority cell, and low in IDLE; a pin of another mode is never driven
(R92, R147, R172). EXTEST drives every field pin with the level that the boundary register holds (R438). -/
def State.pinState (s : State) (c p : Nat) : PinState :=
  if s.extest && !s.bankDark (bankOf c) then .ofLevel ((s.get TAP_BSR).testBit (2 * c + p))
  else if s.pinsFloat (bankOf c) || s.get (FC_CFG_MODE c) != 5 then .floating
  else .ofLevel (s.get PW_STATE == 0 && s.padLevel c p)

/-- An OUT_PAIR pin is driven high. -/
def State.pinHigh (s : State) (c p : Nat) : Bool := s.pinState c p == .high

/-- An SDCLK pin: low while disabled, in IDLE and before its first edge; then the divided clock, its high phase one grain longer
where the divisor is odd (R155, R171, R172). SDCLK0 and SDCLK1 belong to bank 0, SDCLK2 and SDCLK3 to bank 1. -/
def State.sdclkState (s : State) (k : Nat) : PinState :=
  let d := s.get (FC_SDCLK_DIV k)
  if s.pinsFloat (k / 2) then .floating
  else .ofLevel (s.get PW_STATE == 0 && s.on (FC_SDCLK_EN k) && decide (s.get SDCLK_T0 ≤ s.now) &&
    decide ((s.now - s.get SDCLK_T0) % d < (d + 1) / 2))

/-- The level that a sample of this grain shows: never one that is launched in the same grain (R31). -/
def State.padAt (s : State) (c p : Nat) : Bool :=
  if s.get (LAUNCH_AT c) = s.now + 1 then s.on (PREV_PAD c p) else s.padLevel c p

/-- The level of a pad as a lane samples it; `diff` names the samples that differ from the level driven (R31, R166). -/
def State.padSeen (s : State) (diff : List (Lane × Nat × Nat)) (l : Lane) (c p : Nat) : Bool :=
  s.padAt c p != diff.contains (l, c, p)

/-- A cell in VOTE is held low: bank fault, pad cell fault, or a brake group that is latched or held in two lanes (R166). -/
def State.cellHeld (s : State) (c : Nat) : Bool :=
  s.get (BAL_FOLLOW c) == 0 && (s.bankFault c || s.on (BAL_PADF c) ||
    groups.any fun g => s.grpOn g && s.get (BRK_CFG_OUTCH g) == c &&
      (s.latched g || decide (2 ≤ (s.holders g).length)))

/-- The level that a pad is required to hold (R166). -/
def State.padMust (s : State) (c p : Nat) : Bool := s.on (REQ_LVL c p) && !s.cellHeld c

/-- A lane finds a pad at another level than required, in a period that is compared (R166). -/
def State.padWrong (s : State) (diff : List (Lane × Nat × Nat)) (l : Lane) (c p : Nat) : Bool :=
  !s.on (REQ_CHG c) && s.padSeen diff l c p != s.padMust c p

/-- The input entry of a channel as a lane latches it (R168, R169, R171). -/
def State.chanEntry (s : State) (diff : List (Lane × Nat × Nat)) (l : Lane) (c : Nat) : List Word :=
  match s.get (FC_CFG_MODE c) with
  | 1 =>
    if s.bankFault c then s.chanSafe c
    else [w32 (bit (s.dc l c == .nondem) + 2 * s.get (DISC_FLAG l.idx c) + 4 * bit (ndA (s.level l c 0)) +
      8 * bit (ndB (s.get (FC_CFG_WIRING c)) (s.level l c 1)))]
  | 2 => if s.bankFault c then s.chanSafe c else [w32 (bit (s.level l c 0) + 2 * bit (s.level l c 1))]
  | 3 => s.sdEntry l c
  | 4 => if s.bankFault c then s.chanSafe c else s.speedEntry l c
  | 5 =>
    if s.bankFault c || s.on (BAL_PADF c) then s.chanSafe c
    else [w32 (bit (s.padSeen diff l c 0) + 2 * bit (s.padSeen diff l c 1) +
      4 * bit (s.padWrong diff l c 0 || s.padWrong diff l c 1))]
  | _ => []

/-! ### Flows, CAN, tasks, groups (R68, R183, R226, R273, R279) -/

/-- `n` bytes from `a` as whole words, the last one filled up with 0. -/
def State.wordsOf (s : State) (a n : Nat) : List Word :=
  (upto (ceilDiv n 4)).map fun i => w32 (ofLe ((upto 4).map fun j => if 4 * i + j < n then s.byte (a + 4 * i + j) else 0))

/-- What a stale flow delivers, none where it is the held copy (R226). -/
def State.substitute (s : State) (f : Nat) : Option (List Word) :=
  let x := s.flow f
  match x.submode with
  | 1 => none
  | 2 => some ((s.wordsOf (flowSubst f) (min x.sublen x.len) ++ List.replicate (ceilDiv x.len 4) 0).take (ceilDiv x.len 4))
  | _ => some (List.replicate (ceilDiv x.len 4) 0)

/-- The entry of a flow as a lane latches it: its own held copy of a safety flow, the engine's of another (R226). -/
def State.flowEntry (s : State) (l : Lane) (f : Nat) : List Word :=
  let held := s.wordsOf (if (s.flow f).safety then laneFlow l f else flowBuf f) (s.flow f).len
  if (s.flowState f).stale then (s.substitute f).getD held else held

/-- The configured safe value of a word of the output image (R68, R72). -/
def State.safeWord (s : State) (a : Nat) : Word :=
  w32 (ofLe ((upto 4).map fun i => Sparse.get s.cfg.safeQ (a + i) 0))

/-- Words of another task's slice: what it staged last at or before the reader's A − 8 µs, and its safe values before it has
staged anything (R68). -/
def State.taskWords (s : State) (b : TaskWordBind) : List Word :=
  let later := decide (s.now < s.get (STG_AT b.srcTask) + 8 * grainsUs - 1)
  let kind := if later then s.get (LCH_KIND b.srcTask) else s.get (STG_KIND b.srcTask)
  let base := if later then launchedImg else stagedImg
  (upto b.words).map fun i =>
    if kind = 0 then s.safeWord (b.srcOff + 4 * i) else s.word (base + b.srcOff + 4 * i)

/-- The status word of a brake group (R183). -/
def State.brakeWord (s : State) (g : Nat) : Word :=
  w32 (s.get (BRK_STAT_LATCHED g) + 2 * s.get (BRK_STAT_LCAUSE g) + 8 * s.get (BAL_PADF (s.get (BRK_CFG_OUTCH g))) +
    16 * s.get (BRK_STAT_DARKRES g) + 64 * s.get (BRK_STAT_BRIGHTRES g) + 256 * s.get (BRK_STAT_DARKDUE g) +
    512 * s.get (BRK_STAT_BRIGHTDUE g) + 1024 * s.get (BRK_STAT_RBLOW g))

/-- What a source held when it was last agreed, before forces. -/
def State.heldWords (s : State) (x : Src) : List Word := s.words (heldImg + (s.srcPlace x).1) (s.srcPlace x).2

/-- The entry of a source as a lane latches it; a CAN object or a flow context that fails its check is skipped, and its words
keep what was agreed before (R78, R216, R217, R271, log 99). -/
def State.entry (s : State) (diff : List (Lane × Nat × Nat)) (l : Lane) (x : Src) : List Word :=
  match x with
  | .chan c => s.chanEntry diff l c
  | .flow f => if s.ctxFit f then s.flowEntry l f else s.heldWords x
  | .canRx n k => if (s.canObj n k).crcOk then s.canRxEntry n k else s.heldWords x
  | .canTx n k => if (s.canObj n k).crcOk then s.canTxEntry n k else s.heldWords x
  | .words j => s.taskWords (s.wordBind j)
  | .brake g => [s.brakeWord g]
  | .imp _ => s.heldWords x
  | .upd => [w32 s.updWord]
  | .sys t => (s.sys t).words
  | .flowSt t f => [(s.flowSeen t f).word]

/-- The safety sequence of the copy that a lane holds of a flow, plus 1; 0 for none since its epoch began (R81, R223). -/
def State.heldSeq (s : State) (l : Lane) (f : Nat) : Nat :=
  if s.get (FL_SEQE l.idx f) = s.get (LN_EPOCH l.idx) + 1 then s.get (FL_SEQ l.idx f) + 1 else 0

/-- A lane latches its samples of some sources (R78). -/
def State.latchLane (s : State) (diff : List (Lane × Nat × Nat)) (xs : List Src) (l : Lane) : State :=
  let es := xs.map fun x => (agreeBuf l l + s.srcOff x, s.entry diff l x)
  let s := s.each es fun s e => s.setWords e.1 e.2
  s.each xs fun s x => match x with
    | .chan c =>
      let s := match s.sdPick l c with
        | some (_, w, _) => if s.get (FC_CFG_MODE c) = 3 ∧ s.on (SD_CLKF l.idx c) = false then s.set (SD_LATCH l.idx c) w else s
        | none => s
      s.set (SPD_PHASE l.idx c) 0
    | .flow f => s.set (FLL_SEQ l.idx f) (s.heldSeq l f)
    | _ => s

/-- The phase errors that lanes have seen since the last action instant: one event for the channel, of one lane alone or agreed
(R161, R175). A channel bound to no task is looked at by every task's instant (log 96). -/
def State.phaseEvents (s : State) (t : Nat) : State :=
  s.each ((upto 64).filter fun c => s.get (FC_CFG_MODE c) == 4 && (!s.on (FC_IBIND_EN c) || s.get (FC_IBIND_TASK c) == t)) fun s c =>
    let ls := Lane.all.filter fun l => s.on (SPD_PHASE l.idx c)
    let s := match ls with
      | [] => s
      | [l] => (s.raise (FC_EVT_PHASE c) (FC_EVCNT_OTHER_CNT c)).ev 0x3008 l.code c (2 ^ l.idx)
      | _ => (s.raise (FC_EVT_PHASE c) (FC_EVCNT_OTHER_CNT c)).ev 0x3008 0 c (laneMask fun l => ls.contains l)
    if s.on (FC_IBIND_EN c) then s else s.each ls fun s l => s.set (SPD_PHASE l.idx c) 0

/-- The CAN objects that a task's latch has used and that fail their check (R271). -/
def State.checkCan (s : State) (t : Nat) : State :=
  s.each (s.inputCan t) fun s x => match x with
    | .canRx n k => if (s.canObj n k).crcOk then s else s.objectFailure n k
    | .canTx n k => if (s.canObj n k).crcOk then s else s.objectFailure n k
    | _ => s

/-- The flow contexts that a task's latch has used and that fail their check (R217). -/
def State.checkFlows (s : State) (t : Nat) : State :=
  s.each (s.flows.filter fun f => (s.flow f).dir == 2 && (s.flow f).en && (s.flow f).task == t) fun s f => s.ctxCheck f 0

/-- Pad readback of the channels that a task commands: event 0x300A once for each side whose difference becomes agreed
(R166). -/
def State.padReadback (s : State) (diff : List (Lane × Nat × Nat)) (t : Nat) : State :=
  s.each ((upto 64).filter fun c => s.on (FC_QBIND_EN c) && s.get (FC_QBIND_TASK c) == t) fun s c =>
    s.each [0, 1] fun s p =>
      let wrong := match s.singleLane t with
        | some l => s.padWrong diff l c p
        | none => decide (2 ≤ s.votersWith fun l => s.padWrong diff l c p)
      let new := wrong && !s.on (PADMIS c p)
      let must := s.padMust c p
      let s := s.put (PADMIS c p) wrong
      if new then (s.raise (FC_EVT_PADMIS c) (FC_EVCNT_OTHER_CNT c)).ev 0x300A 0 c p (bit must) else s

/-! ### SYS and FLOW (R60, R61, R355) -/

/-- Lease-task periods from an action instant at network time `a` to the lease expiry of a lead (R61). -/
def State.leasePeriods (s : State) (a : Nat) : Nat :=
  if s.role != .lead then 0
  else if s.on TW_STAT_SOLO then 64
  else min 64 ((s.expiryAt (s.get TW_E) - a) / s.periodGrains s.leaseTask)

/-- The values that SYS returns in the scan that begins with this action instant (R61). -/
def State.sysValues (s : State) (t a : Nat) : SysLatch :=
  let active := s.role == .none || s.on TW_STAT_ACTIVE
  { lanes := w32 (laneMask s.inVote + 16 * laneMask (fun l => s.lane l == .assay || s.lane l == .seeding) +
      256 * laneMask (fun l => s.lane l == .retired)),
    allIn := Lane.all.all s.inVote, sync := w32 (s.get TN_SYNCST_STATE), inSync := s.inSync,
    lease := w32 (bit (s.role == .lead) + 2 * bit active + 4 * s.get TW_STAT_SOLO + 256 * s.leasePeriods a),
    active := active, lane := w32 (s.get (TSK_STATE_MODE t)), period := s.periodUs t, first := w32 (s.get (FIRST t)),
    powerFwd := s.on PW_FWD && s.get PWR_CFG_RTASK == t, furlong := w32 (a / s.furlongGrains) }

/-- The engine latches the state of every configured flow for a task (R60, R226). -/
def State.latchFlows (s : State) (t : Nat) : State :=
  s.each s.flows fun s f => s.setFlowSeen t f (s.flowState f)

end Sys2Proof.Machine
end

