-- ==== Sys2Proof/Machine/AgreeOps.lean ====
section
/-! DEFINITION. Input agreement source by source: majority, median and identical frames, what two lanes do, dissent and its
run counts, imports (R79 to R84, R163, R169, R170, R346, R348). -/

namespace Sys2Proof.Machine
open Reg Hid

/-! ### One source (R79, R84, R170) -/

/-- What agreement finds for a source: its words, none where the previous ones stay; the lanes in sample dissent; the lanes
with a minority copy of a shared source; and whether a shared source has no agreed value. -/
structure Agreed where
  words : Option (List Word)
  dissent : List Lane
  minority : List Lane
  lost : Bool
  deriving DecidableEq, Repr

/-- Words on which all agree. -/
def Agreed.all (ws : List Word) : Agreed := { words := some ws, dissent := [], minority := [], lost := false }

/-- Words, with the lanes in sample dissent. -/
def Agreed.of (ws : List Word) (dissent : List Lane) : Agreed :=
  { words := some ws, dissent := dissent, minority := [], lost := false }

/-- A lane's copy of a source. -/
structure Copy where
  lane : Lane
  seq : Nat
  ws : List Word
  deriving DecidableEq, Repr

/-- The majority of three words, bit by bit. -/
def majority (a b c : Word) : Word := (a &&& b) ||| (a &&& c) ||| (b &&& c)

/-- The majority of three lists of words, bit by bit. -/
def majorities (a b c : List Word) : List Word :=
  (a.zip (b.zip c)).map fun p => majority p.1 p.2.1 p.2.2

/-- The middle one of three integers. -/
def midI (a b c : Int) : Int := max (min a b) (min (max a b) c)

/-- A word of a copy. -/
def Copy.at (x : Copy) (i : Nat) : Word := x.ws.getD i 0

/-- The lanes of some copies that satisfy a test. -/
def lanesWith (v : List Copy) (p : Copy → Bool) : List Lane := (v.filter p).map Copy.lane

/-- How a source's words are agreed: bit by bit; as an SD result or a speed; as a safety frame; or as copies that one shared
block delivered (R79). -/
inductive Kind where
  | discrete | sd | speed | frame | shared
  deriving DecidableEq, Repr

/-- The kind of a source (R79). -/
def State.kindOf (s : State) : Src → Kind
  | .chan c => match s.get (FC_CFG_MODE c) with
    | 3 => .sd
    | 4 => .speed
    | _ => .discrete
  | .flow f => if (s.flow f).safety then .frame else .shared
  | _ => .shared

/-- By how much two words differ, read as signed. -/
def gapS (a b : Word) : Nat := (a.toInt - b.toInt).natAbs
/-- By how much two words differ, read as unsigned. -/
def gapU (a b : Word) : Nat := ((a.toNat : Int) - b.toNat).natAbs

/-- A speed lies within every tolerance of another (R170). -/
def State.speedNear (s : State) (c : Nat) (x y : Nat → Word) : Bool :=
  decide ((x 0 - y 0).toInt.natAbs ≤ s.get (FC_TOL0_TOL_MAIN c)) && decide (gapU (x 1) (y 1) ≤ s.get (FC_TOL0_TOL_PER c)) &&
    decide (gapU (x 2) (y 2) ≤ s.get (FC_TOL1_TOL_FRQ c))

/-- A list as an indexed word. -/
def wordAt (ws : List Word) (i : Nat) : Word := ws.getD i 0

/-- Three copies of a discrete entry. -/
def agreeBits3 (x y z : Copy) : Agreed :=
  let ws := majorities x.ws y.ws z.ws
  Agreed.of ws (lanesWith [x, y, z] fun v => v.ws != ws)

/-- Two copies of a discrete entry: a bit on which they differ is 0, and SAFE is set (R84, R169). -/
def agreeBits2 (x y : Copy) : Agreed :=
  if x.ws = y.ws then Agreed.all x.ws
  else Agreed.of ((x.ws.zip y.ws).map fun p => (p.1 &&& p.2) ||| 0x80000000) [x.lane, y.lane]

/-- Three copies of an SD_MEASURE entry. -/
def State.agreeSd3 (s : State) (c : Nat) (x y z : Copy) : Agreed :=
  let ws := [BitVec.ofInt 32 (midI (x.at 0).toInt (y.at 0).toInt (z.at 0).toInt), majority (x.at 1) (y.at 1) (z.at 1)]
  Agreed.of ws (lanesWith [x, y, z] fun v =>
    decide (s.get (FC_TOL0_TOL_MAIN c) < gapS (v.at 0) (wordAt ws 0)) || v.at 1 != wordAt ws 1)

/-- Two copies of an SD_MEASURE entry: the result nearer the safe limit within the tolerance, the safe value beyond it
(R84, R170). -/
def State.agreeSd2 (s : State) (c : Nat) (x y : Copy) : Agreed :=
  if x.ws = y.ws then Agreed.all x.ws
  else
    let far := decide (s.get (FC_TOL0_TOL_MAIN c) < gapS (x.at 0) (y.at 0))
    let low := decide ((x.at 0).toInt < (y.at 0).toInt)
    let near := if (s.get (FC_CFG_SAFE_DIR c) == 0) == low then x.at 0 else y.at 0
    let st := if x.at 1 = y.at 1 then x.at 1 else (x.at 1 &&& y.at 1) ||| 0x80000000
    Agreed.of (if far then s.chanSafe c else [near, st]) (if far || x.at 1 != y.at 1 then [x.lane, y.lane] else [])

/-- Three copies of a SPEED entry; the count's median is taken on the differences from the last agreed count (R163). -/
def State.agreeSpeed3 (s : State) (c : Nat) (x y z : Copy) : Agreed :=
  let base := w32 (s.get (SPD_AGREED c))
  let d := fun (v : Copy) => (v.at 0 - base).toInt
  let mid := fun (i : Nat) => w32 (median3 (x.at i).toNat (y.at i).toNat (z.at i).toNat)
  let ws := [base + BitVec.ofInt 32 (midI (d x) (d y) (d z)), mid 1, mid 2, majority (x.at 3) (y.at 3) (z.at 3)]
  Agreed.of ws (lanesWith [x, y, z] fun v => !s.speedNear c v.at (wordAt ws) || v.at 3 != wordAt ws 3)

/-- Two copies of a SPEED entry: within every tolerance all four words of the lane whose frequency lies nearer the safe
limit, the safe value beyond (R84, R170). -/
def State.agreeSpeed2 (s : State) (c : Nat) (x y : Copy) : Agreed :=
  if x.ws = y.ws then Agreed.all x.ws
  else
    let far := !s.speedNear c x.at y.at
    let low := decide ((x.at 2).toNat < (y.at 2).toNat)
    let near := if (s.get (FC_CFG_SAFE_DIR c) == 0) == low then x.ws else y.ws
    Agreed.of (if far then s.chanSafe c else near) (if far || x.at 3 != y.at 3 then [x.lane, y.lane] else [])

/-- Two copies are the same accepted frame (R79). -/
def Copy.same (x y : Copy) : Bool := x.seq != 0 && x.seq == y.seq && x.ws == y.ws

/-- Copies of a safety flow: the frame that two lanes accepted identically; with none the flow is not received (R79, R81,
R84). Where three lanes hold three different frames there is no agreed frame to differ from: no lane dissents, and its run
ends (the model's choice, log 87). -/
def agreeFrame (v : List Copy) : Agreed :=
  match v.find? fun x => v.any fun y => x.lane != y.lane && x.same y with
  | some x => Agreed.of x.ws (lanesWith v fun y => !(x.same y))
  | none => { words := none, dissent := if v.length = 2 then v.map Copy.lane else [], minority := [], lost := false }

/-- Copies of a shared source: the majority word by word. Two copies that differ, or a word without a majority, leave no
agreed value (R79, R80, R84). -/
def agreeShared (v : List Copy) : Agreed :=
  match v with
  | [x, y, z] =>
    let ws := majorities x.ws y.ws z.ws
    let lost := (x.ws.zip (y.ws.zip z.ws)).any fun p => p.1 != p.2.1 && p.1 != p.2.2 && p.2.1 != p.2.2
    let odd := lanesWith v fun u => lost || u.ws != ws
    { words := if lost then none else some ws, dissent := [], minority := odd, lost := lost }
  | [x, y] =>
    if x.ws = y.ws then Agreed.all x.ws else { words := none, dissent := [], minority := [x.lane, y.lane], lost := true }
  | [x] => Agreed.all x.ws
  | _ => Agreed.all []

/-- The agreed value of a source from the copies of some lanes (R79, R84). -/
def State.agreeOn (s : State) (t : Nat) (x : Src) (v : List Copy) : Agreed :=
  match v with
  | [a] => Agreed.all a.ws
  | _ =>
    match x, s.kindOf x, v with
    | .flow f, .frame, _ =>
      match (if (s.flowSeen t f).stale then s.substitute f else none) with
      | some ws => Agreed.all ws
      | none => agreeFrame v
    | .chan c, .sd, [a, b, d] => s.agreeSd3 c a b d
    | .chan c, .sd, [a, b] => s.agreeSd2 c a b
    | .chan c, .speed, [a, b, d] => s.agreeSpeed3 c a b d
    | .chan c, .speed, [a, b] => s.agreeSpeed2 c a b
    | _, .discrete, [a, b, d] => agreeBits3 a b d
    | _, .discrete, [a, b] => agreeBits2 a b
    | _, _, _ => agreeShared v

/-! ### Faults that agreement finds (R80, R82, R84, R85, R100) -/

/-- Triggers found against lanes, with their causes, and the reason of a loss of the device's second lane. -/
structure Found where
  hits : List (Lane × Nat)
  loss : Option Nat
  deriving DecidableEq, Repr

/-- The exchange link from one lane to another, as a bit of XCH_STATUS.LINK_UP. -/
def linkFrom (a b : Lane) : Nat :=
  match a, b with
  | .la, .lb => 0 | .lb, .la => 1 | .la, .lc => 2 | .lc, .la => 3 | .lb, .lc => 4 | .lc, .lb => 5
  | _, _ => 0

/-- The SRC parameter of a source: a code that XCH_SDLAST lists, else a free value (log 24). -/
def State.srcParam (s : State) (x : Src) : Nat × State := if x.code < 0x700 then (x.code, s) else s.free 12

/-- A minority copy of a shared source, or one that two lanes dispute, is an exchange protocol error (R80, R84). The link that
the event names is the one from the lane to the first of the other two, in the vote or not (the model's choice, log 84). -/
def State.minorityCopy (s : State) (l : Lane) (blamed : Nat) : State :=
  let k := linkFrom l (l.others.headD .la)
  (s.raise (XCH_EVT_PROTO k) XCH_PROTOCNT_CNT).ev 0x1007 blamed k 2

/-- The shared-source findings of a source for a task: three lanes that all differ are a minority each and no majority for
the task; with two lanes nobody is to blame (R80, R84). -/
def State.sharedFaults (s : State) (t : Nat) (a : Agreed) (n : Nat) (f : Found) : State × Found :=
  if a.lost && n == 2 then (s.minorityCopy (a.minority.headD .la) 0, { f with loss := some 1 })
  else
    let s := s.each a.minority fun s l => s.minorityCopy l l.code
    if a.lost then (s.noMajority t 0, { f with loss := some 0 })
    else (s, { f with hits := f.hits ++ a.minority.map fun l => (l, 5) })

/-- What a source delivers while a channel agreement fault is laid on it (R82, R169, R226). -/
def State.safeWords (s : State) (x : Src) : Option (List Word) :=
  match x with
  | .chan c => some (s.chanSafe c)
  | .flow f => s.substitute f
  | _ => some (List.replicate (s.srcPlace x).2 0)

/-- Counts sample dissent in the lanes' runs (R82). -/
def State.countRuns (s : State) (t : Nat) (x : Src) (ls dissent : List Lane) : State :=
  s.each Lane.all fun s l =>
    if ls.contains l && dissent.contains l then
      let y := s.srcParam x
      let s := (y.2.setRun x.code t l (s.run x.code t l + 1)).inc (XCH_SDCNT_CNT l.idx)
      (s.set XCH_SDLAST_SRC y.1).set XCH_SDLAST_LANE l.code
    else if ls.contains l || !s.votes l t then s.setRun x.code t l 0
    else s

/-- Runs above the limit: a fault of the one lane, or, with two lanes over it or two lanes in the vote, of the source (R82,
R84). A run that has raised its fault starts again at 0 (the model's choice, log 87). -/
def State.checkRuns (s : State) (t : Nat) (x : Src) (ls : List Lane) (f : Found) : State × Found :=
  let tooMany := ls.filter fun l => decide (s.get XCH_CFG_SD_LIMIT < s.run x.code t l)
  match tooMany with
  | [] => (s, f)
  | l :: r =>
    let y := s.srcParam x
    let s := y.2
    if r.isEmpty ∧ 3 ≤ ls.length then
      let n := s.run x.code t l
      let s := (s.set (XCH_EVT_SDFAULT l.idx) 1).ev 0x1001 l.code y.1 n t
      (s.setRun x.code t l 0, { f with hits := f.hits ++ [(l, 4)] })
    else
      let s := (s.raise XCH_EVT_CHANFAULT XCH_PROTOCNT_CNT).ev 0x1006 0 y.1 (laneMask tooMany.contains)
      let s := s.each tooMany fun s m => s.setRun x.code t m 0
      (s.set (SRC_FAULT x.code) 1, f)

/-- The run counts of a source with its faults, and the words that it delivers (R82). -/
def State.dissentOf (s : State) (t : Nat) (x : Src) (ls : List Lane) (a : Agreed) (f : Found) :
    State × Found × Option (List Word) :=
  let s := s.countRuns t x ls a.dissent
  let s := if s.on (SRC_FAULT x.code) && a.dissent.isEmpty && a.words.isSome then s.set (SRC_FAULT x.code) 0 else s
  let was := s.on (SRC_FAULT x.code)
  let p := if was then (s, f) else s.checkRuns t x ls f
  (p.1, p.2, if p.1.on (SRC_FAULT x.code) then p.1.safeWords x else a.words)

/-! ### What an agreed channel shows (R162, R163) -/

/-- The registers of an agreed channel; a SPEED above the guaranteed rate is an event when it begins (R162, R163, R173). -/
def State.showAgreed (s : State) (c : Nat) (ws : List Word) : State :=
  let s := s.set (FC_VALUE_W0 c) (wordAt ws 0).toNat
  if s.get (FC_CFG_MODE c) = 4 then
    let st := (wordAt ws 3).toNat
    let s := (s.set (SPD_AGREED c) (wordAt ws 0).toNat).put (FC_STATUS_STILL c) (st.testBit 1)
    let s := s.put (FC_STATUS_DIR c) (st.testBit 0)
    let new := st.testBit 3 && !s.on (OVSPD c)
    let s := s.put (OVSPD c) (st.testBit 3)
    if new then (s.raise (FC_EVT_OVSPD c) (FC_EVCNT_OTHER_CNT c)).ev 0x3009 0 (wordAt ws 1).toNat c else s
  else s

/-- Puts the agreed words of a source where they are held before forces. -/
def State.holdWords (s : State) (x : Src) (ws : Option (List Word)) : State :=
  match ws with
  | none => s
  | some ws =>
    let s := s.setWords (heldImg + s.srcOff x) ws
    match x with
    | .chan c => s.showAgreed c ws
    | .sys t => s.setSys t (.ofRecord ws)
    | .flowSt t f => s.setFlowSeen t f (.ofWord (wordAt ws 0))
    | _ => s

/-- A flow that no two lanes accepted identically counts as not received: its receive age advances (R81). -/
def State.notReceived (s : State) (x : Src) (a : Agreed) : State :=
  match x, a.words with
  | .flow f, none => if s.kindOf x = .frame then s.setAge f (satAdd 8 (s.get (FL_AGE f)) 1) else s
  | _, _ => s

/-- The copies of a source that some lanes hold. -/
def State.copies (s : State) (x : Src) (ls : List Lane) : List Copy :=
  ls.map fun l =>
    { lane := l, seq := match x with | .flow f => s.get (FLL_SEQ l.idx f) | _ => 0,
      ws := s.words (agreeBuf l l + (s.srcPlace x).1) (s.srcPlace x).2 }

/-- The vote exercise of the input side falls into a source: a word of the exercised lane's copy is inverted (R95). -/
def State.exercisedIn (s : State) (t : Nat) (x : Src) : Option Lane :=
  let at_ := s.get (TSK_ISLICE_BASE t) + 4 * s.get (VEX_IN t)
  if inEntry at_ (s.srcPlace x).1 (4 * (s.srcPlace x).2) then s.exercisedLane t else none

/-- Agreement of one source for a task among some lanes: its words are held, its faults are kept for the end (R79 to R84).
Where the vote exercise inverts a word of it, the other two lanes agree (R95, log 26). -/
def State.agreeSrc (t : Nat) (ls : List Lane) (p : State × Found) (x : Src) : State × Found :=
  let s := p.1
  let ls := match s.exercisedIn t x with
    | some l => ls.filter fun m => m != l
    | none => ls
  let a := s.agreeOn t x (s.copies x ls)
  let s := s.notReceived x a
  if s.kindOf x = .shared then
    let q := s.sharedFaults t a ls.length p.2
    (q.1.holdWords x a.words, q.2)
  else
    let q := s.dissentOf t x ls a p.2
    (q.1.holdWords x q.2.2, q.2.1)

/-! ### Imports (R346, R348) -/

/-- The record of an import that a lane has accepted at this action instant. -/
def State.impCopy (s : State) (i : Nat) (l : Lane) : Option (List Byte) :=
  if s.on (IMP_ACC l.idx i) then some (s.bytes (impRec l i) (s.impLen i)) else none

/-- The first check that failed in most of some lanes, coded as in event 0x7125. -/
def State.impWorst (s : State) (i : Nat) (ls : List Lane) : Nat :=
  let cs := (ls.map fun l => s.get (IMP_CHK l.idx i)).filter fun c => c != 0
  let n := fun (c : Nat) => (cs.filter fun d => d == c).length
  (cs.foldl (fun b c => if n b < n c then c else b) (cs.headD 1)) - 1

/-- The age of an import after an action instant, with its stale and fresh events (R348). -/
def State.impAge (s : State) (t i age : Nat) : State :=
  let stale := decide (s.ictx i 2 % 256 < age)
  let was := s.on (IMP_STALE i)
  let s := ((s.set (IMP_AGE i) age).put (IMP_STALE i) stale).put (GRP_STALE_IMPORTS i) stale
  if stale && !was then ((s.set (IMP_STP i) 0).raise GRP_EVT_STALE GRP_EVCNT_STALE_CNT).ev 0x7123 0 i t age
  else if stale then s.inc (IMP_STP i)
  else if was then s.ev 0x7124 0 i (min 65535 (s.get (IMP_STP i) + 1))
  else s

/-- The entry of an import: its status word and its data (R348). -/
def State.impEntry (s : State) (i : Nat) (got : Bool) : List Word :=
  let n := s.impLen i - 32
  let st := w32 (s.get (IMP_AGE i) + 256 * s.get (IMP_STALE i) + 512 * bit got)
  st :: if s.on (IMP_STALE i) ∧ (s.ictx i 0 / 2 ^ 22 % 2 = 0) then List.replicate (ceilDiv n 4) 0 else s.wordsOf (impHeld i) n

/-- Agreement of an import: received when two lanes accept an identical record; a lane that rejects alone is in sample
dissent (R346, R348). -/
def State.agreeImp (t : Nat) (ls : List Lane) (p : State × Found) (i : Nat) : State × Found :=
  let s := p.1
  let won := ls.findSome? fun l => match s.impCopy i l with
    | some r => if ls.any fun m => m != l && s.impCopy i m == some r then some r else none
    | none => none
  match won with
  | some r =>
    let s := (s.setBytes (impHeld i) ((r.drop 28).take (s.impLen i - 32))).impAge t i 0
    let a : Agreed := Agreed.of (s.impEntry i true) (ls.filter fun l => s.impCopy i l != some r)
    let q := s.dissentOf t (.imp i) ls a p.2
    (q.1.holdWords (.imp i) q.2.2, q.2.1)
  | none =>
    let bad := ls.filter fun l => s.impCopy i l == none
    let s := ((s.inc (IMP_REJ i)).raise GRP_EVT_REJECT GRP_EVCNT_OTHER_CNT).ev 0x7125 0 i (s.impWorst i ls)
      (laneMask bad.contains)
    let s := s.impAge t i (satAdd 8 (s.get (IMP_AGE i)) 1)
    (s.holdWords (.imp i) (some (s.impEntry i false)), p.2)

/-! ### The end of agreement (R85, R100) -/

/-- The triggers that agreement has found act: against one lane, or against two as loss of a second lane and no majority for
the task (R80, R84, R100). -/
def State.settleFound (s : State) (t : Nat) (f : Found) : State :=
  match f.loss with
  | some r => s.enterSafe r s.outMask
  | none =>
    match f.hits with
    | [] => s
    | (l, c) :: r =>
      if r.any fun h => h.1 != l then
        (s.noMajority t 0).enterSafe 0 (s.outMask ||| laneMask fun m => f.hits.any fun h => h.1 == m)
      else s.trigger l c t

/-- Lanes whose agreed value differs from the others': one of three has an agreement buffer fault; more, or one of two, are
loss of a second lane (R85). `kind` 1 is a missing exercise report (R96). -/
def State.bufferFaults (s : State) (t kind n : Nat) (bad : List Lane) (f : Found) : State × Found :=
  match bad with
  | [] => (s, f)
  | _ =>
    if n ≤ 2 then (s, { f with loss := some (f.loss.getD 1) })
    else if kind = 0 ∧ 2 ≤ bad.length then (s.noMajority t 0, { f with loss := some (f.loss.getD 0) })
    else
      (s.each bad fun s l =>
          (s.raise (XCH_EVT_BUFFAULT l.idx) XCH_PROTOCNT_CNT).ev 0x1008 l.code t kind,
        { f with hits := f.hits ++ bad.map fun l => (l, 7) })

end Sys2Proof.Machine
end

