-- ==== Sys2Proof/Machine/Recorder.lean ====
section
/-! DEFINITION. The event recorder behind its queue: commits, rewrites, the start search, operating time and reading
(R379 to R391). -/

namespace Sys2Proof.Machine
open Reg Hid

/-- The 32 bytes of a record (R379 to R381). -/
def Rec.bytes (r : Rec) : List Byte :=
  let b := leBytes 4 (r.seq.getD 0) ++ leBytes 2 r.code ++ leBytes 1 r.src ++ leBytes 1 (r.flags + 16 * severity r.code) ++
    leBytes 6 r.time ++ leBytes 4 r.pcyc ++ leBytes 4 r.p32 ++ leBytes 2 r.a ++ leBytes 2 r.b ++ leBytes 2 r.c
  b ++ leBytes 4 (crc32c b)

/-- The slot of a sequence number: whether it is in the rolling area, and its index (R384). -/
def seqSlot (seq : Nat) : Bool × Nat := if seq ≤ 8192 then (false, seq - 1) else (true, (seq - 8193) % 8192)

/-- Where a slot lies. -/
def slotAddr (rolling : Bool) (i : Nat) : Nat := if rolling then rollingSlot i else foundingSlot i

/-- The SEQ of a valid slot, none where its CRC or its range fails (R385). -/
def State.validSeq (s : State) (rolling : Bool) (i : Nat) : Option Nat :=
  let b := s.bytes (slotAddr rolling i) 32
  let seq := ofLe (b.take 4)
  if ofLe (b.drop 28) = crc32c (b.take 28) ∧ (if rolling then 8193 ≤ seq else 1 ≤ seq ∧ seq ≤ 8192) then some seq else none

/-- Shows how many entries the queue holds. -/
def State.showQueue (s : State) : State := s.set REC_STAT_QDEPTH s.recQ.length

/-- The oldest rolling slot, with the newest in slot `n` holding `seq`: the first valid one after it whose SEQ lies in
the range (R385). -/
def State.oldestRolling (s : State) (n seq : Nat) : Option (Nat × Nat) :=
  (upto 8192).findSome? fun i =>
    let k := (n + 1 + i) % 8192
    match s.validSeq true k with
    | some q => if seq ≤ q + 8191 ∧ q ≤ seq then some (k, q) else none
    | none => none

/-- Shows the oldest rolling record: that of slot 0 before the area has filled once (R385, R393). -/
def State.showOldest (s : State) (n seq : Nat) : State :=
  match (if seq < 16385 then some (0, 8193) else s.oldestRolling n seq) with
  | some p => (s.set REC_OLDSLOT_SLOT p.1).set REC_OLDSEQ_SEQ p.2
  | none => (s.set REC_OLDSLOT_SLOT 0).set REC_OLDSEQ_SEQ 0

/-- Shows the newest committed record (R385, R393). -/
def State.showNewest (s : State) (seq : Nat) : State :=
  let p := seqSlot seq
  let s := ((s.set REC_NEWSEQ_SEQ seq).set REC_NEWSLOT_SLOT p.2).put REC_NEWSLOT_AREA p.1
  if p.1 then (s.put REC_STAT_WRAPPED (decide (16385 ≤ seq))).showOldest p.2 seq else s

/-- The commit of SEQ 8192 closes the founding area; event 0xA002 with SEQ 8193 is committed next (R384). -/
def State.closeFounding (s : State) : State :=
  let r : Rec := { id := s.get REC_ID, seq := some 8193, code := 0xA002, src := s.srcByte 0, flags := 0, time := s.opTime,
                   pcyc := s.get REC_PCYC_COUNT, p32 := min (2 ^ 32 - 1) (s.opTime / 1000), a := 0, b := 0, c := 0,
                   written := 0 }
  let s := { s with recQ := r :: s.recQ, recRecent := (r :: s.recRecent).take 32 }
  ((s.set REC_ID (s.get REC_ID + 1)).set REC_STAT_FCLOSED 1).raise REC_EVT_FCLOSE REC_EVCNT_OTHER_CNT |>.showQueue

/-- The last SEQ has been committed: nothing further is; what is queued is lost (R384). -/
def State.exhausted (s : State) : State :=
  let n := s.recQ.length
  (State.add (State.set { s with recQ := [] } REC_STAT_EXHAUST 1) REC_LOSS_COUNT n).showQueue

/-- Space is free again: the events lost since are reported with the code of the first (R387). -/
def State.reportLoss (s : State) : State :=
  if s.get REC_LOST = 0 ∨ s.on REC_STAT_EXHAUST then s
  else
    let n := s.get REC_LOST
    (s.set REC_LOST 0).enqueueRec 0xA003 (s.srcByte 0) n (s.get REC_LCODE) (s.get REC_LSRC) 0 2

/-- A rewrite whose window has ended comes before the next commit (R388). -/
def State.finalDue (s : State) : Bool := s.recRew.any fun r => decide (r.time + 1000 ≤ s.opTime)

/-- MRAM work after the assertion of PFAIL_N: the snapshot comes first, and nothing follows the end of the sequence (R389). -/
def State.pfailHolds (s : State) : Bool := s.on GLB_SUPPLY_PFAIL && (s.on SNAP_BUSY || !s.on PFAIL_SEQ)

/-! ### The start search (R384, R385) -/

/-- The valid slots of an area with their SEQ. -/
def State.validSlots (s : State) (rolling : Bool) : List (Nat × Nat) :=
  (upto 8192).filterMap fun i => (s.validSeq rolling i).map fun q => (i, q)

/-- The highest SEQ among slots, 0 for none. -/
def highest (l : List (Nat × Nat)) : Nat := l.foldl (fun m p => max m p.2) 0

/-- Gives the queued records their SEQ, in the order in which they were raised. -/
def numberRecs : Nat → List Rec → List Rec × Nat
  | n, [] => ([], n)
  | n, r :: q =>
    let x := numberRecs (if n = 8192 then 8194 else n + 1) q
    ({ r with seq := some n } :: x.1, x.2)

/-- The invalid slots in the range of the rolling area, and of the founding area up to slot `f` (R385). -/
def State.tornSlots (s : State) (f : Nat) : List (Bool × Nat) :=
  let founding := ((upto f).filter fun i => (s.validSeq false i).isNone).map fun i => (false, i)
  let new := s.get REC_NEWSLOT_SLOT
  let n := if s.on REC_NEWSLOT_AREA then (new + 8192 - s.get REC_OLDSLOT_SLOT) % 8192 else 0
  founding ++ ((upto n).map fun i => (true, (s.get REC_OLDSLOT_SLOT + i) % 8192)).filter fun p => (s.validSeq true p.2).isNone

/-- The start search: the newest and oldest records, the numbers of what waits in the queue, the invalid slots in range,
and event 0xA001 (R384, R385). -/
def execRecorderStartSearch (s : State) : Host.Outcome State Fault Refusal :=
  occurs (s.on START_STEP && !s.on REC_STAT_READY) s fun s =>
    let founding := s.validSlots false
    let rolling := s.validSlots true
    let newest := max (highest founding) (highest rolling)
    let closed := !rolling.isEmpty || decide (highest founding = 8192)
    let s := (s.put REC_STAT_FCLOSED closed).setIf (newest == 4294967295) REC_STAT_EXHAUST 1
    let s := if newest = 0 then s else s.showNewest newest
    let x := numberRecs (newest + 1) s.recQ
    let named := fun (r : Rec) => (x.1.find? fun q => q.id == r.id).getD r
    let s := { s with recQ := x.1, recRecent := s.recRecent.map named }
    let s := (s.set REC_NEXT x.2).set REC_STAT_READY 1
    let torn := s.tornSlots (if closed then 0 else newest - 1)
    let s := s.each torn fun s p => (s.raise REC_EVT_TORN REC_EVCNT_OTHER_CNT).ev 0xA004 0 p.2 (bit p.1)
    let lost := if closed then 8192 - founding.length else 0
    s.ev 0xA001 0 newest (torn.length + lost) (bit closed)

/-! ### Operating time (R382) -/

/-- Sets the operating time, in its register and in the always-on shadow. -/
def State.setOpTime (s : State) (ms : Nat) : State :=
  ((s.set REC_OPTIME_LO_MS ms).set REC_OPTIME_HI_MS (ms / 2 ^ 32)).set AON_OPT ms

/-- Writes the operating time into the next rotating MRAM word (R382). -/
def State.saveOpTime (s : State) : State :=
  let i := s.get OPT_IDX
  let b := leBytes 6 s.opTime
  (s.setBytes (optWord i) (b ++ leBytes 4 (crc32c b))).set OPT_IDX (i + 1)

/-- The largest operating time among the valid MRAM words, 0 for none (R382). -/
def State.savedOpTime (s : State) : Nat :=
  (upto 16).foldl (fun m i =>
    let b := s.bytes (optWord i) 10
    if ofLe (b.drop 6) = crc32c (b.take 6) then max m (ofLe (b.take 6)) else m) 0

/-- An operating-time word is written every 10 s of operating time (R382). -/
def execOperatingTimeSave (s : State) : Host.Outcome State Fault Refusal :=
  occurs (!s.on IN_RESET && decide (s.get OPT_OP + 10000 ≤ s.opTime)) s fun s => (s.set OPT_OP s.opTime).saveOpTime

/-! ### Refresh and reading (R390, R391) -/

/-- The refresh rewrites every slot with its own contents and raises event 0xA007 (R391). -/
def execMramRefresh (s : State) : Host.Outcome State Fault Refusal :=
  occurs (s.on REC_STAT_READY) s fun s =>
    s.ev 0xA007 0 16384 (16384 - ((s.validSlots false).length + (s.validSlots true).length))

/-- 0x50 REC_READ: raw records in slot order, from founding or rolling slot P1 on (R390). -/
def execRecRead (r : Nat) (memOk : Bool) (s : State) : Host.Outcome State Fault Refusal :=
  .next (s.start r 0x50 fun s d =>
    let n := d.len / 32
    if 8192 ≤ d.p1 then s.finish d stBadParam
    else if d.len % 32 ≠ 0 ∨ 262144 < d.len then s.finish d stBadBuffer
    else if d.p0 = 0 ∧ 8192 < d.p1 + n then s.finish d stBadParam
    else if !memOk then s.bufferFailed d
    else
      let bs := (upto n).flatMap fun i => s.bytes (slotAddr (d.p0 == 1) ((d.p1 + i) % 8192)) 32
      (s.hostWrite d.buf bs).finish d stSuccess n)

/-- The recorder summary (R390). -/
def State.recInfo (s : State) : List Byte :=
  let rolling := s.on REC_OLDSEQ_SEQ
  leBytes 4 0x52454331 ++ leBytes 4 (s.get REC_NEWSEQ_SEQ) ++
    leBytes 2 (s.get REC_NEWSLOT_SLOT + 32768 * s.get REC_NEWSLOT_AREA) ++
    leBytes 2 (s.get REC_OLDSLOT_SLOT + 32768 * bit rolling) ++ leBytes 4 (s.get REC_OLDSEQ_SEQ) ++ leBytes 6 s.opTime ++
    leBytes 2 s.recQ.length ++ leBytes 4 (s.get REC_PCYC_COUNT) ++
    leBytes 1 (s.get REC_STAT_FCLOSED + 2 * s.get REC_STAT_WRAPPED + 4 * s.get REC_STAT_EXHAUST) ++ leBytes 1 0 ++
    leBytes 2 (min 65535 (s.get REC_LOSS_COUNT))

/-- 0x51 REC_INFO (R390). -/
def execRecInfo (r : Nat) (memOk : Bool) (s : State) : Host.Outcome State Fault Refusal :=
  .next (s.start r 0x51 fun s d => s.answer d memOk s.recInfo)

end Sys2Proof.Machine
end

