-- ==== Sys2Proof/Machine/PowerOps.lean ====
section
/-! DEFINITION. Power states: requests, consent, the stop sequence block by block, the wake and its steps (R418 to R431). -/

namespace Sys2Proof.Machine
open Reg Hid

/-! ### Requests (R419, R420) -/

/-- How many retention banks are selected. -/
def State.retBanks (s : State) : List Nat := (upto 23).filter fun b => s.on (PWR_RET_BANKS b)

/-- Why a request to enter a state is refused, 0 for none (R420). -/
def State.powerRefusal (s : State) (target : Nat) : Nat :=
  if !s.standPermit then 1
  else if Lane.all.any fun l => s.lane l == .assay || s.lane l == .seeding then 2
  else if s.safe then 3
  else if s.prog == .hold then 4
  else if s.on PW_PHASE then 5
  else if target = 3 ∧ 8 < s.retBanks.length then 6
  else if 4 < target ∨ target = s.get PW_STATE then 11
  else 0

/-- A request to enter a state, from the register (0), the ring (1) or a scan (2), with the task of a scan, 0xFFFF none
(R419, R420). An on-line change that has not switched is abandoned (R136). -/
def State.powerEnter (s : State) (target src task : Nat) : State :=
  let s := ((s.set PWR_STATUS_TARGET target).set PWR_STATUS_SOURCE src).ev 0x0010 0 target src task
  let r := s.powerRefusal target
  if r ≠ 0 then s.powerShow r 0
  else
    let s := ((s.set PWR_STATUS_OUTCOME 1).set PWR_STATUS_REASON 0).set PWR_STATUS_REFUSER 0
    ((((s.set PW_PHASE 1).set PW_TGT target).set PW_AT s.now).set PWR_STATUS_STEP 0).olcAbort 3

/-! ### The stop sequence (R421, R422) -/

/-- The steps that a target asks (R421). -/
def powerSteps (target : Nat) : List Nat := if target = 1 then [1, 2, 3, 4, 5, 12] else (upto 13).map fun i => i + 1

/-- The step after another one. -/
def nextStep (target n : Nat) : Option Nat := (powerSteps target).find? fun k => decide (n < k)

/-- Event 0x0012 with the retention banks. -/
def State.entryEvent (s : State) : State :=
  let m := if s.get PW_TGT = 3 then s.retBanks.foldl (fun m b => m + 2 ^ b) 0 else 0
  s.ev 0x0012 0 (s.get PW_TGT) m (m / 65536)

/-- A block is asked to stop; the recorder's last record is the entry's (R421). -/
def State.askBlock (s : State) (n : Nat) : State :=
  let s := (s.set PWR_STATUS_STEP n).set PW_ASK_AT s.now
  if n = 10 then (if 3 ≤ s.get PW_TGT then s.unlockEnd 2 else s).entryEvent else s

/-- The tasks have launched their safe values and parked. -/
def State.allParked (s : State) : Bool := tasks.all fun t => !s.enabled t || s.get (PARKED t) == 2

/-- Whether an operation of the bridge is still in flight. -/
def State.bridgeBusy (s : State) : Bool := !s.farOps.isEmpty || !s.twinOut.isEmpty

/-- What a block answers when asked: refuses, accepts, or is not ready to answer yet. `fails` says that a write to MRAM
failed (R421, R422). -/
def State.blockAnswer (s : State) (n : Nat) (fails : Bool) : Option Bool :=
  let no := fun (b : Bool) => if b then some false else some true
  match n with
  | 1 => no (s.on UPD_SESSION_HOLDER || s.on UPD_STAT_PROB || s.on UPD_STAT_JSTATE)
  | 2 => no (s.get DBG_OLC_STATE == 1 || s.get DBG_OLC_STATE == 2 || s.on PS_PEND)
  | 3 => if s.on MODE_PEND || tasks.any fun t => s.on (HIF_SNAP_PENDING t) then some false
         else if s.allParked then some true else none
  | 4 => if groups.any fun g => s.on (WIN g) then none else some true
  | 5 => no (s.get UPD_SESSION_HOLDER == 3 || s.on REL_ON || tasks.any fun t => s.on (TW_XREQ t) || s.on (TW_RXON t))
  | 6 => no (s.on TN_BANK_PENDING || s.on TN_WAKESTAT_SENDING)
  | 7 => no (cans.any fun k => s.on (CN_TXOBJ k) || (upto 128).any fun o => s.on (CN_PEND k o))
  | 8 => no (s.descs.any fun d => !(d.op == 0x7C && d.st == .waiting))
  | 9 => if (upto 64).any fun i => s.get (BR_SEM_OWNER i) != 0xFF then some false
         else if !s.bridgeBusy then some true
         else if s.get PW_ASK_AT + 100 * grainsUs ≤ s.now then some false else none
  | 10 => if s.recQ.isEmpty && s.recRew.isEmpty then some true
          else if s.get PW_ASK_AT + 20 * grainsMs ≤ s.now then some false else none
  | 11 => no fails
  | _ => some true

/-- What stopping a block does beside its bit (R421, R422): a lead gives up its lease, TN stops at a furlong boundary, CAN
transceivers go to standby, a POWER_REQ of a deeper state is answered, the links go down, MRAM takes the operating time, the
lanes let go of their outputs. Event 0x7111 has no cause for a link that stops: it is free (log 22). -/
def State.stopBlock (s : State) (n : Nat) : State :=
  match n with
  | 5 => if s.role == .lead then s.goPassive 0 4 else s.set TW_STAT_COMMIT 0
  | 6 => s.elapseNet ((s.furlong + 1) * s.furlongGrains)
  | 7 => s.each cans fun s k => s.set (CN_STB k) 1
  | 8 => if 3 ≤ s.get PW_TGT then s.settle 0x7C (fun _ => true) stSuccess (s.get PW_TGT) else s
  | 9 => s.each links fun s k =>
      let (c, s) := s.free 16
      s.linkLost k c 0
  | 11 => (s.saveOpTime.set NV_PCYC (s.get REC_PCYC_COUNT))
  | 12 => s.each Lane.all State.driveOff
  | _ => s

/-- The CRC-32C of a retention bank; the contents of the service core memory are free (R426, log 4). -/
def State.bankCrc (s : State) (b : Nat) : Nat × State :=
  if b < 6 then s.free 32
  else if b < 22 then (crc32c (s.bytes (flowBuf (32 * (b - 6))) 0x10000), s)
  else (crc32c (s.bytes (canMem 0 0) 0x10000), s)

/-- The entry completes: the device is in the target state (R418, R424 to R426). -/
def State.entered (s : State) : State :=
  let t := s.get PW_TGT
  let s := (((s.set PW_PHASE 0).set PWR_STATUS_STEP 0).set PWR_STATUS_OUTCOME 2).set PW_STATE t
  if t = 1 then ((s.set PWR_STATUS_STATE 1).entryEvent).saveOpTime
  else if t = 3 then
    let bs := s.retBanks
    let s := s.set WK_KEEP (bs.foldl (fun m b => m + 2 ^ b) 0)
    s.each bs fun s b =>
      let x := s.bankCrc b
      x.2.set (RET_CRC b) x.1
  else s.set WK_KEEP 0

/-- The block being asked accepts: it is stopped, and the next one is asked or the entry completes (R421, R422, R424). -/
def State.acceptBlock (s : State) (n : Nat) : State :=
  let s := (s.stopBlock n).set (PWR_BLK_STOPPED (n - 1)) 1
  match nextStep (s.get PW_TGT) n with
  | some k => s.askBlock k
  | none => s.entered

/-! ### Consent and the snapshot (R420) -/

/-- At the permit task's action instant, with the permit agreed: a standstill permit that is false rolls an entry back; a
request made at least 8 µs before is consented to by every lane in the vote, or refused. `odd` names the lanes in the vote
whose own view differs (R420, R423). -/
def State.powerConsent (s : State) (odd : List Lane) : State :=
  let ph := s.get PW_PHASE
  if 2 ≤ ph ∧ s.standPermit = false then s.powerBack 12 0
  else if ph = 1 ∧ s.get PW_AT + 8 * grainsUs ≤ s.now then
    if s.standPermit && !(Lane.all.any fun l => s.lane l == .assay || s.lane l == .seeding || (s.inVote l && odd.contains l)) then
      (s.startSnapshot).set PW_PHASE 2
    else s.powerBack 2 0
  else s

/-- The snapshot of an entry has been written: the first block is asked (R420, R421). -/
def State.powerSnapDone (s : State) : State :=
  if s.get PW_PHASE = 2 then ((s.set PW_PHASE 3).askBlock 1) else s

/-! ### Waking (R427 to R429) -/

/-- The first wake step from a state (R428). -/
def firstStep (st : Nat) : Nat := if st = 1 then 4 else if st = 4 then 1 else 2

/-- The timeout of a wake step in µs (R428). -/
def stepLimit (n : Nat) : Nat := if n = 1 then 20000 else if n = 2 then 10000 else if n = 3 then 2000 else 1000

/-- A wake begins (R427, R428). -/
def State.beginWake (s : State) (src : Nat) : State :=
  let st := s.get PW_STATE
  let s := (((s.set WK_SRC src).set WK_FROM st).set WK_US 0).set WK_TRY 0
  let s : State := { s with wakeSeen := [] }
  ((s.set WK_STEP (firstStep st)).set WK_DOWN 0).set WK_LOST 0

/-- A wake source acts: it wakes a device below RUN, rolls a stop sequence back, and is ignored otherwise (R423, R427). -/
def State.wakeBy (s : State) (src : Nat) : State :=
  if s.get PW_PHASE = 3 then s.powerBack 8 0
  else if s.on PW_STATE && !s.on WK_STEP && !s.on WK_DOWN then s.beginWake src
  else s

/-- A withdrawal: it cancels an entry that has not completed, wakes from IDLE when the host makes it, and is refused
otherwise (R419). -/
def State.powerWithdraw (s : State) (src : Nat) : State :=
  if s.on PW_PHASE then s.powerBack 9 0
  else if s.get PW_STATE = 1 ∧ src ≠ 2 ∧ s.on WK_STEP = false then s.beginWake 8
  else ((s.set PWR_STATUS_TARGET 0).set PWR_STATUS_SOURCE src).powerShow 11 0

/-- A request of the register, the ring or a scan (R419). -/
def State.powerRequest (s : State) (target src task : Nat) : State :=
  if target = 0 then s.powerWithdraw src else s.powerEnter target src task

/-- Lanes that fail their self-check are retired (R428, R465). -/
def State.selfCheck (s : State) (fail : List Lane) : State :=
  s.each (Lane.all.filter fun l => (fail.contains l || s.on (LANE_RESET l.idx)) && s.lane l != .retired) fun s l => s.retire l 3

/-- The lanes that pass the self-check (R465). -/
def State.passing (s : State) (fail : List Lane) : List Lane :=
  Lane.all.filter fun l => s.lane l != .retired && !fail.contains l && !s.on (LANE_RESET l.idx)

/-- What the wake is shown and recorded as (R429, R433, R434, R262). -/
def State.showWake (s : State) : State :=
  let dur := s.get WK_US
  let s := ((s.set PWR_WAKE_SRC (s.get WK_SRC)).set PWR_WAKE_FROM (s.get WK_FROM)).set PWR_WAKE_DUR (min 65535 dur)
  let s := s.ev 0x0013 0 dur (s.get WK_SRC) (s.get WK_FROM)
  let s := s.put TN_WAKESTAT_WOKEN (s.get WK_SRC == 6)
  let s := if s.get WK_SRC = 6 then
      let s := (s.set TN_WAKESTAT_MATCH_NODE (s.get WK_NODE)).set TN_WAKESTAT_MATCH_ID (s.get WK_ID)
      (s.raise TN_TEVT_WAKE TN_TEVCNT_OTHER_CNT).ev 0x580F 0 (s.get WK_NODE) (s.get WK_ID) (s.get WK_REASON)
    else s
  s.put PCIE_WAKE (s.get WK_SRC != 7 && !s.on HIF_STATUS_SPEED)

/-- The network and the twin start afresh after SLEEP: ports are measured again, the node listens (R429, R255). -/
def State.wakeNet (s : State) : State :=
  let s := s.each ports fun s p =>
    ((((s.set (TN_PORT_USED p) 0).set (DLY_REQ p) 0).set (DLY_N p) 0).set (DLY_T1 p) 0).put (DLY_ON p) (s.portUp p)
  let s := ((s.set TN_SYNCST_ATTEMPTS 0).set TN_SYNCST_GAVEUP 0).set TN_SYNCST_NETSTARTED 0
  (s.listenAtStart 0).wakeRebroadcast.startTwin

/-- The wake from IDLE or SLEEP ends: the stopped blocks restart and the device is back in RUN (R428 to R430). -/
def State.wakeDone (s : State) (fail : List Lane) : State :=
  let frm := s.get WK_FROM
  let s := (((s.set WK_STEP 0).set PW_STATE 0).set PWR_STATUS_STATE 0).selfCheck fail
  let s := s.restartBlocks
  let s := (if frm = 2 then s.wakeNet else s).showWake
  s.settle 0x7C (fun _ => true) stSuccess (frm + 16 * s.get WK_SRC + 65536 * min 65535 (s.get WK_US))

end Sys2Proof.Machine
end

