-- ==== Sys2Proof/Machine/Agree.lean ====
section
/-! DEFINITION. The completion of input agreement and what follows from the agreed inputs at once: forces, permits and consent,
readback supervision, exports, input-fed flows, record A, the start of scans; and pre-emption (R67, R69, R79 to R85, R95, R122,
R141, R179, R187, R191, R217, R345, R369, R371, R420). -/

namespace Sys2Proof.Machine
open Reg Hid

/-! ### The start of a scan (R37, R69, R132) -/

/-- A lane begins a task's scan at the entry of its root POU; a halt request that waits halts it there (R37, R69, R132). -/
def State.readyLane (s : State) (t : Nat) (l : Lane) : State :=
  let c := { Ctx.start with pc := s.pouEntry Ctx.start (s.get (TSK_ROOT_POU t)), phase := .ready }
  let s := s.setCtx l t c
  if s.on (HREQ t) then s.haltLane l t c 8 else s

/-- The first local scan since the start-up, in ms from S (R455). -/
def State.firstScan (s : State) : State :=
  if s.on SCAN_SEEN then s
  else (s.set SCAN_SEEN 1).set GLB_START_SCAN_MS (min 65535 ((s.get START_US + s.now / grainsUs) / 1000))

/-- A task's scan of this period begins in some lanes; each takes up its waiting task of highest priority when it is free
(R69). -/
def State.startScan (s : State) (t : Nat) (ls : List Lane) : State :=
  if s.on (SCANNING t) && s.scans t then
    let s := s.each ls fun s l => (if s.mirrors t then s.keepBefore t l else s).readyLane t l
    (s.each ls State.resume).set (HREQ t) 0 |>.firstScan
  else s

/-! ### Permits (R122, R123, R131, R136) -/

/-- The agreed value of a channel, before forces, is 1 and shows no discrepancy fault. -/
def State.agreedOn (s : State) (c : Nat) : Bool :=
  let w := s.rd (heldImg + s.get (FC_IBIND_OFFSET c)) 4
  w.testBit 0 && !(s.get (FC_CFG_MODE c) == 1 && w.testBit 1)

/-- The permits as agreed; a maintenance permit that becomes false ends the unlock, HOLD and an on-line change that has not
switched, and takes the safety forces away (R122, R123, R131, R136, R142). -/
def State.takePermits (s : State) : State :=
  let was := s.maintPermit
  let s := s.put DBG_PSTATE_STAND (s.on DBG_PERMIT_STAND_EN && s.agreedOn (s.get DBG_PERMIT_STAND_CH))
  let s := s.put DBG_PSTATE_MAINT (s.on DBG_PERMIT_MAINT_EN && s.agreedOn (s.get DBG_PERMIT_MAINT_CH))
  if was && !s.maintPermit then (((s.unlockEnd 1).holdLost).olcAbort 2).loseForces else s

/-- The channels of the enabled permits. -/
def State.permitChannels (s : State) : List Nat :=
  (if s.on DBG_PERMIT_STAND_EN then [s.get DBG_PERMIT_STAND_CH] else []) ++
    if s.on DBG_PERMIT_MAINT_EN then [s.get DBG_PERMIT_MAINT_CH] else []

/-- The permit task at its action instant: the permits, then the lanes' consent to a power request (R122, R420). -/
def State.permitTask (s : State) (t : Nat) (odd : List Lane) : State :=
  if s.get DBG_PERMIT_TASK = t then s.takePermits.powerConsent odd else s

/-! ### Brake groups (R179, R187, R191) -/

/-- The agreed readback against the pad level launched before: stuck energised latches the group, low is shown (R191). -/
def State.supervise (s : State) (g : Nat) : State :=
  let rb := s.get (BRK_CFG_RBCH g)
  let shows := bit ((s.rd (heldImg + s.get (FC_IBIND_OFFSET rb)) 4).testBit 0) == s.get (BRK_CFG_RBPOL g)
  let lim := s.get (BRK_CFG_RB_LIMIT g)
  match s.get (CMP_LVL g), shows with
  | 1, true =>
    let n := min lim (s.get (STUCK_RUN g) + 1)
    let hit := decide (s.get (STUCK_RUN g) < lim) && n == lim
    let s := (s.set (STUCK_RUN g) n).set (RBLOW_RUN g) 0
    if hit then ((s.latchGroup g 3).raise (BRK_EVT_STUCK g) (BRK_EVCNT_FAULT_CNT g)).ev 0x4006 0 rb g n else s
  | 2, false =>
    let n := min lim (s.get (RBLOW_RUN g) + 1)
    let hit := decide (s.get (RBLOW_RUN g) < lim) && n == lim
    let s := (s.set (RBLOW_RUN g) n).set (STUCK_RUN g) 0
    if hit then ((s.set (BRK_STAT_RBLOW g) 1).raise (BRK_EVT_RBLOW g) (BRK_EVCNT_FAULT_CNT g)).ev 0x4007 0 rb g n else s
  | 0, _ => s
  | _, _ => ((s.set (STUCK_RUN g) 0).set (RBLOW_RUN g) 0).set (BRK_STAT_RBLOW g) 0

/-- What a group takes from its task's agreed inputs: the readback, and whether every demand channel shows no demand, without
which a bright test scheduled at this instant does not start (R179, R187, R191). -/
def State.groupAgreed (s : State) (g : Nat) : State :=
  let s := s.supervise g
  let ok := (s.demandChannels g).all s.agreedOn
  (s.put (IMG_OK g) ok).setIf (!ok && s.get (TEST_GO g) == 2) (TEST_GO g) 0

/-! ### Exports and input-fed flows (R217, R330, R345) -/

/-- A word of an export context; the reserved bits read 0 (R16, R351). -/
def State.xctx (s : State) (x w : Nat) : Nat := definedBits exportBits w ((Sparse.get s.cfg.exports x []).getD w 0)

/-- The export record of a slice (R345). -/
def State.exportBytes (s : State) (t x seq : Nat) : List Byte :=
  let n := s.xctx x 1 % 4096
  let b := leBytes 4 0x47525031 ++ leBytes 1 (s.get GLB_STRAP_DEVID + 4 * x) ++ leBytes 1 0 ++ leBytes 2 n ++
    leBytes 8 (s.get (LAST_F t)) ++ leBytes 4 seq ++ leBytes 8 0 ++ s.bytes (agreedImg + s.xctx x 0 % 65536) n
  b ++ leBytes 4 (crc32cFrom (s.xctx x 2) b)

/-- Writes an export record; one later than A + DL is an event (R330, R345). -/
def State.exportSlice (s : State) (t x : Nat) : State :=
  let seq := nextSeq (s.get (EXP_SEQ x))
  let s := (s.set (EXP_SEQ x) seq).setBytes (expBuf x) (s.exportBytes t x seq)
  if s.get (AGREE_A t) + s.get GRP_CFG_DL * grainsUs < s.now then
    let s := (s.raise GRP_EVT_XLATE GRP_EVCNT_OTHER_CNT).set (EXP_LATEF x) (s.furlong + 1)
    s.ev 0x7122 0 x (min 65535 ((s.now - s.get (AGREE_A t)) / grainsUs)) t
  else s

/-- The exports of a task, when two lanes can present them identically; a slice that they cannot is not ready by its deadline
(R330, R345). -/
def State.exportSlices (s : State) (t : Nat) : State :=
  let xs := (upto 4).filter fun x => (s.xctx x 0).testBit 20 && s.xctx x 0 / 2 ^ 16 % 16 == t
  if !s.on GRP_CFG_EN then s
  else if s.twoLanes then s.each xs fun s x => s.exportSlice t x
  else s.each xs fun s x => s.set (EXP_LATEF x) (s.furlong + 1)

/-- The SEND flows that a task's input slice feeds: their data are ready (R217, R220). -/
def State.inputFed (s : State) (t : Nat) : State :=
  s.each (s.flows.filter fun f =>
      let x := s.flow f
      x.dir == 1 && x.space == 1 && x.en && x.task == t) fun s f =>
    if s.ctxFit f then s.sendReady f (s.bytes (agreedImg + (s.flow f).off) (s.flow f).len) else s.ctxCheck f 0

/-! ### Agreement (R67, R79 to R85, R95, R141) -/

/-- The lanes that agree on a task's samples: those in its vote whose sampling front runs. -/
def State.agreeLanes (s : State) (t : Nat) : List Lane := (s.voters t).filter fun l => !s.on (LANE_RESET l.idx)

/-- The lanes exchange their copies: each holds those of the others (R85). -/
def State.exchange (s : State) (t : Nat) (ls : List Lane) : State :=
  let lo := s.get (TSK_ISLICE_BASE t)
  let parts := [(lo, s.inBytes t), (sysOff t, 32), (flowStOff t 0, 2048)]
  s.each ls fun s src => s.each (src.others) fun s dst => s.each parts fun s p =>
    s.copy (agreeBuf src src + p.1) (agreeBuf dst src + p.1) p.2

/-- The vote exercise inverts a word of the exercised lane's copy of the slice, taken in rotation (R95). -/
def State.exerciseCopy (s : State) (t : Nat) : State :=
  match s.exercisedLane t with
  | some l =>
    if s.get (TSK_ISLICE_LEN t) = 0 then s
    else
      let a := agreeBuf l l + s.get (TSK_ISLICE_BASE t) + 4 * s.get (VEX_IN t)
      s.setWord a (~~~(s.word a))
  | none => s

/-- What a fault of the exchange does to a lane's copy: words at byte offsets of I, or past it of the SYS and FLOW state, are
changed. -/
def State.flip (s : State) (l : Lane) (off mask : Nat) : State :=
  let a := agreeBuf l l + off
  s.setWord a (s.word a ^^^ BitVec.ofNat 32 mask)

/-- The input side of a vote exercise has been reported, but by the lanes `missing` (R95, R96). -/
def State.exerciseIn (s : State) (t : Nat) (ls missing : List Lane) (f : Found) : State × Found :=
  if (s.exercisedLane t).isSome then
    let n := s.get (TSK_ISLICE_LEN t)
    let s := s.set (VEX_IN t) (if n = 0 then 0 else (s.get (VEX_IN t) + 1) % n)
    s.bufferFaults t 1 ls.length missing f
  else (s, f)

/-- Input agreement of a task, source by source, with the faults that it finds (R79 to R85, R95, R100). -/
def State.agreeTask (s : State) (t : Nat) (ls bad missing : List Lane) : State :=
  let full := s.get (AGREE t) == 1
  let xs := if full then s.latchSrcs t ++ s.stateSrcs t
    else (s.latchSrcs t).filter fun x => s.permitChannels.any fun c => x == .chan c
  let p := xs.foldl (fun p x => State.agreeSrc t ls p x) (s, { hits := [], loss := none })
  let p := if full then (s.inputImports t).foldl (fun p i => State.agreeImp t ls p i) p else p
  let p := if full then p.1.exerciseIn t ls missing p.2 else p
  let p := p.1.bufferFaults t 0 ls.length bad p.2
  p.1.settleFound t p.2

/-- The agreed values with the forces on them become the input slice of every lane in the vote; the lanes of a standby take
the lead's in its place (R67, R141, R371). -/
def State.writeInputs (s : State) (t : Nat) (ls : List Lane) : State :=
  let lo := s.get (TSK_ISLICE_BASE t)
  let s := ((s.copy (heldImg + lo) (agreedImg + lo) (s.inBytes t)).applyForces t false agreedImg).set (SNAPW t) 0
  if s.ledElsewhere t then s
  else s.each ls fun s l => s.copy (agreedImg + lo) (inBase l + lo) (s.inBytes t)

/-- A shadowing standby compares its own agreed inputs with record A, word by word, and only counts (R372). -/
def State.crossCheck (s : State) (t : Nat) : State :=
  if s.shadows t && s.get (TW_RA t) == s.get (LAST_F t) + 1 && !s.on (AGREE t) then
    let own := s.words (agreedImg + s.get (TSK_ISLICE_BASE t)) (s.get (TSK_ISLICE_LEN t))
    let led := s.words (twinWin (s.slotOff t) + 64 + 12 * (s.taskImage t).flows.length) (s.get (TSK_ISLICE_LEN t))
    let n := ((own.zip led).filter fun p => p.1 != p.2).length
    if n = 0 then s else (s.add (TW_TMIS_XCHK t) n).ev 0x8015 0 t n
  else s

/-- What follows once the task's inputs are agreed. -/
def State.inputsReady (s : State) (t : Nat) (ls : List Lane) : State :=
  let s := s.each (groups.filter fun g => s.grpOn g && s.get (BRK_CFG_TASK g) == t) State.groupAgreed
  let s := ((s.exportSlices t).inputFed t).sendRecordA t
  let s := s.each (s.inputImports t) fun s i => s.set (IMP_DONE i) 0
  let s := (s.set (AGREE t) 0).crossCheck t
  if s.ledElsewhere t then s else s.startScan t ls

/-- A SINGLE task is ready once its own lane has latched its samples (R69). An import needs two lanes: it is not received
(R346). Where it is the permit task, the permits are what its lane sampled (R122). -/
def State.agreeSingle (s : State) (t : Nat) (l : Lane) : State :=
  let s := s.each (s.latchSrcs t) fun s x => s.holdWords x (some (s.words (agreeBuf l l + (s.srcPlace x).1) (s.srcPlace x).2))
  let p := (s.inputImports t).foldl (fun p i => State.agreeImp t [l] p i) (s, { hits := [], loss := none })
  let s := ((((p.1.writeInputs t [l]).permitTask t []).inputFed t).set (AGREE t) 0)
  s.startScan t [l]

/-- The permits of a SINGLE task whose other inputs are not sampled at this action instant (R122). -/
def State.permitSingle (s : State) (t : Nat) (l : Lane) : State :=
  let xs := (s.latchSrcs t).filter fun x => s.permitChannels.any fun c => x == .chan c
  let s := s.each xs fun s x => s.holdWords x (some (s.words (agreeBuf l l + (s.srcPlace x).1) (s.srcPlace x).2))
  (s.permitTask t []).set (AGREE t) 0

/-- No task of higher priority that was sampled at the same action instant is still to agree; one that only waits for an import
has crossed the exchange (R34). -/
def State.agreeTurn (s : State) (t : Nat) : Bool :=
  tasks.all fun u => !(s.get (AGREE u) == 1 && s.get (AGREE_A u) == s.get (AGREE_A t) &&
    decide (s.get (TSK_CFG_PRIO u) < s.get (TSK_CFG_PRIO t)) && (s.inputImports u).all fun i => s.on (IMP_DONE i))

/-- Input agreement of a task completes. The lanes' copies differ as `flips` says, beyond what they sampled: lane, byte offset
in I and the bits; `bad` are lanes whose agreed value differs from the others', `missing` those that do not report a vote
exercise, `odd` those whose own view of a power request differs (R67, R79, R85, R95, R122, R420). -/
def execInputAgreement (t : Nat) (flips : List (Lane × Nat × Nat)) (bad missing odd : List Lane) (s : State) :
    Host.Outcome State Fault Refusal :=
  occurs (decide (t < 16) && s.on (AGREE t) && s.agreeTurn t &&
      (s.get (AGREE t) == 2 || (s.inputImports t).all fun i => s.on (IMP_DONE i))) s
    fun s =>
      let ls := s.agreeLanes t
      let full := s.get (AGREE t) == 1
      let s := s.each flips fun s f => s.flip f.1 f.2.1 f.2.2
      let s := (if full then s.exerciseCopy t else s).exchange t ls
      let s := s.agreeTask t ls bad missing
      if full then ((s.writeInputs t ls).permitTask t odd).inputsReady t ls
      else (s.permitTask t odd).set (AGREE t) 0

/-- At the next instruction boundary a waiting task of higher priority takes the lane; the one that ran waits (R69). -/
def execPreemption (l : Lane) (s : State) : Host.Outcome State Fault Refusal :=
  occurs true s fun s =>
    match s.running l with
    | none => s.resume l
    | some t =>
      match s.byPriority.find? (s.waiting l) with
      | some u =>
        if s.get (TSK_CFG_PRIO u) < s.get (TSK_CFG_PRIO t) then
          (s.setCtx l t { s.ctx l t with phase := .preempted }).setCtx l u { s.ctx l u with phase := .running }
        else s
      | none => s

end Sys2Proof.Machine
end

