-- ==== Sys2Proof/Machine/Assay.lean ====
section
/-! DEFINITION. Assay, seeding, probation and return of a lane; keep-alive, SAFEOK, timebase supervision and the pace
monitor (R64, R94, R96, R99 to R107, R113, R114). -/

namespace Sys2Proof.Machine
open Reg Hid

/-! ### Assay -/

/-- The result code of LN_ASSAY.RESULT for a step that fails (R101, R115). -/
def assayFail (step : Nat) : Nat := if 2 ≤ step ∧ step ≤ 6 then step else 7

/-- The duration of the assay so far in µs, as LN_ASSAY.DUR and the events carry it. -/
def State.assayDur (s : State) (l : Lane) : Nat := (s.now - s.get (ASSAY_T0 l.idx)) / grainsUs

/-- An assay that does not pass: the result, event 0x1012 and retirement (R99). -/
def State.assayFailed (s : State) (l : Lane) (result : Nat) : State :=
  let d := s.assayDur l
  let s := (s.set LN_ASSAY_RESULT result).set LN_ASSAY_DUR (min d 65535)
  (s.ev 0x1012 l.code d result).retire l 0

/-- Destroys what step 2 marches over: the named task's window, slice and instances, the agreement buffers, or all data
memory, by the cause (R101). -/
def State.march (s : State) (l : Lane) : State :=
  let cause := s.get (ASSAY_WHY l.idx)
  let t := s.get (ASSAY_TASK l.idx)
  if cause = 4 ∨ cause = 7 then s.each Lane.all fun s src => s.destroy (agreeBuf l src) 0x10000
  else if [1, 2, 3, 11, 12].contains cause && decide (t < 16) then
    let s := s.destroy (dataBase l + 64 * s.get (TSK_MWIN_BASE t)) (64 * s.get (TSK_MWIN_LEN t))
    let s := s.destroy (outBase l + s.get (TSK_QSLICE_BASE t)) (4 * s.get (TSK_QSLICE_LEN t))
    match s.image with
    | none => s
    | some im =>
      let s := s.each (im.timers.filter fun d => d.task == t) fun s d => s.destroy (timerBase l + 16 * d.idx) 16
      let s := s.each (im.counters.filter fun d => d.task == t) fun s d => s.destroy (counterBase l + 16 * d.idx) 16
      s.each (im.edges.filter fun d => d.task == t) fun s d =>
        let x := s.free 1
        let a := edgeBase l + d.idx / 8
        let b := x.2.byte a
        x.2.setByte a (if x.1 = 1 then b ||| (1#8 <<< (d.idx % 8)) else b &&& ~~~(1#8 <<< (d.idx % 8)))
  else s.destroy (dataBase l) 0x80000

/-- The transients of a lane within the last 24 h of operating time (R103). -/
def State.recentTransients (s : State) (l : Lane) : List Nat :=
  (Sparse.get s.transients l.idx []).filter fun x => decide (s.opTime < x + 86400000)

/-- The single tasks that the lane's assay stopped restart cold on it (R111). -/
def State.returnSingles (s : State) (l : Lane) : State :=
  s.each (tasks.filter fun t => s.enabled t && s.singleLane t == some l && s.stopped t && s.get (STOP_CAUSE t) == 1)
    fun s t => ((((s.set (DBG_TSTAT_STOPPED t) 0).set (STOP_CAUSE t) 0).set (RESTART t) 2).set (RESTART_OCC t) 6).set
      (RESTART_AT t) s.now

/-- The last TRIPLE task is seeded: the lane enters PROBATION, or VOTE where no TRIPLE task is enabled (R99, R104). -/
def State.seedingDone (s : State) (l : Lane) : State :=
  let n := s.tripleTasks.length
  let s := s.setLane l (if n = 0 then .vote else .probation)
  (s.ev 0x1013 l.code (s.get (SEED_BYTES l.idx)) n (s.get (SEED_RETRY l.idx))).returnSingles l

/-- The verdict of a passed assay: the transient is counted against the budget; within it the lane is seeded (R99, R103). -/
def State.assayPassed (s : State) (l : Lane) : State :=
  let d := s.assayDur l
  let recent := s.recentTransients l
  let n := recent.length + 1
  let s := ((s.set LN_ASSAY_RESULT 1).set LN_ASSAY_DUR (min d 65535)).set (ASSAY_STEP l.idx) 0
  if n > s.get LN_CFG_BUDGET then s.retire l 1
  else
    let s := { s with transients := Sparse.set s.transients l.idx [] (recent ++ [s.opTime]) }
    let s := (s.raise (LN_EVT_TRANS l.idx) (LN_CNT_TRANS_CNT l.idx)).set (LN_TRANS_T24 l.idx) (min n 15)
    let s := (s.ev 0x1011 l.code d n (s.get LN_CFG_BUDGET)).setLane l .seeding
    let s := (s.set (SEED_BYTES l.idx) 0).set (SEED_RETRY l.idx) 0
    if s.tripleTasks.isEmpty then s.seedingDone l else s

/-- What the end of an assay step does, when the step passes (R101). -/
def State.assayStep (s : State) (l : Lane) : State :=
  let step := s.get (ASSAY_STEP l.idx)
  if step = 7 then s.assayPassed l
  else
    let s :=
      if step = 1 then
        let s := s.each tasks fun s t => s.dropScan l t
        if s.get (ASSAY_WHY l.idx) = 2 then s.ev 0x1003 l.code (s.get (ASSAY_LATE l.idx)) (s.get (ASSAY_TASK l.idx)) else s
      else if step = 2 then s.march l
      else if step = 6 then s.loadProgram l
      else s
    s.set (ASSAY_STEP l.idx) (step + 1)

/-- The grain at which an assay has lasted 30 ms (R99, R101). -/
def State.assayLimit (s : State) (l : Lane) : Nat := s.get (ASSAY_T0 l.idx) + 30 * grainsMs

/-- An assay step of a lane ends; a failed step ends the assay, and one that ends later than 30 ms after the start finds it ended
by the limit (R99, R101). -/
def execAssayStepEnd (l : Lane) (pass : Bool) (s : State) : Host.Outcome State Fault Refusal :=
  occurs (s.lane l == .assay && s.on (ASSAY_STEP l.idx) && !s.safe) s fun s =>
    if s.assayLimit l < s.now then s.assayFailed l 7
    else if pass then s.assayStep l
    else
      let step := s.get (ASSAY_STEP l.idx)
      let s := if step = 2 then s.march l else s
      s.assayFailed l (assayFail step)

/-- An assay that has not ended in 30 ms retires the lane (R99). -/
def execAssayTimeout (l : Lane) (s : State) : Host.Outcome State Fault Refusal :=
  occurs (s.lane l == .assay && !s.safe) s fun s => (s.elapseTo (s.assayLimit l)).assayFailed l 7

/-! ### Seeding and probation -/

/-- The healthy lanes that a seeding lane is seeded from, in letter order. -/
def State.healthy (s : State) (l : Lane) : List Lane := l.others.filter s.voting

/-- The task that a lane in SEEDING is seeded in next: by priority, not seeded yet (R102). -/
def State.nextSeed (s : State) (l : Lane) : Option Nat :=
  s.byPriority.find? fun t => s.isTriple t && !s.on (SEEDED l.idx t) && !s.on (SEED_JOIN l.idx t)

/-- The regions of a task that seeding copies: window, output slice, instances; as addresses in LA and lengths (R102). -/
def State.seedRegions (s : State) (t : Nat) : List (Nat × Nat) :=
  [(dataBase .la + 64 * s.get (TSK_MWIN_BASE t), 64 * s.get (TSK_MWIN_LEN t)),
   (outBase .la + s.get (TSK_QSLICE_BASE t), 4 * s.get (TSK_QSLICE_LEN t))] ++
  match s.image with
  | none => []
  | some im =>
    (im.timers.filter fun d => d.task == t).map (fun d => (timerBase .la + 16 * d.idx, 16)) ++
    (im.counters.filter fun d => d.task == t).map (fun d => (counterBase .la + 16 * d.idx, 16))

/-- Two lanes hold the same in a region given by its address in LA. -/
def State.sameIn (s : State) (a b : Lane) (r : Nat × Nat) : Bool :=
  decide ((Sparse.range s.mem (laneBase a + r.1) r.2).map (fun p => (p.1 - laneBase a, p.2)) =
    (Sparse.range s.mem (laneBase b + r.1) r.2).map fun p => (p.1 - laneBase b, p.2))

/-- Two lanes hold the same edge bits of a task. -/
def State.sameEdges (s : State) (a b : Lane) (t : Nat) : Bool :=
  match s.image with
  | none => true
  | some im => (im.edges.filter fun d => d.task == t).all fun d =>
      (s.byte (edgeBase a + d.idx / 8)).getLsbD (d.idx % 8) == (s.byte (edgeBase b + d.idx / 8)).getLsbD (d.idx % 8)

/-- A task's state is copied to a seeding lane from the lower-lettered healthy lane, checked against the other; a
difference is loss of a second lane (R102, R106). The bytes that event 0x1013 counts are those of every attempt, the edge bits
left out (the model's choice, log 85). -/
def execSeedCopy (l : Lane) (t : Nat) (s : State) : Host.Outcome State Fault Refusal :=
  let completed := match (s.bal t).voted with
    | some (.image _ _) => true
    | _ => false
  occurs (s.lane l == .seeding && s.nextSeed l == some t && completed && !s.safe) s fun s =>
    match s.healthy l with
    | [a, b] =>
      let rs := s.seedRegions t
      if rs.all (s.sameIn a b) && s.sameEdges a b t then
        let s := s.seedTask a l t
        let s := (s.set (SEED_BUSY l.idx t) 1).set (SEED_TRY l.idx t) (s.get (SEED_TRY l.idx t) + 1)
        s.add (SEED_BYTES l.idx) (rs.foldl (fun n r => n + r.2) 0)
      else s.enterSafe 1 s.outMask
    | _ => s

/-- A seed copy ends: before the task's next A − 8 µs the lane joins the task's vote at that A, after it the copy is repeated, and
the fourth attempt that fails retires the lane (R99, R102). -/
def execSeedCopyDone (l : Lane) (t : Nat) (s : State) : Host.Outcome State Fault Refusal :=
  occurs (s.lane l == .seeding && decide (t < 16) && s.on (SEED_BUSY l.idx t) && !s.safe) s fun s =>
    let s' := s.set (SEED_BUSY l.idx t) 0
    if s.now + 8 * grainsUs < s.get (NEXT_A t) then
      s'.set (SEED_JOIN l.idx t) 1
    else
      let s' := s'.inc (SEED_RETRY l.idx)
      if s.get (SEED_TRY l.idx t) ≥ 4 then (s'.set LN_ASSAY_RESULT 7).retire l 4 else s'

/-- Sixteen agreeing periods of every TRIPLE task return a lane to VOTE (R104). -/
def execProbationComplete (l : Lane) (s : State) : Host.Outcome State Fault Refusal :=
  occurs (s.lane l == .probation && !s.safe && s.tripleTasks.all fun t => s.get (PROB_N l.idx t) == 16) s fun s =>
    s.setLane l .vote

/-- With the maintenance permit and the un-retire scope, clears the retired state and the transient history of some lanes
from the next start-up; otherwise event 0x1050 with parameter 0 (R105). -/
def State.unRetire (s : State) (a b c : Bool) : State :=
  let mask := bit a + 2 * bit b + 4 * bit c
  if s.maintPermit && s.unlocked 3 then
    let s := (((s.setIf a (NV_UNRET 0) 1).setIf b (NV_UNRET 1) 1).setIf c (NV_UNRET 2) 1).debugRequest
    s.ev 0x1050 0 1 mask
  else s.ev 0x1050 0 0 mask

/-- LN_MAINT (R105). -/
def execUnRetire (a b c : Bool) (s : State) : Host.Outcome State Fault Refusal := occurs true s fun s => s.unRetire a b c

/-- With the maintenance permit, clears every pad-cell fault latch from the next action instant (R96, R117). -/
def State.padLatchClear (s : State) : State :=
  if s.maintPermit then s.each (upto 64) fun s c => if s.on (BAL_PADF c) then s.set (PADCLR c) 1 else s else s

/-- BAL_PADCLR (R96, R117). -/
def execPadCellFaultClear (s : State) : Host.Outcome State Fault Refusal := occurs true s State.padLatchClear

/-! ### SAFEOK and the timebase -/

/-- The number of the exchange link from a lane to another, as LINK_UP has it (R116). -/
def linkNo (l m : Lane) : Nat :=
  match l, m with
  | .la, .lb => 0
  | .lb, .la => 1
  | .la, .lc => 2
  | .lc, .la => 3
  | .lb, .lc => 4
  | _, _ => 5

/-- A keep-alive between two lanes over the exchange; it counts for a lane when the other is in the vote. The links that carry
it are up (R107, R116, log 27). -/
def execExchangeKeepalive (l m : Lane) (s : State) : Host.Outcome State Fault Refusal :=
  occurs (l != m) s fun s =>
    let s := (s.set (XCH_STATUS_LINK_UP (linkNo l m)) 1).set (XCH_STATUS_LINK_UP (linkNo m l)) 1
    let s := if s.inVote m then s.set (KEEP_AT l.idx) (s.now + 1) else s
    if s.inVote l then s.set (KEEP_AT m.idx) (s.now + 1) else s

/-- The conditions under which a SAFEOK output toggles (R107); it stops in the power states below RUN (R198). -/
def State.safeOkRuns (s : State) (l : Lane) : Bool :=
  s.voting l && s.on (KEEP_AT l.idx) && decide (s.now + 1 ≤ s.get (KEEP_AT l.idx) + 200 * grainsUs) &&
    !s.on (TBF l.idx) && !s.safe && s.get PWR_STATUS_STATE == 0

/-- The grain of a SAFEOK output's next scheduled change: the changes lie 125,000 grains apart, those of the three outputs in the
same grain (R107, log 93). -/
def State.safeokDue (s : State) (l : Lane) : Nat := 125000 * max (s.get (SAFEOK_AT l.idx) / 125000 + 1) (ceilDiv s.now 125000)

/-- The scheduled change of a SAFEOK output, every 125,000 grains: it toggles, or is driven low (R107). -/
def execSafeokToggle (l : Lane) (s : State) : Host.Outcome State Fault Refusal :=
  occurs true s fun s =>
    let due := s.safeokDue l
    let s := (s.elapseTo due).set (SAFEOK_AT l.idx) due
    s.put (SAFEOK l.idx) (s.safeOkRuns l && !s.on (SAFEOK l.idx))

/-- A lane whose timebase reports count (R114). -/
def State.timeReporter (s : State) (l : Lane) : Bool :=
  match s.lane l with
  | .start | .vote | .probation | .seeding => !s.on (LANE_RESET l.idx)
  | _ => false

/-- The tracked ratio after a window: it follows the count by at most 0.1 % per second, one millionth in the 1 ms of the
window (R113). -/
def track (ratio count : Nat) : Nat :=
  let c := count * 1000000
  if ratio ≤ c then min c (ratio + ratio / 1000000) else max c (ratio - ratio / 1000000)

/-- A 1 ms window of the time-check oscillator ends with a count. The first window after start-up calibrates. A count
off by more than 1 %, or a ratio moved by more than 25 %, is a timebase fault of the lane: assay of one reporter, the
device safe state from two (R113, R114). -/
def execTimeCheckWindow (l : Lane) (count : Nat) (s : State) : Host.Outcome State Fault Refusal :=
  occurs (s.timeReporter l && !s.safe) s fun s =>
    if s.get (TCAL l.idx) = 0 then (s.set (TCAL l.idx) count).set (TRATIO l.idx) (count * 1000000)
    else
      let ratio := s.get (TRATIO l.idx)
      let diff := absDiff (count * 1000000) ratio
      let dev := diff * 10000 / ratio
      let new := track ratio count
      let cal := s.get (TCAL l.idx) * 1000000
      let s := (s.set (LN_TCHK_DEV l.idx) (min dev 255)).set (TRATIO l.idx) new
      if ratio < diff * 100 ∨ cal < 4 * absDiff new cal then
        let s := ((s.set (TBF l.idx) 1).set (LN_EVT_TBF l.idx) 1).ev 0x1030 l.code dev
        if l.others.any fun m => s.on (TBF m.idx) then s.enterSafe 3 s.outMask else s.trigger l 10
      else s.set (TBF l.idx) 0

/-! ### The pace monitor -/

/-- The middle of the paces of the lanes in the vote; with two, their mean (R94). -/
def middle : List Nat → Nat
  | [a, b, c] => median3 a b c
  | [a, b] => (a + b) / 2
  | [a] => a
  | _ => 0

/-- The pace monitor's run counts and warning of one lane (R94). -/
def State.paceLane (s : State) (med : Nat) (l : Lane) : State :=
  let p := s.get (LN_PACE_PACE l.idx)
  let low := if 100 * p < 70 * med then min 16 (s.get (PACE_LOW l.idx) + 1) else 0
  let high := if 75 * med ≤ 100 * p then min 16 (s.get (PACE_HIGH l.idx) + 1) else 0
  let s := (s.set (PACE_LOW l.idx) low).set (PACE_HIGH l.idx) high
  if low = 16 ∧ s.on (LN_PACE_WARN l.idx) = false then
    ((s.set (LN_PACE_WARN l.idx) 1).set (LN_EVT_PACEW l.idx) 1).ev 0x1020 l.code p med
  else if high = 16 ∧ s.on (LN_PACE_WARN l.idx) = true then
    (s.set (LN_PACE_WARN l.idx) 0).ev 0x1021 l.code p med
  else s

/-- The middle of the paces of the lanes in the vote is compared with each of them; a reference's period is compared once, after
it has ended (R64, R94). Each lane's pace is its weighted instructions over the µs it was busy. -/
def execPaceComparison (busyA busyB busyC : Nat) (s : State) : Host.Outcome State Fault Refusal :=
  let busy : Lane → Nat := fun l => match l with
    | .la => busyA | .lb => busyB | .lc => busyC
  occurs (s.on PACE_DUE) s fun s =>
    let s := (s.paceNote).set PACE_DUE 0
    match s.paceRef with
    | none => s
    | some t =>
      let ls := Lane.all.filter s.inVote
      let s := s.each (s.voters t) fun s l =>
        if busy l = 0 then s
        else (s.set (LN_PACE_PACE l.idx) (min 65535 (s.get (PACE_W l.idx) / busy l))).set (LN_PACE_VALID l.idx) 1
      let s := s.each Lane.all fun s l => s.set (PACE_W l.idx) 0
      s.each ls (State.paceLane · (middle (ls.map fun l => s.get (LN_PACE_PACE l.idx))))

end Sys2Proof.Machine
end

