-- ==== Sys2Proof/Machine/Brake.lean ====
section
/-! DEFINITION. Brake tests and the maintenance reset (R185 to R193). The conditions of R187 are judged at the group
task's action instant, which leaves `TEST_GO` for the test that starts TOFS later. -/

namespace Sys2Proof.Machine
open Reg Hid

/-- Milliseconds of operating time since a test of the group last passed, or since start-up where it has not passed since
(R187). -/
def State.testAge (s : State) (g : Nat) (dark : Bool) : Nat :=
  let age := s.get (if dark then BRK_DARKAGE_AGE g else BRK_BRIGHTAGE_AGE g)
  if age = 2 ^ 32 - 1 then (s.opTime + 2 ^ 32 - s.get START_OP) % 2 ^ 32 else age

/-- A test falls due PER seconds of operating time after it last passed, or after start-up (R185 to R187). -/
def execTestDue (g : Nat) (dark : Bool) (s : State) : Host.Outcome State Fault Refusal :=
  occurs (decide (g < 16) && s.grpOn g && s.on (if dark then BRK_DARK_EN g else BRK_BRIGHT_EN g) &&
      decide (1000 * s.get (if dark then BRK_DARK_PER g else BRK_BRIGHT_PER g) ≤ s.testAge g dark)) s fun s =>
    s.set (if dark then BRK_STAT_DARKDUE g else BRK_STAT_BRIGHTDUE g) 1

/-- No lane holds the group: a hold in any lane cancels the start of a test (R189). -/
def State.unheld (s : State) (g : Nat) : Bool := (s.holders g).isEmpty

/-- The instant at which a pulse of the group starts: TOFS after the action instant (R187). -/
def State.pulseStart (s : State) (g : Nat) : Nat :=
  s.get (LAST_A (s.get (BRK_CFG_TASK g))) + s.get (BRK_TWIN_TOFS g) * grainsUs

/-- Starts a pulse: the lanes in the vote that are in `from` go to `to`, the window opens and each lane looks at its
readback (R185, R186, R188). -/
def State.startPulse (s : State) (g kind : Nat) (frm goal : GrpState) : State :=
  let s := s.elapseTo (s.pulseStart g)
  let s := (((s.set (PULSE g) kind).set (PULSE_AT g) s.now).set (WIN g) kind).set (TEST_GO g) 0
  let s := s.each Lane.all fun s l =>
    let s := s.set (SEEN l.idx g) 0
    if s.voting l && s.grp g l == frm then s.set (BRK_STAT_ST g l.idx) goal.code else s
  let s := s.driveGroup g
  s.each Lane.all fun s l => s.noteReadback l g

/-- The dark pulse starts, unless a lane holds: then the start is cancelled and the test stays due (R185, R189). -/
def execDarkTest (g : Nat) (s : State) : Host.Outcome State Fault Refusal :=
  occurs (decide (g < 16) && s.get (TEST_GO g) == 1 && !s.blk 4) s fun s =>
    if s.unheld g && !s.safe then (s.startPulse g 1 .released .dark).set (DARK_FORCE g) 0 else s.set (TEST_GO g) 0

/-- The bright pulse starts, unless a lane holds (R186, R189). -/
def execBrightTest (g : Nat) (s : State) : Host.Outcome State Fault Refusal :=
  occurs (decide (g < 16) && s.get (TEST_GO g) == 2 && !s.on (AGREE (s.get (BRK_CFG_TASK g))) && !s.blk 4) s fun s =>
    if s.unheld g && !s.safe then s.startPulse g 2 .applied .bright else s.set (TEST_GO g) 0

/-- The width of the pulse or window of a kind of test (R185, R186). -/
def State.pulseWidth (s : State) (g kind : Nat) : Nat :=
  (if kind = 1 then s.get (BRK_DARK_WIDTH g) else s.get (BRK_BRIGHT_WIDTH g)) * 4 * grainsUs

/-- A pulse in progress runs to its end, in every lane that still pulses; a hold or a latch has ended it in the others (R189,
R193). -/
def State.pulseOver (s : State) (g : Nat) : State :=
  if s.on (PULSE g) then
    let s := (s.elapseTo (s.get (PULSE_AT g) + s.pulseWidth g (s.get (PULSE g)))).set (PULSE g) 0
    let s := s.each Lane.all fun s l => match s.grp g l with
      | .dark => s.set (BRK_STAT_ST g l.idx) GrpState.released.code
      | .bright => s.set (BRK_STAT_ST g l.idx) GrpState.applied.code
      | _ => s
    s.driveGroup g
  else s

/-- A pulse ends (R185, R186, R189, R193). -/
def execPulseEnd (g : Nat) (s : State) : Host.Outcome State Fault Refusal :=
  occurs (decide (g < 16) && s.on (PULSE g)) s fun s => s.pulseOver g

/-- A passed test: its age, its due state and its count (R188). -/
def State.testPassed (s : State) (g kind : Nat) : State :=
  if kind = 1 then
    (((s.set (BRK_DARKAGE_AGE g) 0).set (BRK_STAT_DARKDUE g) 0).set (BRK_STAT_DARKRES g) 1).inc (BRK_TCNT_DARK_PASS g)
  else
    (((s.set (BRK_BRIGHTAGE_AGE g) 0).set (BRK_STAT_BRIGHTDUE g) 0).set (BRK_STAT_BRIGHTRES g) 1).inc
      (BRK_TCNT_BRIGHT_PASS g)

/-- A failed test: the latch, its event and flag (R190). -/
def State.testFailed (s : State) (g kind mask : Nat) : State :=
  let rb := s.get (BRK_CFG_RBCH g)
  let s := if kind = 1 then
      ((s.set (BRK_STAT_DARKRES g) 2).raise (BRK_EVT_DARKFAIL g) (BRK_EVCNT_FAULT_CNT g)).ev 0x4003 0 rb g mask
    else ((s.set (BRK_STAT_BRIGHTRES g) 2).raise (BRK_EVT_BRIGHTFAIL g) (BRK_EVCNT_FAULT_CNT g)).ev 0x4004 0 rb g mask
  s.latchGroup g kind

/-- The verdict of a group: three lanes by majority, two only when both pass (R188). -/
def testVerdict (results : List Bool) : Bool :=
  if results.length = 3 then decide (2 ≤ (results.filter id).length) else results.all id

/-- The test window ends, RBLAG after the pulse: the lanes' results form the verdict (R188, R190). -/
def execTestWindowEnd (g : Nat) (s : State) : Host.Outcome State Fault Refusal :=
  occurs (decide (g < 16) && s.on (WIN g)) s fun s =>
    let kind := s.get (WIN g)
    let s := (s.pulseOver g).elapseTo (s.get (PULSE_AT g) + s.pulseWidth g kind + s.get (BRK_TWIN_RBLAG g) * grainsUs)
    let ls := Lane.all.filter s.inVote
    let pass := testVerdict (ls.map fun l => s.on (SEEN l.idx g))
    let minority := ls.filter fun l => s.on (SEEN l.idx g) != pass
    let mask := laneMask fun l => ls.contains l && !s.on (SEEN l.idx g)
    let s := s.set (WIN g) 0
    let s := if ls.length = 3 then
        s.each minority fun s l =>
          ((s.raise (BRK_EVT_TDISSENT g) (BRK_EVCNT_FAULT_CNT g)).inc (XCH_SDCNT_CNT l.idx)).ev 0x400A l.code
            (s.get (BRK_CFG_RBCH g)) g (kind - 1)
      else s
    if pass then s.testPassed g kind else s.testFailed g kind mask

/-- The groups of a mask. -/
def maskGroups (mask : Nat) : List Nat := groups.filter fun g => mask.testBit g

/-- Why a maintenance reset is refused, 0 for none, in the order of R192. -/
def State.resetRefusal (s : State) (mask : Nat) : Nat :=
  let gs := maskGroups mask
  if s.safe then 4
  else if groups.any fun g => s.on (RST_PEND g) then 3
  else if !s.maintPermit then 1
  else if gs.any fun g => !s.grpOn g then 5
  else if gs.isEmpty || gs.any fun g => !s.latched g then 2
  else 0

/-- A request to clear brake group latches, from BRK_MRST (source 0) or the host ring (1) (R192). -/
def State.brakeReset (s : State) (mask src : Nat) : State :=
  let r := s.resetRefusal mask
  let s := (s.set BRK_MRSTAT_REASON r).set BRK_MRSTAT_GROUPS mask
  if r = 0 then
    let s := ((s.set BRK_MRSTAT_OUTCOME 1).set RST_AT s.now).set RST_SRC src
    s.each (maskGroups mask) fun s g => s.set (RST_PEND g) 1
  else (s.set BRK_MRSTAT_OUTCOME 3).ev 0x4009 0 r mask src

/-- BRK_MRST.GO (R192). -/
def execMaintenanceReset (mask : Nat) (s : State) : Host.Outcome State Fault Refusal :=
  occurs (decide (mask < 65536)) s fun s => (s.set BRK_MRST_GROUPS mask).brakeReset mask 0

end Sys2Proof.Machine
end

