-- ==== Sys2Proof/Machine/Can.lean ====
section
/-! DEFINITION. The CAN controllers' bus events and requests (R266, R271, R274, R276 to R278, R282 to R285). -/

namespace Sys2Proof.Machine
open Reg Hid

/-- A controller that may send: NORMAL or LOOPBACK, not bus-off (R267, R284). -/
def State.canMaySend (s : State) (n : Nat) : Bool :=
  !s.blk 7 && (s.get (CN_CTL_MODE n) == 1 || s.get (CN_CTL_MODE n) == 4) &&
    (s.get (CN_STATUS_STATE n) == 1 || s.get (CN_STATUS_STATE n) == 2)

/-- Objects that fail their check on selection are skipped (R271). -/
def State.skipBad (s : State) (n : Nat) (ks : List Nat) : State :=
  s.each (ks.filter fun k => !(s.canObj n k).crcOk) fun s k => s.objectFailure n k

/-- The controller selects a pending object and starts its frame, after a bus integration in progress (R266, R271, R276). Objects are checked in the order in which
they are looked at: those before the selected one. -/
def execTransmitSelection (n : Nat) (s : State) : Host.Outcome State Fault Refusal :=
  occurs (decide (n < 4) && s.canMaySend n && !s.on (CN_TXOBJ n)) s fun s =>
    let s := s.elapseTo (s.get (CN_INTEG n))
    let ks := (s.canPending n).filter fun k => !s.on (CO_DIS n k)
    match s.canFirst n (ks.filter fun k => (s.canObj n k).crcOk) with
    | none => s.skipBad n ks
    | some k =>
      let before := ks.filter fun j => decide ((s.canObj n j).rank j < (s.canObj n k).rank k)
      let s := ((s.skipBad n before).set (CN_TXOBJ n) (k + 1)).set (CN_STATUS_TX n) 1
      ((s.copy (canReq n k) (canFly n) 64).set (CO_AGAIN n k) 0).set (CO_DROP n k) 0

/-- The frame in progress ends, sent at a timestamp or not: new data wait as the request; one that is not to be retried is
removed (R272, R274, R277). -/
def State.frameEnds (s : State) (n k : Nat) (sent : Option Nat) : State :=
  let again := s.on (CO_AGAIN n k)
  let keep := again || (sent.isNone && !s.on (CO_DROP n k))
  let s := ((s.set (CN_TXOBJ n) 0).set (CN_STATUS_TX n) 0).put (CN_PEND n k) keep
  let s := ((s.set (CO_AGAIN n k) 0).set (CO_DROP n k) 0).showObj n k
  match sent with
  | some sof => if again then s else s.canAnswer n k stSuccess sof
  | none => if keep then s else s.canAnswer n k stAborted 0

/-- Shows the error state that the counters give; `was` is the state before (R283). Bus-off keeps every request. -/
def State.errorState (s : State) (n : Nat) : State :=
  let was := s.get (CN_STATUS_STATE n)
  let tec := s.get (CN_ERRCNT_TEC n)
  let rec_ := s.get (CN_ERRCNT_REC n)
  let both := tec + 65536 * rec_
  let warn := decide (96 ≤ tec) || decide (96 ≤ rec_)
  let s := s.put (CN_ERRCNT_RXPASS n) (decide (128 ≤ rec_))
  let s := if warn && !s.on (CN_STATUS_WARN n) then
      (s.raise (CN_EVT_WARN n) (CN_EVCNT_OTHER_CNT n)).ev 0x600D n both else s
  let s := s.put (CN_STATUS_WARN n) warn
  if 255 < tec then
    let ks := s.canPending n
    let s := ((s.set (CN_STATUS_STATE n) 3).raise (CN_EVT_BUSOFF n) (CN_EVCNT_BUSOFF_CNT n)).set (CN_BOFF_AT n) s.now
    let s := s.ev 0x6003 n ks.length ((s.canFirst n ks).getD 0xFFFF) (s.get (CN_STATUS_LASTERR n))
    s.put (CN_STATUS_RECOVERING n) (!s.on (CN_CTL_RECOV n))
  else if 128 ≤ tec ∨ 128 ≤ rec_ then
    if was = 1 then
      ((s.set (CN_STATUS_STATE n) 2).raise (CN_EVT_PASSIVE n) (CN_EVCNT_OTHER_CNT n)).ev 0x6001 n both
        (s.get (CN_STATUS_LASTERR n)) (s.get (CN_STATUS_LASTERR_D n))
    else s
  else if was = 2 then (s.set (CN_STATUS_STATE n) 1).ev 0x6002 n both
  else s

/-- Notes the loop delay that compensation has measured (R282). -/
def State.noteLoop (s : State) (n d : Nat) : State :=
  if s.on (CN_TDC_EN n) && decide (s.get (CN_TDC_LOOPMIN n) ≤ d) then s.set (CN_STATUS_LOOPD n) (min d 127) else s

/-- The frame that a controller is sending (R269, R274). -/
def State.flyFrame (s : State) (n k : Nat) : CanFrame :=
  let o := s.canObj n k
  { ide := o.ide, id := o.id, fdf := o.fdf, brs := o.fdf && o.brs,
    esi := o.fdf && s.get (CN_STATUS_STATE n) == 2, data := s.bytes (canFly n) o.len }

/-- What a completed frame does: its object's words, the counts and the error counter (R268, R277, R285). -/
def State.frameSent (s : State) (n k : Nat) (f : CanFrame) (sof : Nat) : State :=
  let s := ((s.putFrame n k f sof).inc (CN_FRCNT_TXOK n)).set (CO_RUN n k) 0
  let s := (s.set (CO_TXAGE n k) 0).set (CN_ERRCNT_TEC n) (s.get (CN_ERRCNT_TEC n) - 1)
  (s.frameEnds n k (some (sof % 2 ^ 32))).errorState n

/-- A frame of the controller completes without error (R277, R280, R282, R285). -/
def execCanTxComplete (n sof : Nat) (loop : Option Nat) (s : State) : Host.Outcome State Fault Refusal :=
  occurs (decide (n < 4) && s.on (CN_TXOBJ n)) s fun s =>
    let k := s.get (CN_TXOBJ n) - 1
    let f := s.flyFrame n k
    let s := if f.brs then (loop.map (s.noteLoop n)).getD s else s
    let s := s.frameSent n k f sof
    if s.get (CN_CTL_MODE n) = 4 then (s.inc (CN_FRCNT_RXOK n)).canStore n f sof else s

/-- A frame loses arbitration: its request takes part in the next selection; the collision run stays, and the frame that won is
being received (R276, R277, R285, log 77). -/
def execArbitrationLost (n : Nat) (s : State) : Host.Outcome State Fault Refusal :=
  occurs (decide (n < 4) && s.on (CN_TXOBJ n)) s fun s =>
    (s.frameEnds n (s.get (CN_TXOBJ n) - 1) none).set (CN_STATUS_RX n) 1

/-- The collision run reaches 16: COLL, and the stop of COLLPOL 1 (R285). -/
def State.collide (s : State) (n k : Nat) : State :=
  let run := satAdd 8 (s.get (CO_RUN n k)) 1
  let s := s.set (CO_RUN n k) run
  if run ≥ 16 ∧ s.on (CN_COLL n k) = false then
    let o := s.canObj n k
    let s := ((s.set (CN_COLL n k) 1).raise (CN_EVT_COLL n) (CN_EVCNT_OTHER_CNT n)).ev 0x6005 n o.id k (bit o.collPol)
    if o.collPol then
      ((s.set (CO_STOP n k) 1).set (CO_AGAIN n k) 0).set (CO_DROP n k) 1 |>.ev 0x6006 n o.id k
    else s
  else s

/-- A CAN error: the counters, the error state, the collision run and the frame in progress (R266, R277, R283, R285).
RESTRICTED operation freezes the counters (R267). -/
def execCanError (n : Nat) (e : CanError) (s : State) : Host.Outcome State Fault Refusal :=
  occurs (decide (n < 4) && decide (1 ≤ e.code) && decide (e.code ≤ 6) && s.on (CN_CTL_MODE n) &&
      s.get (CN_STATUS_STATE n) != 3 && (!e.sending || s.on (CN_TXOBJ n))) s fun s =>
    let s := s.set (if e.dataPhase then CN_STATUS_LASTERR_D n else CN_STATUS_LASTERR n) e.code
    let s := s.set (CN_STATUS_RX n) 0
    let quiet := s.get (CN_CTL_MODE n) == 3 ||
      (e.sending && e.code == 6 && s.get (CN_STATUS_STATE n) == 2 && e.silent)
    let s := if quiet then s
      else if e.sending then s.set (CN_ERRCNT_TEC n) (s.get (CN_ERRCNT_TEC n) + 8)
      else s.set (CN_ERRCNT_REC n) (min 255 (s.get (CN_ERRCNT_REC n) + if e.eight then 8 else 1))
    let s := if e.sending then
        let k := s.get (CN_TXOBJ n) - 1
        let s := if e.dataField then s.collide n k else s.set (CO_RUN n k) 0
        s.frameEnds n k none
      else s
    s.errorState n

/-- A valid reception lowers the receive error counter; from the passive range it goes to a value of 119 to 127 that
ISO 11898-1:2015 leaves open (R283, log 15). -/
def State.recDown (s : State) (n : Nat) : State :=
  let r := s.get (CN_ERRCNT_REC n)
  if s.get (CN_CTL_MODE n) = 3 then s
  else if r ≤ 127 then (s.set (CN_ERRCNT_REC n) (r - 1)).errorState n
  else
    let x := s.free 8
    (x.2.set (CN_ERRCNT_REC n) (119 + x.1 % 9)).errorState n

/-- A controller that receives: in a mode other than OFF and LOOPBACK, not bus-off, and not integrating (R266, R267, R284). -/
def State.canReceives (s : State) (n : Nat) : Bool :=
  decide (n < 4) && !s.blk 7 && [1, 2, 3].contains (s.get (CN_CTL_MODE n)) && s.get (CN_STATUS_STATE n) != 3 &&
    decide (s.get (CN_INTEG n) ≤ s.now)

/-- A frame of a data length of its format is received without error (R266, R278, R280). -/
def execCanFrameReceived (n : Nat) (f : CanFrame) (sof : Nat) (s : State) : Host.Outcome State Fault Refusal :=
  occurs (s.canReceives n && (canLens f.fdf).contains f.data.length) s fun s =>
    ((s.inc (CN_FRCNT_RXOK n)).set (CN_STATUS_RX n) 0 |>.recDown n).canStore n f sof

/-- A remote frame is counted and discarded (R266). -/
def execRemoteFrame (n : Nat) (s : State) : Host.Outcome State Fault Refusal :=
  occurs (s.canReceives n) s fun s => ((s.inc (CN_FRCNT_RXOK n)).set (CN_STATUS_RX n) 0).recDown n

/-- A protocol exception event: the controller integrates into the bus, after 11 recessive bits at the earliest. With the event
disabled the same bit is a form error of the nominal phase, counted by the receiver (R266, R283). -/
def execProtocolException (n : Nat) (id : Option Nat) (s : State) : Host.Outcome State Fault Refusal :=
  occurs (s.canReceives n) s fun s =>
    let s := s.set (CN_STATUS_RX n) 0
    if s.on (CN_CTL_PEX_OFF n) then
      let s := s.set (CN_STATUS_LASTERR n) 5
      (if s.get (CN_CTL_MODE n) = 3 then s else s.set (CN_ERRCNT_REC n) (min 255 (s.get (CN_ERRCNT_REC n) + 1))).errorState n
    else
      let s := s.set (CN_INTEG n) (s.now + s.integration n)
      (s.raise (CN_EVT_PEX n) (CN_EVCNT_OTHER_CNT n)).ev 0x600A n (id.getD 0xFFFFFFFF)

/-- The recovery sequence ends (R284). -/
def execBusOffRecovered (n : Nat) (s : State) : Host.Outcome State Fault Refusal :=
  occurs (decide (n < 4) && s.get (CN_STATUS_STATE n) == 3 && s.on (CN_STATUS_RECOVERING n)) s fun s =>
    let ms := min (2 ^ 32 - 1) ((s.now - s.get (CN_BOFF_AT n)) / grainsMs)
    let s := ((s.set (CN_ERRCNT_TEC n) 0).set (CN_ERRCNT_REC n) 0).set (CN_ERRCNT_RXPASS n) 0
    let s := ((s.set (CN_STATUS_STATE n) 1).set (CN_STATUS_WARN n) 0).set (CN_STATUS_RECOVERING n) 0
    let s := s.setIf (s.get (CN_REQSTAT_OUTCOME n) == 1) (CN_REQSTAT_OUTCOME n) 2
    let s := s.settle 0x33 (fun d => d.p0 == n) stSuccess 0
    (s.raise (CN_EVT_RECOVERED n) (CN_EVCNT_OTHER_CNT n)).ev 0x6004 n ms (s.get (CN_CTL_RECOV n)) (s.canPending n).length

/-- CN_REQ.RECOVER (R284). -/
def execRecover (n : Nat) (s : State) : Host.Outcome State Fault Refusal :=
  occurs (decide (n < 4)) s fun s => s.canRecover n

/-- CN_OBJCLR.GO (R285). -/
def execObjectClear (n k : Nat) (s : State) : Host.Outcome State Fault Refusal :=
  occurs (decide (n < 4) && decide (k < 128)) s fun s => (s.set (CN_OBJCLR_OBJ n) k).objClear n k 0

end Sys2Proof.Machine
end

