-- ==== Sys2Proof/Machine/Debug.lean ====
section
/-! DEFINITION. Halting, stepping and continuing a task in HOLD, and the comparison of halt states (R131 to R133). -/

namespace Sys2Proof.Machine
open Reg Hid

/-- A debug register write acts: in HOLD, with an unlock of the HOLD scope (R131). -/
def State.debugs (s : State) : Bool := s.prog == .hold && s.unlocked 0 && !s.safe

/-- The state that a lane reports at a halt (R132). -/
structure HaltState where
  pc : Nat
  ba : Bool
  wa : Word
  wb : Word
  flags : Bool × Bool × Bool
  depths : Nat × Nat
  deriving DecidableEq, Repr

/-- A lane's report of its context (R132). -/
def Ctx.report (c : Ctx) : HaltState :=
  { pc := c.pc, ba := c.ba, wa := c.wa, wb := c.wb, flags := (c.cy, c.ov, c.dz), depths := (c.nest.length, c.call.length) }

/-- The lanes shown as halted in agreement, LA in bit 0. -/
def State.haltLanes (s : State) (t : Nat) : Nat := laneMask fun l => s.on (DBG_HALT_LANES t l.idx)

/-- Shows the lanes halted in agreement. -/
def State.setHaltLanes (s : State) (t mask : Nat) : State :=
  s.each Lane.all fun s l => s.put (DBG_HALT_LANES t l.idx) (mask.testBit l.idx)

/-- A lane halted in the task. -/
def State.haltedIn (s : State) (l : Lane) (t : Nat) : Bool := (s.ctx l t).phase == .halted

/-- Clears a task's halt once no lane is halted in it. -/
def State.haltSettle (s : State) (t : Nat) : State :=
  if Lane.all.any fun l => s.haltedIn l t then s else ((s.set (DBG_TSTAT_HALTED t) 0).set (DBG_HALT_HALTED t) 0).paceNote

/-- One instruction of a halted task on one lane: it takes the lane from the task that runs there, executes the word at
PC and halts again, unless its scan has ended (R133). -/
def State.stepLane (s : State) (l : Lane) (t : Nat) : State :=
  let s := match s.running l with
    | some r => s.setCtx l r { s.ctx l r with phase := .preempted }
    | none => s
  let c := s.ctx l t
  let c := if c.passed then c else c.pass (s.bpsAt t c.pc)
  let s := (s.setCtx l t { c with phase := .running }).stepWord l
  if (s.ctx l t).phase = .running then s.haltLane l t (s.ctx l t) 9 else s.resume l

/-- One instruction in every lane of a halted task, and the halt states are reported again (R133). -/
def State.dbgStep (s : State) (t : Nat) : State :=
  if s.debugs && s.halted t then
    let s := s.debugRequest
    let s := s.each ((s.lanesOf t).filter fun l => s.haltedIn l t) fun s l => s.stepLane l t
    (s.setHaltLanes t 0).haltSettle t
  else s

/-- DBG_TCTL.STEP: exactly one instruction in every lane of the task (R133). -/
def execStep (t : Nat) (s : State) : Host.Outcome State Fault Refusal := occurs (decide (t < 16)) s fun s => s.dbgStep t

/-- The task takes up its scan again on every lane and runs on to its next breakpoint or the end of the scan (R133,
log 12). -/
def State.dbgCont (s : State) (t : Nat) : State :=
  if s.debugs && s.halted t then
    let s := s.debugRequest
    let s := s.each ((s.lanesOf t).filter fun l => s.haltedIn l t) fun s l =>
      (s.setCtx l t { s.ctx l t with phase := .preempted }).resume l
    ((s.setHaltLanes t 0).set (LATE_AT t) 0).haltSettle t
  else s

/-- DBG_TCTL.CONT (R133). -/
def execCont (t : Nat) (s : State) : Host.Outcome State Fault Refusal := occurs (decide (t < 16)) s fun s => s.dbgCont t

/-- Every lane inside the task's scan halts before its next instruction; with no scan in progress the next one halts
before its first instruction (R132). -/
def State.dbgHaltreq (s : State) (t : Nat) : State :=
  if s.debugs && !s.halted t then
    let s := s.debugRequest
    let ls := (s.lanesOf t).filter fun l => s.inScan l t
    if ls.isEmpty then s.set (HREQ t) 1
    else (s.each ls fun s l => s.haltLane l t (s.ctx l t) 8).setHaltLanes t 0
  else s

/-- DBG_TCTL.HALTREQ (R132). -/
def execHaltreq (t : Nat) (s : State) : Host.Outcome State Fault Refusal :=
  occurs (decide (t < 16)) s fun s => s.dbgHaltreq t

/-- The halt as the registers show it, from a lane's state (R132, R145). -/
def State.showHalt (s : State) (t mask : Nat) (c : Ctx) : State :=
  let why := s.get (HALT_WHY t)
  let s := ((s.set (DBG_HALT_PC t) c.pc).set (DBG_HALT_HALTED t) 1).put (DBG_HALT_BP_HIT t) (decide (why < 8))
  let s := (s.set (DBG_HALT_BP t) (if why < 8 then why else 0)).setHaltLanes t mask
  let s := (s.set (DBG_HWA_WA t) c.wa.toNat).set (DBG_HWB_WB t) c.wb.toNat
  let s := ((s.put (DBG_HFLAGS_BA t) c.ba).put (DBG_HFLAGS_CY t) c.cy).put (DBG_HFLAGS_OV t) c.ov
  let s := ((s.put (DBG_HFLAGS_DZ t) c.dz).set (DBG_HFLAGS_NEST t) c.nest.length).set (DBG_HFLAGS_CALL t) c.call.length
  s.ev 0x2020 0 c.pc t why

/-- A lane whose halt state differs from the two that agree: lane dissent (R132). -/
def State.haltDissent (s : State) (t : Nat) (l : Lane) : State :=
  let s := (s.raise DBG_EVT_HOLD_DISSENT DBG_EVCNT_FAULT_CNT).ev 0x2021 0 (s.ctx l t).pc t (2 ^ l.idx)
  s.trigger l 1 t

/-- A lane reports its halt state. Two that agree define the halt; a third that differs is lane dissent, and a third
still to come has the late window, after two that agree and after two that do not (R132, log 95). -/
def execHaltReport (t : Nat) (l : Lane) (s : State) : Host.Outcome State Fault Refusal :=
  occurs (decide (t < 16) && s.halted t && s.haltedIn l t && !s.on (HALT_REP t l.idx) && !s.safe) s fun s =>
    let s := s.lateDue t
    if !s.inVote l && s.isTriple t then s else
    let c := s.ctx l t
    let same := fun (m : Lane) => decide ((s.ctx m t).report = c.report)
    let before := (s.voters t).filter fun m => s.on (HALT_REP t m.idx) && s.haltedIn m t
    let defined := s.haltLanes t != 0
    let s := s.set (HALT_REP t l.idx) 1
    if !s.isTriple t then s.showHalt t (2 ^ l.idx) c
    else if defined then
      let s := s.set (LATE_AT t) 0
      if (before.any fun m => (s.haltLanes t).testBit m.idx && same m) then
        s.set (DBG_HALT_LANES t l.idx) 1
      else s.haltDissent t l
    else match before.find? same with
      | some m =>
        let s := s.showHalt t (2 ^ l.idx + 2 ^ m.idx) c
        let odd := before.filter fun m => !same m
        if odd.isEmpty then
          if before.length + 1 < (s.voters t).length then s.set (LATE_AT t) (s.lateClose t) else s
        else (s.set (LATE_AT t) 0).each odd fun s m => s.haltDissent t m
      | none =>
        if before.length + 1 < (s.voters t).length then
          if before.isEmpty then s else s.set (LATE_AT t) (s.lateClose t)
        else (s.set (LATE_AT t) 0).haltNoMajority t l (laneMask fun m => (s.voters t).contains m)

/-- A write to a register of the per-task DBG block, at its offset from 0x5000: breakpoints, and the actions of DBG_TCTL;
nothing without an unlock of the HOLD scope (R131, R145). -/
def State.dbgTaskWrite (s : State) (off v : Nat) : State :=
  let t := (off - 0x100) / 0x40
  let o := (off - 0x100) % 0x40
  if o < 0x20 then if s.unlocked 0 then (s.regStore (0x5000 + off) v).debugRequest else s
  else if o = 0x30 then
    let s := if v.testBit 0 then s.dbgStep t else s
    let s := if v.testBit 1 then s.dbgCont t else s
    if v.testBit 2 then s.dbgHaltreq t else s
  else s

end Sys2Proof.Machine
end

