-- ==== Sys2Proof/Machine/Host.lean ====
section
/-! DEFINITION. The rings themselves: polling, accepting descriptors, posting completions, MSI-X, the shadow page, and
enabling rings (R289 to R311). -/

namespace Sys2Proof.Machine
open Reg Hid

/-! ### Polling (R293, R295, R310) -/

/-- A poll found a submission ring's tail word (R293, R310). -/
def State.takeTail (s : State) (r : Nat) (w : Word) : State :=
  if !s.sqLive r then s
  else if s.sqSize r ≤ w.toNat then s.sqFault r 1 else s.set (SQ_TAIL r) w.toNat

/-- The completions that wait for room in a completion ring: finished descriptors bound to it. -/
def State.cqWaiting (s : State) (c : Nat) : List Desc :=
  s.descs.filter fun d => s.get (HIF_SQ_CFG_CQ d.ring) == c && match d.st with | .done _ _ => true | _ => false

/-- A completion ring is full: (tail + 1) mod size equals head (R294). -/
def State.cqFull (s : State) (c : Nat) : Bool :=
  (s.get (HIF_CQ_STAT_TAIL c) + 1) % s.cqSize c == s.get (CQ_HEAD c)

/-- A poll found a completion ring's head word (R293, R308, R310). -/
def State.takeHead (s : State) (c : Nat) (w : Word) : State :=
  if !s.on (HIF_CQ_CFG_EN c) || s.on (HIF_CQ_STAT_FAULT c) then s
  else if s.cqSize c ≤ w.toNat then s.cqFault c 0
  else
    let s := s.set (CQ_HEAD c) w.toNat
    s.setIf (!s.cqFull c) (HIF_CQ_STAT_FULL c) 0

/-- A poll of the doorbell page failed; the sixteenth in a row faults every submission ring (R310). -/
def State.pollFailed (s : State) : State :=
  let n := satAdd 5 (s.get DB_FAILS) 1
  let s := (((s.set DB_FAILS n).raise HIF_EVT_DBFAIL HIF_EVCNT_FAULT_CNT)).faultMsg
  if n = 16 then
    let s := s.each ((upto 16).filter s.sqLive) fun s r => s.sqMark r 2
    (s.ev 0x7006 0 n).faultMsg
  else s

/-- The bridge reads the doorbell page: the sixteen tails, then the sixteen heads; none where the read failed (R293, R295,
R310). -/
def execDoorbellPoll (page : Option (List Word)) (s : State) : Host.Outcome State Fault Refusal :=
  occurs s.hifOn s fun s =>
    let s := s.elapseTo (s.get POLL_AT)
    let gap := if s.now < s.get BURST_END then grainsUs else s.get HIF_POLL_INTERVAL * grainsUs
    let s := s.set POLL_AT (s.now + gap)
    match page with
    | none => s.pollFailed
    | some ws =>
      let s := s.set DB_FAILS 0
      let s := s.each (upto 16) fun s r => s.takeTail r (ws.getD r 0)
      s.each (upto 16) fun s c => s.takeHead c (ws.getD (16 + c) 0)

/-! ### Descriptors (R298 to R301) -/

/-- What R301 says of an opcode's parameters and buffer: the largest P0, whether P1 and P2 are used, and the least and
the largest buffer length; 0 and 0 for none. -/
structure OpInfo where
  p0 : Nat
  p1 : Bool
  p2 : Bool
  min : Nat
  max : Nat
  deriving DecidableEq, Repr

/-- The largest buffer length. -/
def maxLen : Nat := 2 ^ 32 - 1

/-- The opcodes of R301; none for a reserved one. -/
def opInfo (op : Nat) : Option OpInfo :=
  match op with
  | 0x00 => some ⟨0, false, false, 0, 0⟩
  | 0x10 => some ⟨511, false, false, 1, maxLen⟩
  | 0x11 => some ⟨511, false, false, 0, 1472⟩
  | 0x20 => some ⟨1, false, false, 14, 1518⟩
  | 0x21 => some ⟨1, false, false, 1518, maxLen⟩
  | 0x30 => some ⟨511, false, false, 0, 64⟩
  | 0x31 => some ⟨511, false, false, 0, 0⟩
  | 0x32 => some ⟨511, false, false, 1, maxLen⟩
  | 0x33 => some ⟨3, false, false, 0, 0⟩
  | 0x34 => some ⟨511, false, false, 0, 0⟩
  | 0x40 => some ⟨15, false, false, 1, maxLen⟩
  | 0x50 => some ⟨1, true, false, 1, maxLen⟩
  | 0x51 => some ⟨0, false, false, 1, maxLen⟩
  | 0x60 => some ⟨31, false, false, 0, 0⟩
  | 0x61 => some ⟨maxLen, false, false, 1, 65536⟩
  | 0x62 | 0x63 | 0x64 | 0x65 => some ⟨0, false, false, 0, 0⟩
  | 0x68 => some ⟨0, false, false, 32, maxLen⟩
  | 0x69 | 0x70 | 0x75 => some ⟨0, false, false, 1, maxLen⟩
  | 0x71 => some ⟨0, false, false, 4631, 4631⟩
  | 0x72 => some ⟨0, false, false, 0, 0⟩
  | 0x73 => some ⟨255, false, false, 12, 12⟩
  | 0x74 => some ⟨256, false, false, 0, 0⟩
  | 0x76 => some ⟨0x4FF, true, false, 0, 0⟩
  | 0x78 => some ⟨7, false, false, 0, 0⟩
  | 0x79 => some ⟨31, false, false, 0, 0⟩
  | 0x7A => some ⟨63, false, false, 0, 0⟩
  | 0x7B => some ⟨65535, false, false, 0, 0⟩
  | 0x7C => some ⟨7, false, false, 0, 0⟩
  | 0x7D => some ⟨65535, true, true, 0, 0⟩
  | _ => none

/-- Reads a descriptor's fields from its 32 bytes (R300). -/
def descOf (r slot head : Nat) (b : List Byte) : Desc :=
  let w := fun (i n : Nat) => ofLe (slice b i n)
  { ring := r, slot := slot, head := head, op := w 0 1, fence := (w 1 1).testBit 0, wait := (w 1 1).testBit 1,
    cmd := w 2 2, p0 := w 4 4, p1 := w 20 4, p2 := w 24 4, buf := w 8 8, len := w 16 4, st := .queued }

/-- The status that the checks of a descriptor give, none when it may start (R300, R301, R304). -/
def Desc.check (d : Desc) (b : List Byte) : Option Nat :=
  if ofLe (slice b 28 4) ≠ crc32c (b.take 28) then some 1
  else match opInfo d.op with
    | none => some 2
    | some i =>
      if 4 ≤ (b.getD 1 0).toNat ∨ (d.wait = true ∧ d.op ≠ 0x30) ∨ i.p0 < d.p0 ∨ (i.p1 = false ∧ d.p1 ≠ 0) ∨
          (i.p2 = false ∧ d.p2 ≠ 0) ∨ (i.max = 0 ∧ (d.buf ≠ 0 ∨ d.len ≠ 0)) ∨ (d.op = 0x76 ∧ d.p0 < 0x100) then
        some stBadParam
      else if d.buf % 4 ≠ 0 ∨ d.len < i.min ∨ i.max < d.len then some stBadBuffer
      else none

/-- A submission ring from which a descriptor can be fetched now (R298, R308, R310). -/
def State.fetchable (s : State) (r : Nat) : Bool :=
  s.sqLive r && s.get (SQ_TAIL r) != s.get (HIF_SQ_STAT_HEAD r) && decide ((s.ringDescs r).length < 8) &&
    decide (s.descs.length < 64)

/-- The ring that round robin serves next (R298). -/
def State.nextRing (s : State) : Option Nat :=
  ((upto 16).map fun i => (s.get SQ_TURN + i) % 16).find? s.fetchable

/-- A descriptor of a ring is fetched, none where the host's memory did not answer, and checked; one that passes waits for
its turn to start. `shOk` says whether the shadow page takes the head (R294, R298, R300, R304, R310). -/
def execDescriptorAccepted (r : Nat) (bytes : Option (List Byte)) (shOk : Bool) (s : State) :
    Host.Outcome State Fault Refusal :=
  occurs (s.hifOn && s.nextRing == some r) s fun s =>
    match bytes with
    | none => s.sqFault r 2
    | some b =>
      if b.length ≠ 32 then s
      else
        let slot := s.get (HIF_SQ_STAT_HEAD r)
        let head := (slot + 1) % s.sqSize r
        let s := ((s.set (HIF_SQ_STAT_HEAD r) head).set SQ_TURN ((r + 1) % 16)).shadow shOk [(0x40 * r, head)]
        let d := descOf r slot head b
        let d := match d.check b with
          | some st => { d with st := .done st 0 }
          | none => d
        let s := State.showProg { s with descs := s.descs ++ [d] }
        if d.st = .done 1 0 then
          ((s.raise HIF_EVT_DESC_CRC HIF_EVCNT_DESC_CNT).ev 0x7007 0 r slot d.op).faultMsg
        else s

/-! ### Completions (R305 to R309) -/

/-- The 16 bytes of a completion (R305). -/
def complBytes (d : Desc) (status result phase : Nat) : List Byte :=
  let b := leBytes 2 d.cmd ++ leBytes 2 (d.ring + 16 * d.head) ++ leBytes 2 status ++ leBytes 1 d.op ++ leBytes 1 0 ++
    leBytes 4 result
  b ++ leBytes 2 (crc16 b) ++ leBytes 1 0 ++ leBytes 1 phase

/-- The bus address of a completion ring. -/
def State.cqBase (s : State) (c : Nat) : Nat := s.get (HIF_CQ_BASE_LO_ADDR c) * 4096 + s.get (HIF_CQ_BASE_HI_ADDR c) * 2 ^ 32

/-- A completion is written into its ring: the tail, the shadow page, the vector and the burst of polls follow (R294, R295,
R306, R307, R309). -/
def State.postTo (s : State) (c : Nat) (d : Desc) (status result : Nat) (shOk : Bool) : State :=
  let tail := s.get (HIF_CQ_STAT_TAIL c)
  let phase := s.get (HIF_CQ_STAT_PHASE c)
  let s := s.hostWrite (s.cqBase c + 16 * tail) (complBytes d status result phase)
  let s := State.showProg { s with descs := s.descs.filter fun x => !(x.ring == d.ring && x.slot == d.slot) }
  let tail' := (tail + 1) % s.cqSize c
  let phase' := if tail' = 0 then 1 - phase else phase
  let s := (s.set (HIF_CQ_STAT_TAIL c) tail').set (HIF_CQ_STAT_PHASE c) phase'
  let s := s.shadow shOk [(0x800 + 0x40 * c, tail' + 4096 * phase')]
  let s := if s.on (HIF_CQ_CFG_IEN c) then s.countVector (s.get (HIF_CQ_CFG_VEC c)) else s
  (s.set BURST_END (s.now + 50 * grainsUs)).set POLL_AT (min (s.get POLL_AT) (s.now + grainsUs))

/-- The completion of a finished descriptor is posted; a full ring keeps it waiting, a failed write faults the ring; `ok`
and `shOk` say whether the host's memory takes the completion and the shadow word (R306, R308, R310). -/
def execCompletionPost (r slot : Nat) (ok shOk : Bool) (s : State) : Host.Outcome State Fault Refusal :=
  let c := s.get (HIF_SQ_CFG_CQ r)
  occurs (!s.on PERST && s.on (HIF_CQ_CFG_EN c) && !s.on (HIF_CQ_STAT_FAULT c)) s fun s =>
    match (s.ringDescs r).find? fun d => d.slot == slot with
    | none => s
    | some d => match d.st with
      | .done status result =>
        if s.cqFull c then
          if s.on (HIF_CQ_STAT_FULL c) then s
          else ((s.set (HIF_CQ_STAT_FULL c) 1).raise HIF_EVT_CQFULL HIF_EVCNT_FAULT_CNT).ev 0x7009 0 c (s.cqWaiting c).length
        else if ok then s.postTo c d status result shOk
        else s.cqFault c 1
      | _ => s

/-- TIME µs have passed since the oldest completion not signalled on a vector was posted (R309). -/
def execMsixModerationTimeout (v : Nat) (s : State) : Host.Outcome State Fault Refusal :=
  occurs (decide (v < 32) && s.on (V_CNT v) && !s.on PERST) s fun s =>
    (s.elapseTo (s.get (V_AT v) + s.get (HIF_VMOD_TIME v) * grainsUs)).signal v

/-- A vector is unmasked: its pending message goes out (R309). -/
def execMsixUnmask (v : Nat) (s : State) : Host.Outcome State Fault Refusal :=
  occurs (decide (v < 32) && !s.on PERST) s fun s =>
    let s := s.set (MSIX_MASK v) 0
    if s.on (MSIX_PENDING v) then (s.set (MSIX_PENDING v) 0).inc (V_MSG v) else s

/-- Every 1 ms the shadow page's status words are written (R294). -/
def execShadowHeartbeat (ok : Bool) (s : State) : Host.Outcome State Fault Refusal :=
  occurs s.hifOn s fun s =>
    let s := s.elapseTo (s.get HEART_AT)
    let s := s.set HEART_AT (s.now + grainsMs)
    s.shadow ok [(0xF00, s.opTime % 2 ^ 32), (0xF04, s.regRead 0x5000), (0xF08, s.regRead 0x3000),
      (0xF0C, s.regRead 0xD028 + 65536 * s.regRead 0xD02C)]

/-! ### Enabling (R311) -/

/-- A refused write of a host-interface register (R311). -/
def State.cfgReject (s : State) (off : Nat) : State :=
  ((s.raise HIF_EVT_CFGREJ HIF_EVCNT_FAULT_CNT).ev 0x7008 0 off).faultMsg

/-- Shows whether the interface polls (R317). -/
def State.showRunning (s : State) : State := s.put HIF_STATUS_RUNNING s.hifOn

/-- HIF_CTL.EN is written (R311). -/
def State.hifEnable (s : State) (en : Bool) : State :=
  let was := s.on HIF_CTL_EN
  let s := s.put HIF_CTL_EN en
  let s := if en && !was then (s.set POLL_AT s.now).set HEART_AT (s.now + grainsMs) else s
  s.showRunning

/-- HIF_CTL.EN starts or stops polling and fetching (R311). -/
def execHostInterfaceEnable (en : Bool) (s : State) : Host.Outcome State Fault Refusal :=
  occurs (!s.on PERST) s fun s => s.hifEnable en

/-- HIF_SQ_CFG.EN of a ring is written: enabling needs its completion ring enabled and starts at head 0 (R310, R311). -/
def State.sqEnable (s : State) (r : Nat) (en : Bool) : State :=
  if !en then s.set (HIF_SQ_CFG_EN r) 0
  else if s.on (HIF_SQ_CFG_EN r) then s
  else if !s.on (HIF_CQ_CFG_EN (s.get (HIF_SQ_CFG_CQ r))) then s.cfgReject (0xD108 + 16 * r)
  else
    let s := ((s.set (HIF_SQ_CFG_EN r) 1).set (HIF_SQ_STAT_HEAD r) 0).set (SQ_TAIL r) 0
    ((s.set (HIF_SQ_STAT_FAULT r) 0).set (HIF_SQ_STAT_FCAUSE r) 0).set (HIF_SQFAULT_RINGS r) 0

/-- HIF_SQ_CFG.EN enables or disables a submission ring (R311). -/
def execSubmissionRingEnable (r : Nat) (en : Bool) (s : State) : Host.Outcome State Fault Refusal :=
  occurs (decide (r < 16) && !s.on PERST) s fun s => s.sqEnable r en

/-- HIF_CQ_CFG.EN of a ring is written: enabling starts at tail 0 with phase 1; an enabled submission ring that names it
keeps it enabled (R310, R311). -/
def State.cqEnable (s : State) (c : Nat) (en : Bool) : State :=
  if !en then
    if (s.ringsOf c).any fun r => s.on (HIF_SQ_CFG_EN r) then s.cfgReject (0xD208 + 16 * c) else s.set (HIF_CQ_CFG_EN c) 0
  else if s.on (HIF_CQ_CFG_EN c) then s
  else
    let s := ((s.set (HIF_CQ_CFG_EN c) 1).set (HIF_CQ_STAT_TAIL c) 0).set (HIF_CQ_STAT_PHASE c) 1
    (((s.set (CQ_HEAD c) 0).set (HIF_CQ_STAT_FAULT c) 0).set (HIF_CQ_STAT_FULL c) 0).set (HIF_CQFAULT_RINGS c) 0

/-- HIF_CQ_CFG.EN enables or disables a completion ring (R311). -/
def execCompletionRingEnable (c : Nat) (en : Bool) (s : State) : Host.Outcome State Fault Refusal :=
  occurs (decide (c < 16) && !s.on PERST) s fun s => s.cqEnable c en

/-- The PCIe link comes up at a speed and width, or goes down (R317, R320). -/
def execPcieLinkChange (speed width : Nat) (s : State) : Host.Outcome State Fault Refusal :=
  occurs (decide (speed < 4) && decide (width < 3) && (decide (speed = 0) == decide (width = 0)) &&
      (speed != s.get HIF_STATUS_SPEED || width != s.get HIF_STATUS_WIDTH)) s fun s =>
    let was := s.on HIF_STATUS_SPEED
    let s := (s.set HIF_STATUS_SPEED speed).set HIF_STATUS_WIDTH width
    if speed = 0 then s.ev 0x7002 0 (min (2 ^ 32 - 1) ((s.now - s.get PCIE_AT) / grainsMs))
    else ((s.setIf (!was) PCIE_AT s.now).set PCIE_WAKE 0).ev 0x7001 0 (speed + 4 * width)

/-- A configuration write moves the function between D0 and D3hot, which pauses the host interface (R289). -/
def execD3hot (d3 : Bool) (s : State) : Host.Outcome State Fault Refusal :=
  occurs (!s.on PERST) s fun s => (s.put D3 d3).showRunning

end Sys2Proof.Machine
end

