-- ==== Sys2Proof/Machine/Modes.lean ====
section
/-! DEFINITION. TRIPLE and SINGLE at run time: mode requests, the state copy and the hand-over (R108 to R110). -/

namespace Sys2Proof.Machine
open Reg Hid

/-- Why a mode request is refused, 0 for none, in the order of the table (R108). A task that is not enabled counts as
stopped (log 8). -/
def State.modeRefusal (s : State) (t mode : Nat) : Nat :=
  let cur := s.get (TSK_STATE_MODE t)
  let lanes : List Lane := match Lane.ofCode mode with
    | some m => [m]
    | none => match Lane.ofCode cur with
      | some l => l.others
      | none => []
  if s.isSafety t then 1
  else if lanes.any fun l => s.lane l != .vote then 2
  else if s.tripped t || s.stopped t || s.prog == .hold || !s.enabled t then 3
  else if s.on MODE_PEND then 4
  else if mode = cur then 5
  else 0

/-- Refuses the request with a reason (R108). -/
def State.modeRefuse (s : State) (t mode reason : Nat) : State :=
  ((s.set LN_MODESTAT_OUTCOME 3).set LN_MODESTAT_REASON reason).ev 0x1041 0 reason t mode

/-- A mode request, from LN_MODEREQ or the host ring (R108). -/
def State.modeRequest (s : State) (t mode : Nat) : State :=
  let s := (s.set LN_MODEREQ_TASK t).set LN_MODEREQ_MODE mode
  let s := ((s.set LN_MODESTAT_TASK t).set LN_MODESTAT_MODE mode).set LN_MODESTAT_REASON 0
  let r := s.modeRefusal t mode
  if r = 0 then
    let s := ((s.set LN_MODESTAT_OUTCOME 1).set MODE_PEND 1).set MODE_PT t
    (((s.set MODE_PM mode).set MODE_AT s.now).set MODE_COPY 0).set MODE_TRY 0
  else s.modeRefuse t mode r

/-- LN_MODEREQ.GO (R108). -/
def execModeRequest (t mode : Nat) (s : State) : Host.Outcome State Fault Refusal :=
  occurs (decide (t < 16) && decide (mode < 4)) s fun s => s.modeRequest t mode

/-- Whether a pending request needs the state copied before its hand-over: from a SINGLE task (R110). -/
def State.modeNeedsCopy (s : State) : Bool := !s.isTriple (s.get MODE_PT)

/-- The channels whose output a task commands or whose entry it reads. -/
def State.channelsOf (s : State) (t : Nat) : List Nat :=
  (upto 64).filter fun c => (s.on (FC_QBIND_EN c) && s.get (FC_QBIND_TASK c) == t)

/-- The pending request takes effect at the action instant of the task in free grain `at_`: at least 8 µs after its acceptance,
and with the state copy found complete at A − 8 µs (R108, R110). -/
def State.handsOver (s : State) (t at_ : Nat) : Bool :=
  s.on MODE_PEND && s.get MODE_PT == t && decide (s.get MODE_AT + 8 * grainsUs ≤ at_) &&
    (!s.modeNeedsCopy || s.get MODE_COPY == 3) && !s.safe

/-- The hand-over: the cells of the task's channels change mode, the task runs in its new mode, and a scan that lanes other than
its new ones have not finished ends; a task that becomes TRIPLE begins the probation of R110 (R108 to R110). -/
def State.handOver (s : State) (t : Nat) : State :=
  let m := s.get MODE_PM
  let s := s.each (s.channelsOf t) fun s c => if s.on (FC_CFG_SAFETY c) then s else s.set (BAL_FOLLOW c) m
  let s := ((s.set (TSK_STATE_MODE t) m).set (TASK_LANE t) 0).set (MODE_PROB t) (if m = 0 then 1 else 0)
  let s := match Lane.ofCode m with
    | some l => s.each l.others fun s k => s.dropScan k t
    | none => s
  let s := ((s.set MODE_PEND 0).set MODE_COPY 0).set LN_MODESTAT_OUTCOME 2
  let s := s.settle 0x7A (fun _ => true) stSuccess 0
  (s.ev 0x1040 0 s.furlong t m).paceNote

/-- An action instant at which a pending request is due begins with the hand-over (R108). -/
def State.handOverDue (s : State) (t : Nat) : State := if s.handsOver t s.now then s.handOver t else s

/-- The hand-over instant of the pending request: the task's next action instant, where the request is due at it (R108 to R110). -/
def execModeHandOver (t : Nat) (s : State) : Host.Outcome State Fault Refusal :=
  let a := s.instantFrom t (s.get (A_FROM t))
  occurs (decide (t < 16) && s.enabled t && s.handsOver t (s.now + (a - s.netTime))) s fun s => (s.elapseNet a).handOver t

/-- The state copy of a task that leaves a lane completes: every other lane that will run it holds the lane's window,
output slice and instances (R110). -/
def execStateCopyComplete (t : Nat) (s : State) : Host.Outcome State Fault Refusal :=
  occurs (s.on MODE_PEND && s.get MODE_PT == t && s.get MODE_COPY == 1 && !s.safe) s fun s =>
    match s.singleLane t with
    | none => s
    | some l => (s.each l.others fun s m => s.seedTask l m t).set MODE_COPY 2

end Sys2Proof.Machine
end

