-- ==== Sys2Proof/Machine/NetPort.lean ====
section
/-! DEFINITION. PHY polling, MDIO access and the link delay measurement (R203, R231, R235 to R237). -/

namespace Sys2Proof.Machine
open Reg Hid

/-- A poll of a port's PHY gives its link status, or no answer; the SGMII control word gives speed and duplex. A poll
waits for a host access to finish (R202, R203). -/
def execPhyPoll (p : Nat) (answer : Option (BitVec 16)) (full1000 : Bool) (s : State) :
    Host.Outcome State Fault Refusal :=
  occurs (decide (p < 4) && s.on PHYRST && s.on (TN_CFG_EN (p / 2)) && s.get TN_MDIOSTAT_OUTCOME != 1) s fun s =>
    let link := match answer with
      | some v => v.getLsbD 2
      | none => false
    let was := s.portUp p
    let s := ((s.put (PHY_LINK p) link).put (PHY_SPEED p) full1000).put (TN_PORT_LINK p) (link && full1000)
    s.portChange p was (if answer.isNone then 3 else if !link then 0 else 2)

/-- A write of TN_MDIOCMD with GO: its read-write fields are stored (R14), and an access with their values starts, unless one is
pending, which keeps the values it started with (R203, R231, log 13). -/
def State.mdio (s : State) (phy reg data write : Nat) : State :=
  let s := ((s.set TN_MDIOCMD_DATA data).set TN_MDIOCMD_REG reg).set TN_MDIOCMD_PHY phy
  let s := s.set TN_MDIOCMD_WRITE write
  if s.get TN_MDIOSTAT_OUTCOME = 1 then s else (s.set MDIO_WRITE write).set TN_MDIOSTAT_OUTCOME 1

/-- A host read of a PHY register starts (R203, R231). -/
def execMdioRead (phy reg : Nat) (s : State) : Host.Outcome State Fault Refusal :=
  occurs true s fun s => s.mdio phy reg (s.get TN_MDIOCMD_DATA) 0

/-- A host write of a PHY register starts (R203, R231). -/
def execMdioWrite (phy reg : Nat) (v : BitVec 16) (s : State) : Host.Outcome State Fault Refusal :=
  occurs true s fun s => s.mdio phy reg v.toNat 1

/-- The access ends: done, with the data of a read, or without a response (R231). -/
def execMdioAccessDone (answer : Option (BitVec 16)) (s : State) : Host.Outcome State Fault Refusal :=
  occurs (s.get TN_MDIOSTAT_OUTCOME == 1) s fun s =>
    match answer with
    | some v => (if s.on MDIO_WRITE then s else s.set TN_MDIOSTAT_DATA v.toNat).set TN_MDIOSTAT_OUTCOME 2
    | none => s.set TN_MDIOSTAT_OUTCOME 3

/-- A payload of 14 bytes with its CRC-16 (R237, R249, R261). -/
def sealed (bs : List Byte) : List Byte := bs ++ beBytes 2 (crc16 bs)

/-- Sixteen payload bytes with a correct CRC-16. -/
def sealOk (bs : List Byte) : Bool := bs.length == 16 && ofBe (slice bs 14 2) == crc16 (bs.take 14)

/-- A DELAY frame: subtype 1 request, 2 response (R237). -/
def State.delayFrame (s : State) (p sub num t2 t3 : Nat) : NetFrame :=
  s.frame (s.header 1 (p / 2) 0 false false 0 0x3FF 0 16 ++
    sealed (beBytes 1 sub ++ beBytes 1 num ++ beBytes 4 t2 ++ beBytes 4 t3 ++ beBytes 2 0 ++ beBytes 2 (s.get TN_SCHEDID_ID)))

/-- A valid DELAY frame of a subtype. -/
def State.delayValid (s : State) (fr : NetFrame) (sub : Nat) : Bool :=
  fr.fcsOk && fr.etype == s.get TN_CFG_ETYPE && (frHdr fr).crcOk && (frHdr fr).ver == 1 && (frHdr fr).kind == 1 &&
    (frHdr fr).plen == 16 && (frPayload fr).getD 0 0 == BitVec.ofNat 8 sub

/-- A DELAY request leaves, every 16 µs while the measurement runs; after 64 without 16 valid exchanges it has
failed (R235). -/
def execSendDelayRequest (p : Nat) (s : State) : Host.Outcome State Fault Refusal :=
  occurs (decide (p < 4) && s.portUp p && s.on (DLY_ON p)) s fun s =>
    let s := s.elapseTo (s.get (DLY_AT p))
    let n := s.get (DLY_REQ p)
    if 64 ≤ n then
      let s := (s.raise TN_TEVT_DLYFAIL TN_TEVCNT_OTHER_CNT).ev 0x5802 0 p n
      ((s.set (DLY_ON p) 0).set (DLY_T1 p) 0).set (DLY_AT p) (s.now + 100 * grainsMs)
    else
      let s := ((s.set (DLY_REQ p) (n + 1)).set (DLY_T1 p) (s.now + 1)).set (DLY_AT p) (s.now + 16 * grainsUs)
      s.transmit p (s.delayFrame p 1 n 0 0)

/-- A partner's DELAY request is answered with t2 and t3 (R235, R237). -/
def execDelayRequest (p : Nat) (fr : NetFrame) (sfd : Nat) (s : State) : Host.Outcome State Fault Refusal :=
  occurs (decide (p < 4) && s.portUp p && s.delayValid fr 1 && sealOk (frPayload fr)) s fun s =>
    s.transmit p (s.delayFrame p 2 ((frPayload fr).getD 1 0).toNat (sfd % 2 ^ 32) (s.now % 2 ^ 32))

/-- Insertion into a list in rising order. -/
def insertI (x : Int) : List Int → List Int
  | [] => [x]
  | y :: r => if x ≤ y then x :: y :: r else y :: insertI x r

/-- A list in rising order. -/
def sortI (l : List Int) : List Int := l.foldr insertI []

/-- The link delay: the median of the sixteen exchange values rounded half up, plus the adjustment. The values are held
doubled, so the two middle ones add up to four times the median (R236). -/
def State.linkDelay (s : State) (p : Nat) : Int :=
  let xs := sortI ((upto 16).map fun n => signed 40 (s.get (DLY_X p n)))
  (xs.getD 7 0 + xs.getD 8 0 + 2) / 4 + signed 8 (s.get (TN_DLYADJ_P p))

/-- The measurement is complete: the port comes into use, or its delay is too long (R202, R236). -/
def State.delayDone (s : State) (p : Nat) : State :=
  let d := (s.linkDelay p).toNat
  let s := (s.set (DLY_ON p) 0).set (TN_DELAY_P p) (min d 254)
  let ok := s.portFits p d
  let s := s.judgePort p d
  if ok then
    let s := s.ev 0x5801 0 p d (s.get (DLY_N p))
    if s.listens && !s.on LISTEN_AT then s.listenTimer else s
  else s.portLong p d

/-- A DELAY response closes an exchange. A wrong payload CRC or a foreign schedule ID is event 0x580B, and the latter
keeps the port out of use (R235 to R237). -/
def execDelayResponse (p : Nat) (fr : NetFrame) (sfd : Nat) (s : State) : Host.Outcome State Fault Refusal :=
  occurs (decide (p < 4) && s.portUp p && s.on (DLY_ON p) && s.on (DLY_T1 p) && s.delayValid fr 2) s fun s =>
    let pl := frPayload fr
    let bad := fun (s : State) (field : Nat) =>
      (s.raise TN_TEVT_PAYLOAD TN_TEVCNT_OTHER_CNT).ev 0x580B 0 (frHdr fr).sender field p
    let t1 := s.get (DLY_T1 p) - 1
    if !sealOk pl then bad s 0
    else if ofBe (slice pl 12 2) ≠ s.get TN_SCHEDID_ID then ((bad s 1).set (DLY_ON p) 0).set (PORT_BADID p) 1
    else if (pl.getD 1 0).toNat + 1 ≠ s.get (DLY_REQ p) ∨ t1 + 16 * grainsUs < sfd then s
    else
      let back := unsigned 32 ((ofBe (slice pl 6 4) : Int) - ofBe (slice pl 2 4))
      let n := s.get (DLY_N p)
      let s := s.set (DLY_X p n) (unsigned 40 ((sfd : Int) - t1 - back))
      let s := (s.set (DLY_N p) (n + 1)).set (DLY_T1 p) 0
      if n + 1 = 16 then s.delayDone p else s

/-- A failed measurement starts again after 100 ms (R235). -/
def execDelayMeasurementRetry (p : Nat) (s : State) : Host.Outcome State Fault Refusal :=
  occurs (decide (p < 4) && s.portUp p && !s.on (DLY_ON p) && !s.used p && s.on (DLY_AT p) && s.get (DLY_REQ p) == 64) s
    fun s =>
      let s := s.elapseTo (s.get (DLY_AT p))
      ((s.set (DLY_ON p) 1).set (DLY_REQ p) 0).set (DLY_N p) 0

end Sys2Proof.Machine
end

