-- ==== Sys2Proof/Machine/NetSend.lean ====
section
/-! DEFINITION. Sending and forwarding on the timed network: SEND, SYNC, STATUS and OPEN rods, cut-through forwarding
(R205, R206, R210, R216, R220, R221, R229, R238, R239, R245). -/

namespace Sys2Proof.Machine
open Reg Hid

/-- The network time at which a position in the furlong comes next: in this furlong until its transmit window has
passed or where it began before the last step of network time, then in the next (R245, R260). -/
def State.nextStart (s : State) (pos : Nat) : Nat :=
  let base := s.furlong * s.furlongGrains
  if s.netTime ≤ base + pos + s.get TN_WIN_GUARD ∧ s.get STEP_NET ≤ base + pos then base + pos else base + s.furlongGrains + pos

/-- Two lanes in the vote find the transmit window that opens at `due` open (R245). -/
def State.windowOpen (s : State) (due : Nat) : Bool :=
  decide (2 ≤ (Lane.all.filter fun l => s.inVote l && decide (due ≤ s.get (TNET l.idx)) &&
    decide (s.get (TNET l.idx) ≤ due + s.get TN_WIN_GUARD)).length)

/-- The ports of a channel on which an entry transmits and which are in use. -/
def State.txPorts (s : State) (ch : Nat) (r : Rod) : List Nat :=
  [2 * ch, 2 * ch + 1].filter fun p => r.tx p && s.used p

/-- Why a SEND rod is missed, as R221 codes it, none when it is not. -/
def State.missReason (s : State) (ch due : Nat) (r : Rod) : Option Nat :=
  let ctx := s.flow r.flow
  if !s.inSync then some 0
  else if !s.windowOpen due then some 1
  else if (s.txPorts ch r).isEmpty then some 2
  else if s.safe && ctx.safety && !(s.on TW_REL && s.get TW_NET_TXFLOW == r.flow) then some 3
  else if s.get (SND_RDY r.flow) = 0 then some 4 else none

/-- Which data a SEND rod carries: the newest that became ready at least 500 grains ago, or the one before it (R220). -/
def State.sendPick (s : State) (f : Nat) : Option Nat :=
  if s.on (SND_RDY f) && decide (s.get (SND_RDY f) + 499 ≤ s.now) then some 0
  else if s.on (SND_RDY2 f) then some 1 else none

/-- A flow's safety trailer: sequence, time and code, the code seeded with the SCID (R210). -/
def trailerOf (scid seq time : Nat) (hdr payload : List Byte) : List Byte :=
  let t := beBytes 4 seq ++ beBytes 4 time
  t ++ beBytes 4 (crc32cFrom scid (hdr.take 14 ++ payload ++ t))

/-- The frame of a flow that its buffer holds, with another channel field (R220). -/
def State.sameFrame (s : State) (f chan : Nat) : List Byte :=
  let ctx := s.flow f
  let h := s.bytes (flowBuf f + 0x7C0) 14
  let h := h.take 1 ++ beBytes 1 (64 * chan + s.get TN_CFG_NODE) ++ h.drop 2
  let h := h ++ beBytes 2 (crc16 h)
  let pl := s.bytes (flowBuf f) ctx.len
  h ++ pl ++ if ctx.safety then
      trailerOf ctx.scid (s.get (SND_SEQ f)) (ofBe (s.bytes (flowBuf f + 0x7D4) 4)) h pl else []

/-- The first rod of a flow in a furlong takes data `k`: its header, trailer and sequence go to the flow buffer (R219,
R220). -/
def State.takeData (s : State) (f i chan k : Nat) : State :=
  let ctx := s.flow f
  let fur := s.furlong
  let rf := signed 64 (s.get (if k = 0 then SND_RF f else SND_RF2 f))
  let sentF := if k = 0 then SND_SENT f else SND_SENT2 f
  let rep := s.on sentF && s.get sentF != fur + 1
  let age := (clampI 0 255 ((fur : Int) - rf)).toNat
  let seq := if ctx.safety then (if s.get (SND_SEQ f) = 2 ^ 32 - 1 then 1 else s.get (SND_SEQ f) + 1) else 0
  let pl := s.bytes (sendBuf f k) ctx.len
  let h := s.header 0 chan f rep ctx.safety fur i age ctx.len
  let t := if ctx.safety then trailerOf ctx.scid seq (unsigned 32 rf) h pl else List.replicate 12 0
  let s := (((s.setBytes (flowBuf f) pl).setBytes (flowBuf f + 0x7C0) h).setBytes (flowBuf f + 0x7D0) t)
  let s := ((s.set (FL_SAGE f) age).put (FL_REP f) rep).set (SND_SEQ f) seq
  let s := s.setIf (s.get sentF == 0) sentF (fur + 1)
  (s.set (SND_LASTF f) (fur + 1)).showFlow f

/-- Sends the frame that the flow's buffer holds on the ports of an entry. -/
def State.sendHeld (s : State) (ch : Nat) (r : Rod) : State :=
  let fr := s.frame (s.sameFrame r.flow (if r.paired then 2 else ch))
  s.each (s.txPorts ch r) fun s p => s.transmit p fr

/-- A missed rod: what it would have sent first leaves in the next rod with the repeat flag set (R221). -/
def State.missed (s : State) (f reason : Nat) : State :=
  let late := fun (s : State) (rdy sent : Fld) => s.setIf (s.on rdy && !s.on sent) sent (2 ^ 64 - 1)
  let s := match s.sendPick f with
    | some 0 => late s (SND_RDY f) (SND_SENT f)
    | some _ => late s (SND_RDY2 f) (SND_SENT2 f)
    | none => s
  ((s.inc (FL_MISS f)).raise TN_EVT_MISSED TN_EVCNT0_RX_CNT).ev 0x500A 0 f reason

/-- A SEND rod starts (R220, R221). An entry or context that fails its check is skipped (R216). -/
def execSendRod (ch i : Nat) (s : State) : Host.Outcome State Fault Refusal :=
  let r := s.rod s.bank ch i
  let k := rodKey s.bank ch i
  occurs (decide (ch < 2) && decide (i < 1024) && r.kind == 1 && s.on (TN_CFG_EN ch) && !s.on (ROD_SKIP k) &&
      !s.on (FCTX_SKIP r.flow)) s fun s =>
    let due := s.nextStart r.start
    let s := s.elapseNet due
    if !r.crcOk then s.checkFailure true i (2 * ch + s.bank) (ROD_FAILF k) (ROD_SKIP k)
    else if !s.ctxFit r.flow then s.ctxCheck r.flow ch
    else match s.missReason ch due r with
      | some why => s.missed r.flow why
      | none =>
        let ready := if s.get (SND_LASTF r.flow) = s.furlong + 1 then some s
          else (s.sendPick r.flow).map fun n => s.takeData r.flow i (if r.paired then 2 else ch) n
        match ready with
        | some x => (x.sendHeld ch r).setIf (s.on TW_REL && s.get TW_NET_TXFLOW == r.flow) TW_REL 0
        | none => s.missed r.flow 4

/-- The payload of this node's SYNC frame (R237). -/
def State.syncPayload (s : State) (start : Nat) : List Byte :=
  sealed (beBytes 2 0 ++ beBytes 4 start ++ beBytes 4 0 ++ beBytes 1 (s.get TN_SYNCCFG_COLD_CAP) ++
    beBytes 1 (s.get TN_SYNCST_NMEAS) ++ beBytes 2 (s.get TN_SCHEDID_ID))

/-- A SYNC rod of this node starts: in sync, or while its coldstart runs, there from grain 250 of furlong 0 on
(R238, R249). -/
def execSyncRodSend (ch i : Nat) (s : State) : Host.Outcome State Fault Refusal :=
  let r := s.rod s.bank ch i
  occurs (decide (ch < 2) && decide (i < 1024) && r.kind == 4 && r.sender == s.get TN_CFG_NODE && s.on TN_SYNCCFG_SYNC_CAP &&
      s.on (TN_CFG_EN ch) && !s.on (ROD_SKIP (rodKey s.bank ch i))) s fun s =>
    let due := s.nextStart r.start
    let s := s.elapseNet due
    if !r.crcOk then
      s.checkFailure true i (2 * ch + s.bank) (ROD_FAILF (rodKey s.bank ch i)) (ROD_SKIP (rodKey s.bank ch i))
    else if (s.inSync || (s.get TN_SYNCST_STATE == 2 && decide (250 ≤ due))) && s.windowOpen due then
      let fr := s.frame (s.header 1 (if r.paired then 2 else ch) 0 false false s.furlong i 0 16 ++ s.syncPayload r.start)
      s.each (s.txPorts ch r) fun s p => s.transmit p fr
    else s

/-- LN_STATUS bits 15 to 0 (R115). -/
def State.lnStatus (s : State) : Nat :=
  s.get (LN_STATUS_ST 0) + 16 * s.get (LN_STATUS_ST 1) + 256 * s.get (LN_STATUS_ST 2) + 4096 * s.get LN_STATUS_DUPLEX +
    8192 * s.get LN_STATUS_SAFE

/-- The payload of this node's STATUS frame (R208, log 14). -/
def State.statusPayload (s : State) : List Byte :=
  beBytes 2 s.lnStatus ++ beBytes 2 (s.get TN_SYNCST_STATE) ++
    beBytes 4 (s.get TN_BANK_ACTIVE + 2 * s.get TN_BANK_PENDING + 4 * s.get TN_BANK_TARGET) ++
    beBytes 4 (s.get TN_SWF_F_SW) ++ beBytes 4 0

/-- A STATUS rod of this node starts (R208, R212). -/
def execStatusRodSend (ch i : Nat) (s : State) : Host.Outcome State Fault Refusal :=
  let r := s.rod s.bank ch i
  occurs (decide (ch < 2) && decide (i < 1024) && r.kind == 6 && r.sender == s.get TN_CFG_NODE && s.on (TN_CFG_EN ch) &&
      !s.on (ROD_SKIP (rodKey s.bank ch i))) s fun s =>
    let due := s.nextStart r.start
    let s := s.elapseNet due
    if !r.crcOk then
      s.checkFailure true i (2 * ch + s.bank) (ROD_FAILF (rodKey s.bank ch i)) (ROD_SKIP (rodKey s.bank ch i))
    else if s.inSync && s.windowOpen due then
      let fr := s.frame (s.header 4 (if r.paired then 2 else ch) 0 false false s.furlong i 0 16 ++ s.statusPayload)
      s.each (s.txPorts ch r) fun s p => s.transmit p fr
    else s

/-! ### Open rods (R229) -/

/-- The wire time of an open frame in grains: its data field padded to 46 bytes, with 38 bytes around it (R211). -/
def openTime (f : NetFrame) : Nat := 2 * (38 + max 46 f.data.length)

/-- The ports on which an entry of the open queue leaves: a host frame (key: its channel) on every port of the rod in use, a
forwarded one (key: 2 and its port) on its own port (R229). -/
def State.openPorts (s : State) (ch : Nat) (r : Rod) (key : Nat) : List Nat :=
  (s.txPorts ch r).filter fun p => key == ch || key == 2 + p

/-- The frames of the open queue that leave in the OPEN rod of a channel that ends at `stop`, less ACCEPT: each in queue order,
after the frame before it, while its whole wire time ends in time; a frame that has to wait holds back those of its own key
behind it (`stuck`). The answer is the state and the frames that stay (R229). -/
def State.openSend (s : State) (ch : Nat) (r : Rod) (stop : Nat) : List Nat → List (Nat × NetFrame) → State × List (Nat × NetFrame)
  | _, [] => (s, [])
  | stuck, (k, f) :: q =>
    let ps := s.openPorts ch r k
    let t := ps.foldl (fun t p => max t (s.get (OPEN_END p))) s.netTime + openTime f
    if ps.isEmpty || stuck.contains k || decide (stop < t) then
      let x := State.openSend s ch r stop (k :: stuck) q
      (x.1, (k, f) :: x.2)
    else State.openSend (s.each ps fun s p => (s.set (OPEN_END p) t).transmit p f) ch r stop stuck q

/-- Shows how many host frames are queued on each channel. -/
def State.showOpen (s : State) : State :=
  s.each [0, 1] fun s ch => s.set (TN_OPENSTAT_TXQ ch) (min 255 (s.openTx.filter fun q => q.1 == ch).length)

/-- The OPEN rod of a channel that network time is in: its index and entry (R229). -/
def State.openRodNow (s : State) (ch : Nat) : Option (Nat × Rod) :=
  let pos := s.netTime - s.furlong * s.furlongGrains
  (s.rods s.bank ch).find? fun r => r.2.kind == 5 && !s.on (ROD_SKIP (rodKey s.bank ch r.1)) && decide (r.2.start ≤ pos) &&
    decide (pos < r.2.start + r.2.len) && decide (s.get STEP_NET ≤ s.furlong * s.furlongGrains + r.2.start)

/-- What the open queue can send now leaves: in an OPEN rod of an enabled channel, while IN SYNC (R229). -/
def State.openFlush (s : State) (ch : Nat) : State :=
  match s.openRodNow ch with
  | none => s.showOpen
  | some (i, r) =>
    if !s.on (TN_CFG_EN ch) || !s.inSync || s.openTx.isEmpty then s.showOpen
    else if !r.crcOk then
      (s.checkFailure true i (2 * ch + s.bank) (ROD_FAILF (rodKey s.bank ch i)) (ROD_SKIP (rodKey s.bank ch i))).showOpen
    else
      let x := s.openSend ch r (s.furlong * s.furlongGrains + r.start + r.len - s.get TN_WIN_ACCEPT) [] s.openTx
      State.showOpen { x.1 with openTx := x.2 }

/-- An OPEN rod starts: the queued frames leave in order while their whole wire time ends before the rod's end less
ACCEPT; the entry's check is made in any case (R216, R229). -/
def execOpenRod (ch i : Nat) (s : State) : Host.Outcome State Fault Refusal :=
  let r := s.rod s.bank ch i
  let k := rodKey s.bank ch i
  occurs (decide (ch < 2) && decide (i < 1024) && r.kind == 5 && s.on (TN_CFG_EN ch) && s.inSync && !s.on (ROD_SKIP k)) s fun s =>
    let s := s.elapseNet (s.nextStart r.start)
    if !r.crcOk then s.checkFailure true i (2 * ch + s.bank) (ROD_FAILF k) (ROD_SKIP k) else s.openFlush ch

/-! ### Forwarding (R205, R206, R239, R250) -/

/-- A frame as it leaves a forwarder: a SYNC payload carries one more hop and the offset measured here (R239). -/
def forwarded (fr : NetFrame) (sync : Bool) (o : Int) : NetFrame :=
  if sync then
    let pl := frPayload fr
    let body := pl.take 1 ++ beBytes 1 ((pl.getD 1 0).toNat + 1) ++ slice pl 2 4 ++
      beBytes 4 (unsigned 32 (signed 32 (ofBe (slice pl 6 4)) + o)) ++ slice pl 10 4
    { fr with data := fr.data.take 16 ++ sealed body ++ fr.data.drop 32 }
  else fr

/-- The synchronisation states in which a node forwards a rod of this kind: IN SYNC, or a SYNC rod from the furlong
after adoption on (R245, R254). -/
def State.mayForward (s : State) (kind : Nat) : Bool :=
  s.inSync || (s.get TN_SYNCST_STATE == 3 && kind == 4 && decide (s.get ADOPT_F < s.furlong))

/-- A frame that arrived inside its window and whose header matches leaves on the channel's other port at START + h ×
250; one whose header CRC or FCS turns out wrong leaves with its FCS inverted and is counted (R205, R206, R239). -/
def execForward (p : Nat) (fr : NetFrame) (sfd : Nat) (s : State) : Host.Outcome State Fault Refusal :=
  occurs (decide (p < 4) && s.used p && fr.etype == s.get TN_CFG_ETYPE) s fun s =>
    let h := frHdr fr
    let q := otherPort p
    match s.rodAt p (s.arrival sfd) (s.get TN_WIN_ACCEPT) fun r => r.tx q && r.kind != 5 with
    | none => s
    | some (i, r, o, f) =>
      let k := rodKey (s.bankAt f) (p / 2) i
      if !r.crcOk then s.checkFailure true i (2 * (p / 2) + s.bankAt f) (ROD_FAILF k) (ROD_SKIP k)
      else if (r.kind == 2 || r.kind == 3) && !s.ctxFit r.flow then s.ctxCheck r.flow (p / 2)
      else if !s.mayForward r.kind || !s.used q || (s.headerFault h r p f).isSome then s
      else
        let due := (f * s.furlongGrains).toNat + r.start + r.hop p * 250
        let s := s.elapseNet due
        if !s.windowOpen due then s
        else
          let s := if !h.crcOk then s.hdrCrcFailure p sfd i else if !fr.fcsOk then s.fcsFailure p sfd else s
          s.transmit q { forwarded fr (r.kind == 4) o with fcsOk := fr.fcsOk && h.crcOk }

end Sys2Proof.Machine
end

