-- ==== Sys2Proof/Machine/NetRecv.lean ====
section
/-! DEFINITION. Receiving on the timed network: data frames and their acceptance, SYNC measurement and adoption,
COLDSTART, STATUS and open frames, the end of a flow's last rod (R214, R222 to R225, R229, R240, R246, R248 to R254). -/

namespace Sys2Proof.Machine
open Reg Hid

/-! ### Data frames -/

/-- What a lane finds on a safety frame of a flow: nothing wrong, a duplicate, or the first check that fails with its
number 1 code, 2 sequence, 3 time or sender age (R223, R224). -/
inductive LaneCheck where
  | ok | duplicate | code | seq | delay
  deriving DecidableEq, Repr

/-- The sequence is next for the lane: 1, or 1 to 2³¹ − 1 ahead of the last accepted; any but 0 for the first (R223). -/
def State.seqOk (s : State) (l : Lane) (f seq : Nat) : Bool :=
  if s.get (FL_SEQE l.idx f) = s.get (LN_EPOCH l.idx) + 1 then
    let ahead := unsigned 32 ((seq : Int) - s.get (FL_SEQ l.idx f))
    seq == 1 || (decide (1 ≤ ahead) && decide (ahead ≤ 2 ^ 31 - 1))
  else seq != 0

/-- The age of the data of a safety frame in furlongs (R223). -/
def safetyAge (fr : NetFrame) (fur : Int) : Nat := unsigned 32 (fur - ofBe (slice (frTrailer fr) 4 4))

/-- A lane's check of a safety frame (R223). -/
def State.laneCheck (s : State) (l : Lane) (f : Nat) (fr : NetFrame) (fur : Int) : LaneCheck :=
  let ctx := s.flow f
  let t := frTrailer fr
  let seq := ofBe (slice t 0 4)
  if ofBe (slice t 8 4) ≠ crc32cFrom ctx.scid (fr.data.take 14 ++ frPayload fr ++ t.take 8) then .code
  else if s.get (FL_LACC l.idx f) = fur.toNat + 1 ∧ seq = s.get (FL_SEQ l.idx f) ∧
      s.get (FL_SEQE l.idx f) = s.get (LN_EPOCH l.idx) + 1 then .duplicate
  else if !s.seqOk l f seq then .seq
  else if ctx.freshLim < safetyAge fr fur ∨ ctx.freshLim < (frHdr fr).age then .delay
  else .ok

/-- A lane accepts a safety frame: its own held copy and the sequence (R81, R223). -/
def State.laneAccept (s : State) (f : Nat) (fr : NetFrame) (fur : Int) (l : Lane) : State :=
  let s := (s.zero (laneFlow l f) 0x800).setBytes (laneFlow l f) (frPayload fr)
  let s := (s.setBytes (laneFlow l f + 0x7C0) (fr.data.take 16)).setBytes (laneFlow l f + 0x7D0) (frTrailer fr)
  let s := (s.set (FL_SEQ l.idx f) (ofBe (slice (frTrailer fr) 0 4))).set (FL_SEQE l.idx f) (s.get (LN_EPOCH l.idx) + 1)
  s.set (FL_LACC l.idx f) (fur.toNat + 1)

/-- The source byte of a rejection: the lane that alone has seen it, else 0 (R232). -/
def maskSource (mask : Nat) : Nat := if mask = 1 then 1 else if mask = 2 then 2 else if mask = 4 then 3 else 0

/-- A frame of a flow is not accepted: the flag, the count and the event of the check that failed (R223, R232). -/
def State.rejectFlow (s : State) (f : Nat) (why : LaneCheck) (mask a b : Nat) : State :=
  let s := s.inc (FL_REJ f)
  match why with
  | .code => (s.raise TN_EVT_SAFECODE TN_EVCNT0_RX_CNT).ev 0x5003 (maskSource mask) f mask a
  | .seq => (s.raise TN_EVT_SEQ TN_EVCNT0_RX_CNT).ev 0x5004 (maskSource mask) f mask a
  | .delay => (s.raise TN_EVT_DELAY TN_EVCNT0_RX_CNT).ev 0x5005 (maskSource mask) f mask a b
  | _ => s

/-- A lane that checks frames: it is neither in assay nor retired (R223). -/
def State.checksFlows (s : State) (l : Lane) : Bool :=
  match s.lane l with
  | .assay | .retired => false
  | _ => true

/-- The check that failed in the majority of the lanes that reject, else in the first of them (R223). -/
def mainFailure (cs : List LaneCheck) : LaneCheck :=
  let bad := cs.filter fun c => c != .ok && c != .duplicate
  ((bad.find? fun c => decide (2 ≤ (bad.filter fun d => d == c).length)).or bad.head?).getD .ok

/-- The rejection of a safety frame that no two lanes accept, by the check that failed in the majority of the lanes (R223,
R232). -/
def State.rejectSafety (s : State) (f : Nat) (fr : NetFrame) (fur : Int) : State :=
  let check := fun (l : Lane) => s.laneCheck l f fr fur
  let lanes := Lane.all.filter s.inVote
  let why := mainFailure (lanes.map check)
  let mask := laneMask fun l => lanes.contains l && check l == why
  let seq := ofBe (slice (frTrailer fr) 0 4)
  let age := max (safetyAge fr fur) (frHdr fr).age
  match why with
  | .ok => s
  | .delay => s.rejectFlow f .delay mask (min 65535 age) (s.flow f).freshLim
  | .code => s.rejectFlow f .code mask (frHdr fr).sender 0
  | _ => s.rejectFlow f why mask (seq % 65536) 0

/-- A safety frame that passed R222: each lane checks it for itself; two lanes in the vote that accept it make it the flow's
held copy, and fewer are a rejection. After the first copy accepted in a furlong the others are duplicates (R81, R223,
R224). -/
def State.safetyFrame (s : State) (f : Nat) (fr : NetFrame) (fur : Int) : State :=
  let good := Lane.all.filter fun l => s.checksFlows l && s.laneCheck l f fr fur == .ok
  let accepted := decide (2 ≤ (good.filter s.inVote).length)
  if s.get (FL_ACC f) = fur.toNat + 1 then if good.isEmpty then s.rejectSafety f fr fur else s
  else if accepted then (s.each good (State.laneAccept · f fr fur)).holdCopy f fr fur
  else (s.rejectSafety f fr fur).each good (State.laneAccept · f fr fur)

/-- A non-safety frame that passed R222 (R223, R224). -/
def State.plainFrame (s : State) (f : Nat) (fr : NetFrame) (fur : Int) : State :=
  let age := (frHdr fr).age
  if (s.flow f).freshLim < age then s.rejectFlow f .delay (laneMask s.inVote) age (s.flow f).freshLim
  else if s.get (FL_ACC f) = fur.toNat + 1 then s
  else s.holdCopy f fr fur

/-- A scheduled frame in its rod while IN SYNC: the entry's and context's checks, then R222 (R216, R222). The result
is the state and whether the frame passed. -/
def State.rodFrame (s : State) (p sfd i : Nat) (r : Rod) (f : Int) (fr : NetFrame) : State × Bool :=
  let ch := p / 2
  let k := rodKey (s.bankAt f) ch i
  let h := frHdr fr
  let deliver := r.kind == 2 || r.kind == 3
  if !r.crcOk then (s.checkFailure true i (2 * ch + s.bankAt f) (ROD_FAILF k) (ROD_SKIP k), false)
  else if deliver && !s.ctxFit r.flow then (s.ctxCheck r.flow ch, false)
  else if !fr.fcsOk then (((if deliver then s.inc (FL_REJ r.flow) else s).fcsFailure p sfd), false)
  else if !h.crcOk then (((if deliver then s.inc (FL_REJ r.flow) else s).hdrCrcFailure p sfd i), false)
  else match s.headerFault h r p f with
    | some field => (s.headerMismatch h i r field, false)
    | none => (s.noteValid p, true)

/-- A frame that no rod's window took: counted early or late against the nearest rod of its sender (R246). -/
def State.noRod (s : State) (p sfd : Nat) (fr : NetFrame) (a : Int) : State :=
  if !fr.fcsOk then s.fcsFailure p sfd
  else if !(frHdr fr).crcOk then s
  else match s.nearest p a (frHdr fr).sender with
    | some (i, o) => s.outsideWindow p (frHdr fr).sender i o
    | none => s

/-- The network time at which a rod of furlong `f` ends for reception on a port: E_p + ACCEPT + t, where decisions about its
frame take effect (R214). -/
def State.frameEnd (s : State) (r : Rod) (p : Nat) (f : Int) : Nat :=
  let x := s.flow r.flow
  let t := if r.kind = 2 ∨ r.kind = 3 then wireTime x.len x.safety else wireTime 16 false
  (f * s.furlongGrains + s.expected r p + s.get TN_WIN_ACCEPT + t).toNat

/-- A scheduled frame with the configured EtherType that is no SYNC, COLDSTART, WAKE or STATUS frame (R222). -/
def State.dataFrame (s : State) (p : Nat) (fr : NetFrame) (sfd : Nat) : State :=
  let h := frHdr fr
  let bad := !fr.fcsOk || !h.crcOk
  if s.listens then if h.crcOk then s.heard else s
  else if s.get TN_SYNCST_STATE = 2 then if bad then s.collision p 0xFFFFFFFF 0 else s
  else if !s.inSync then s
  else
    match s.rodAt p (s.arrival sfd) (s.get TN_WIN_ACCEPT) fun r => r.kind != 5 with
    | none => s.noRod p sfd fr (s.arrival sfd)
    | some (i, r, _, f) =>
      let s := s.elapseNet (s.frameEnd r p f)
      let x := s.rodFrame p sfd i r f fr
      if x.2 && r.kind == 2 && r.rx p then
        let s := if (s.flow r.flow).safety then x.1.safetyFrame r.flow fr f else x.1.plainFrame r.flow fr f
        s.confirmCold h.sender
      else x.1

/-- A data frame arrives (R222, R223). -/
def execDataFrame (p : Nat) (fr : NetFrame) (sfd : Nat) (s : State) : Host.Outcome State Fault Refusal :=
  let h := frHdr fr
  occurs (decide (p < 4) && s.used p && fr.etype == s.get TN_CFG_ETYPE &&
      !(h.crcOk && (h.kind == 1 || h.kind == 2 || h.kind == 3 || h.kind == 4))) s fun s => s.dataFrame p fr sfd

/-- A SEND flow's or RECEIVE flow's rod end on a port, from the furlong start: E_p + ACCEPT + t (R214). -/
def State.rodEnd (s : State) (ch : Nat) (r : Rod) : Int :=
  let t := wireTime (s.flow r.flow).len (s.flow r.flow).safety
  let e := fun (p : Nat) => if r.rx p then s.expected r p + s.get TN_WIN_ACCEPT + t else 0
  max (e (2 * ch)) (e (2 * ch + 1))

/-- The end of the last rod of a flow in a furlong of a bank, of the enabled channels (R225). -/
def State.lastEnd (s : State) (bank f : Nat) : Int :=
  let ends := ([0, 1].filter fun ch => s.on (TN_CFG_EN ch)).flatMap fun ch =>
    ((s.rods bank ch).filter fun r => r.2.kind == 2 && r.2.flow == f).map fun r => s.rodEnd ch r.2
  ends.foldl max 0

/-- The furlong whose rod ends next: the one before this while an end that lies past its boundary is still to come
(R225, R230). -/
def State.endFurlong (s : State) (ch i : Nat) : Nat :=
  let r := s.rod (s.bankAt ((s.furlong : Int) - 1)) ch i
  if s.furlong ≠ 0 ∧ r.kind = 2 ∧ (s.furlongGrains : Int) ≤ s.rodEnd ch r ∧ s.get (FL_ENDF r.flow) < s.furlong ∧
      s.get STEP_NET ≤ (s.furlong - 1) * s.furlongGrains then s.furlong - 1
  else s.furlong

/-- The last rod of a flow in a furlong ends: the receive age becomes 0 or grows (R225). -/
def State.flowEnd (s : State) (f fur : Nat) : State :=
  let s := s.set (FL_ENDF f) (fur + 1)
  if s.get (FL_ACC f) = fur + 1 then s.setAge f 0 else (s.inc (FL_MISS f)).setAge f (satAdd 8 (s.get (FL_AGE f)) 1)

/-- A RECEIVE rod ends. Where it is the flow's last of the furlong, the receive age becomes 0 or grows, once in the furlong
(R214, R225). -/
def execRodEnd (ch i : Nat) (s : State) : Host.Outcome State Fault Refusal :=
  let fur := s.endFurlong ch i
  let r := s.rod (s.bankAt fur) ch i
  occurs (decide (ch < 2) && decide (i < 1024) && r.kind == 2 && s.on (TN_CFG_EN ch) &&
      s.rodEnd ch r == s.lastEnd (s.bankAt fur) r.flow && s.get (FL_ENDF r.flow) != fur + 1) s fun s =>
    (s.elapseNet (fur * s.furlongGrains + (s.rodEnd ch r).toNat)).flowEnd r.flow fur

/-! ### SYNC frames -/

/-- The first field of a SYNC payload that is wrong, as event 0x580B codes it (R240). -/
def State.syncFault (s : State) (pl : List Byte) (start hop : Nat) : Option Nat :=
  if !sealOk pl then some 0
  else if ofBe (slice pl 12 2) ≠ s.get TN_SCHEDID_ID then some 1
  else if ofBe (slice pl 2 4) % 2 ^ 25 ≠ start then some 2
  else if (pl.getD 1 0).toNat + 1 ≠ hop then some 3
  else none

/-- A payload that fails its test is ignored, with event 0x580B (R240, R265). -/
def State.payloadFault (s : State) (sender field p : Nat) : State :=
  (s.raise TN_TEVT_PAYLOAD TN_TEVCNT_OTHER_CNT).ev 0x580B 0 sender field p

/-- Takes time from a frame: every lane's T_net becomes `t` at the SFD, and the node integrates (R254). -/
def State.adopt (s : State) (sfd : Nat) (t : Int) (sender src attempt : Nat) : State :=
  let new := (t + ((s.now : Int) - sfd)).toNat
  let step := clampI (-2147483648) 2147483647 ((new : Int) - s.netTime)
  let s := ((s.stepNet fun _ => new).clearMeas.set TN_SYNCST_STATE 3).set TN_SYNCST_GAVEUP 0
  let s := ((s.set TN_SYNCST_ADOPT_NODE sender).set TN_SYNCST_ADOPT_SRC src).set ADOPT_TRY attempt
  let s := ((s.set ADOPT_F s.furlong).set INTEG_OK 0).set CORR_ON 0
  (s.set LISTEN_AT 0).ev 0x5804 0 (unsigned 32 step) sender src

/-- The SYNC entry that a listening node matches a SYNC frame with: its sender and START on this port (R240, R248). -/
def State.syncEntry (s : State) (p sender start : Nat) : Option Rod :=
  let rs := (s.rxRods s.bank p).filter fun r => r.2.rx p && r.2.kind == 4 && r.2.sender == sender && r.2.crcOk
  ((rs.find? fun r => r.2.start == start).or rs.head?).map (·.2)

/-- A SYNC frame heard while listening: a valid one gives the node its time (R248, R254). -/
def State.syncWhileListening (s : State) (p : Nat) (fr : NetFrame) (sfd : Nat) : State :=
  let h := frHdr fr
  let pl := frPayload fr
  match s.syncEntry p h.sender (ofBe (slice pl 2 4) % 2 ^ 25) with
  | none => s.heard
  | some r =>
    if (h.mismatch r 1 (p / 2) 0 (some false) (decide (h.plen = 16)) h.furlong).isSome then s.heard
    else match s.syncFault pl r.start (r.hop p) with
      | some field => (s.payloadFault h.sender field p).heard
      | none =>
        let c := signed 32 (ofBe (slice pl 6 4))
        s.adopt sfd (h.furlong * s.furlongGrains + s.expected r p - c) h.sender 0 0

/-- The rank of a copy: fewer hops first, then channel A, then port 0 (R240). -/
def copyRank (hop p : Nat) : Nat := hop * 4 + p

/-- A lane measures a sync node, unless it has a copy of lower rank (R240). -/
def State.measure (s : State) (l : Lane) (n : Nat) (m : Int) (rank : Nat) : State :=
  if s.on (MEAS l.idx n) && decide (s.get (MEAS_RANK l.idx n) ≤ rank) then s
  else ((s.set (MEAS l.idx n) 1).set (MEAS_M l.idx n) (unsigned 32 m)).set (MEAS_RANK l.idx n) rank

/-- A SYNC frame in no SYNC rod of its sender: in another rod it is a mismatch, outside every rod it is early or late
(R222, R246). -/
def State.syncElsewhere (s : State) (p : Nat) (fr : NetFrame) (sfd : Nat) : State :=
  match s.rodAt p (s.arrival sfd) (s.get TN_WIN_ACCEPT) fun r => r.kind != 5 with
  | none => s.noRod p sfd fr (s.arrival sfd)
  | some (i, r, _, f) => (s.rodFrame p sfd i r f fr).1

/-- A SYNC frame in its rod, with network time held: measured in each lane whose offset is within SWIN; a frame outside
the acceptance window is measured, and counted early or late (R240, R246). -/
def State.syncInRod (s : State) (p : Nat) (fr : NetFrame) (sfd : Nat) : State :=
  let h := frHdr fr
  let pl := frPayload fr
  match s.rodAt p (s.arrival sfd) (s.get TN_SYNCCFG_SWIN) fun r => r.kind == 4 && r.sender == h.sender && r.rx p with
  | none => s.syncElsewhere p fr sfd
  | some (i, r, o, f) =>
    let inWin := decide (o.natAbs ≤ s.get TN_WIN_ACCEPT)
    let x := s.rodFrame p sfd i r f fr
    if !x.2 then x.1
    else match s.syncFault pl r.start (r.hop p) with
      | some field => x.1.payloadFault h.sender field p
      | none =>
        let c := signed 32 (ofBe (slice pl 6 4))
        let s := Lane.all.foldl (fun s l =>
          let ol := (s.offset r p (s.arrivalIn l sfd)).1
          if ol.natAbs ≤ s.get TN_SYNCCFG_SWIN then s.measure l h.sender (ol + c) (copyRank (r.hop p) p) else s) x.1
        if inWin then s.confirmCold h.sender else s.outsideWindow p h.sender i o

/-- A SYNC frame arrives (R240, R248, R251). -/
def execSyncFrame (p : Nat) (fr : NetFrame) (sfd : Nat) (s : State) : Host.Outcome State Fault Refusal :=
  let h := frHdr fr
  occurs (decide (p < 4) && s.used p && fr.etype == s.get TN_CFG_ETYPE && h.crcOk && h.kind == 1 &&
      (frPayload fr).getD 0 0 == 0) s fun s =>
    if s.listens then if fr.fcsOk then s.syncWhileListening p fr sfd else s.heard
    else if s.get TN_SYNCST_STATE = 2 ∧ fr.fcsOk = false then s.collision p 0xFFFFFFFF 0
    else if s.get TN_SYNCST_STATE = 0 then s
    else s.syncInRod p fr sfd

/-! ### COLDSTART frames -/

/-- The first field of a COLDSTART payload that is wrong, as event 0x580B codes it (R249, R265). -/
def State.coldFault (s : State) (pl : List Byte) : Option Nat :=
  if !sealOk pl then some 0
  else if ofBe (slice pl 10 2) ≠ s.get TN_SCHEDID_ID then some 1
  else if ofBe (slice pl 6 4) ≠ s.get TN_FURLONG_LEN_US then some 4
  else none

/-- The header of a COLDSTART frame is as R249 says. -/
def Hdr.coldOk (h : Hdr) : Bool :=
  h.ver == 1 && h.furlong == 0 && h.rod == 0x3FF && h.flow == 0 && h.age == 0 && h.plen == 16

/-- The copy is the first of its sender's attempt: none of that attempt came within the last 2 furlongs, the shortest time
after which the sender can send another COLDSTART (R248, R250, log 97). -/
def State.coldFirst (s : State) (sender attempt sfd : Nat) : Bool :=
  !(s.on (COLD_AT sender) && s.get (COLD_FWD sender) == attempt % 4 &&
    decide (sfd + 1 < s.get (COLD_AT sender) + 2 * s.furlongGrains))

/-- The first copy of a sender's attempt leaves on the channel's other port, 250 grains after its arrival on the free-running
count (R250). -/
def State.forwardCold (s : State) (p : Nat) (fr : NetFrame) (sfd : Nat) : State :=
  let h := frHdr fr
  let pl := frPayload fr
  let attempt := (pl.getD 0 0).toNat
  let s := (s.set (COLD_FWD h.sender) (attempt % 4)).set (COLD_AT h.sender) (sfd + 1)
  let body := pl.take 1 ++ beBytes 1 ((pl.getD 1 0).toNat + 1) ++
    beBytes 4 (ofBe (slice pl 2 4) + s.get (TN_DELAY_P p) + 250) ++ slice pl 6 8
  let s := s.elapseTo (sfd + 250)
  if s.used (otherPort p) then s.transmit (otherPort p) { fr with data := fr.data.take 16 ++ sealed body ++ fr.data.drop 32 }
  else s

/-- A valid COLDSTART frame. A later copy of an attempt is dropped (R250, R251, R254, R255). -/
def State.coldFrame (s : State) (p : Nat) (fr : NetFrame) (sfd : Nat) : State :=
  let h := frHdr fr
  let pl := frPayload fr
  let attempt := (pl.getD 0 0).toNat
  let t : Int := ofBe (slice pl 2 4) + s.get (TN_DELAY_P p)
  let st := s.get TN_SYNCST_STATE
  let fresh := s.coldFirst h.sender attempt sfd
  if h.sender = s.get TN_CFG_NODE then s
  else if s.listens then
    if fresh then (s.adopt sfd t h.sender 1 attempt).forwardCold p fr sfd else s.heard
  else if st = 2 then s.collision p h.sender 1
  else if st = 3 ∧ fresh = true then
    let s := if s.get TN_SYNCST_ADOPT_SRC = 0 then s
      else if h.sender ≠ s.get TN_SYNCST_ADOPT_NODE then s.integFail 4
      else if attempt ≠ s.get ADOPT_TRY then s.adopt sfd t h.sender 1 attempt else s
    s.forwardCold p fr sfd
  else s

/-- A COLDSTART frame arrives (R248 to R251, R254). -/
def execColdstartFrame (p : Nat) (fr : NetFrame) (sfd : Nat) (s : State) : Host.Outcome State Fault Refusal :=
  let h := frHdr fr
  occurs (decide (p < 4) && s.used p && fr.etype == s.get TN_CFG_ETYPE && h.crcOk && h.kind == 2) s fun s =>
    if !fr.fcsOk then
      if s.get TN_SYNCST_STATE = 2 then s.collision p 0xFFFFFFFF 0 else s.heard
    else if !h.coldOk then s.heard
    else match s.coldFault (frPayload fr) with
      | some field => (s.payloadFault h.sender field p).heard
      | none => s.coldFrame p fr sfd

/-! ### Open frames -/

/-- The bytes an open frame takes of a 32 KiB buffer: addresses, EtherType, data and FCS (R229). -/
def openBytes (f : NetFrame) : Nat := 18 + f.data.length

/-- The bytes that a channel's frames hold in a buffer. -/
def held (q : List (Nat × NetFrame)) (ch : Nat) : Nat :=
  ((q.filter fun x => x.1 == ch).map fun x => openBytes x.2).foldl (· + ·) 0

/-- A frame is dropped: 0 receive buffer full, 1 transmit refused (R229). -/
def State.openDrop (s : State) (ch why : Nat) : State :=
  (s.raise TN_EVT_OPENDROP TN_EVCNT1_PORT_CNT).ev 0x5011 0 ch why

/-- The arrival lies in an OPEN rod of the channel that accepts on the port: its index and entry (R229). -/
def State.inOpenRod (s : State) (p : Nat) (a : Int) : Option (Nat × Rod) :=
  let pos := a % (s.furlongGrains : Int)
  ((s.rods s.bank (p / 2)).filter fun r =>
      r.2.kind == 5 && r.2.rx p && !s.on (ROD_SKIP (rodKey s.bank (p / 2) r.1))).find? fun r =>
    decide ((r.2.start : Int) ≤ pos) && decide (pos < r.2.start + r.2.len)

/-- A frame delivered to the host's receive buffer, or dropped where it is full (R229). -/
def State.openDeliver (s : State) (p : Nat) (fr : NetFrame) : State :=
  if held (s.openRx.map fun q => (q.1 / 2, q.2)) (p / 2) + openBytes fr ≤ 32768 then { s with openRx := s.openRx ++ [(p, fr)] }
  else s.openDrop (p / 2) 0

/-- A frame of another EtherType arrives. In an OPEN rod it is delivered to the host by its address and, unless it is for this
node or the channel is cut, queued for the other port, which it leaves in an OPEN rod; outside every OPEN rod it is
discarded, as is one longer than the 1522 bytes of R9. A failed FCS on a port in use is a collision in the window of a
coldstart (R9, R229, R251). -/
def execOpenFrame (p : Nat) (fr : NetFrame) (sfd : Nat) (s : State) : Host.Outcome State Fault Refusal :=
  occurs (decide (p < 4) && s.used p && fr.etype != s.get TN_CFG_ETYPE) s fun s =>
    let ch := p / 2
    if !fr.fcsOk then if s.get TN_SYNCST_STATE = 2 then s.collision p 0xFFFFFFFF 0 else s
    else if !s.inSync || decide (1522 < openBytes fr) then s
    else match s.inOpenRod p (s.arrival sfd) with
      | none => s
      | some (i, r) =>
        let k := rodKey s.bank ch i
        if !r.crcOk then s.checkFailure true i (2 * ch + s.bank) (ROD_FAILF k) (ROD_SKIP k)
        else
          let me := s.macOf (s.get TN_CFG_NODE)
          let s := if fr.dst / 2 ^ 40 % 2 == 1 || fr.dst == me then s.openDeliver p fr else s
          if fr.dst ≠ me ∧ s.on (TN_CFG_OPENCUT ch) = false then
            State.openFlush { s with openTx := s.openTx ++ [(2 + otherPort p, fr)] } ch
          else s

end Sys2Proof.Machine
end

