-- ==== Sys2Proof/Machine/NetTime.lean ====
section
/-! DEFINITION. Network time: the correction of each furlong, the furlong boundary, coldstart, WAKE bursts and the
timebase capture (R234, R241, R242, R248, R249, R253 to R255, R261, R263). -/

namespace Sys2Proof.Machine
open Reg Hid

/-! ### Correction (R241) -/

/-- The nodes that a lane measured in this furlong. -/
def State.measured (s : State) (l : Lane) : List Nat := (upto 64).filter fun n => s.on (MEAS l.idx n)

/-- The measurements of a lane: a sync node in sync adds its own clock (R241). -/
def State.measurements (s : State) (l : Lane) : List Int :=
  (if s.on TN_SYNCCFG_SYNC_CAP && s.inSync then [0] else []) ++
    (s.measured l).map fun n => signed 32 (s.get (MEAS_M l.idx n))

/-- The fault-tolerant midpoint of a list that is not empty (R241). -/
def midpoint (ms : List Int) : Int :=
  let xs := sortI ms
  let xs := if 4 ≤ xs.length then (xs.drop 1).dropLast else xs
  (xs.head?.getD 0 + xs.getLast?.getD 0).tdiv 2

/-- A lane's correction: midpoint, c and r; none where it measured nothing (R241). -/
def State.correction (s : State) (l : Lane) : Option (Int × Int × Int) :=
  let ms := s.measurements l
  if ms.isEmpty then none
  else
    let m := midpoint ms
    let c := if s.inSync then clampI (-40) 40 (-m) else -m
    let r := signed 32 (s.get TN_RATE_RATE) - (m * 4294967296).tdiv (4 * s.furlongGrains)
    some (m, c, clampI (-858993) 858993 r)

/-- The middle of three signed numbers. -/
def medianI (a b c : Int) : Int := max (min a b) (min (max a b) c)

/-- What the device applies of the lanes' values: the median of three, or of two the one nearer `base` (R241). -/
def applied (base : Int) : List Int → Int
  | [a, b, c] => medianI a b c
  | [a, b] => if (b - base).natAbs < (a - base).natAbs then b else a
  | [a] => a
  | _ => base

/-- The sync nodes of the schedule, in rising order, at most eight. -/
def State.syncNodes (s : State) : List Nat :=
  let ns := ((s.rods s.bank 0).filter (fun r => r.2.kind == 4) ++ (s.rods s.bank 1).filter fun r => r.2.kind == 4).map
    fun r => r.2.sender
  ((upto 64).filter fun n => ns.contains n).take 8

/-- Insertion of a measurement and its owner, in rising order, after those with the same value. -/
def insertM (x : Int × Option Nat) : List (Int × Option Nat) → List (Int × Option Nat)
  | [] => [x]
  | y :: r => if x.1 < y.1 then x :: y :: r else y :: insertM x r

/-- The measurements in rising order with their nodes, none for the node's own clock; of equal ones the own clock stands
first, then the lower node (R241, log 98). -/
def State.rankedMeas (s : State) (l : Lane) : List (Int × Option Nat) :=
  ((if s.on TN_SYNCCFG_SYNC_CAP && s.inSync then [(0, none)] else []) ++
    (s.measured l).map fun n => (signed 32 (s.get (MEAS_M l.idx n)), some n)).foldl (fun q x => insertM x q) []

/-- Whether a node's measurement was removed, as the lowest or the highest of four or more (R241). -/
def State.droppedMeas (s : State) (l : Lane) (n : Nat) : Bool :=
  let q := s.rankedMeas l
  decide (4 ≤ q.length) && ((q.head?.map (·.2)) == some (some n) || (q.getLast?.map (·.2)) == some (some n))

/-- Shows the measurements of the furlong (R264). -/
def State.showSync (s : State) (l : Lane) : State :=
  s.each (s.syncNodes.zipIdx) fun s p =>
    let m := signed 32 (s.get (MEAS_M l.idx p.1))
    (((s.set (TN_SYNCNODE_NODE p.2) p.1).set (TN_SYNCNODE_MEAS p.2) (s.get (MEAS l.idx p.1))).put (TN_SYNCNODE_DROPPED p.2)
      (s.droppedMeas l p.1)).set (TN_SYNCNODE_M p.2) (unsigned 16 (clampI (-32768) 32767 m))

/-- The correction of a furlong, computed in every lane in the vote after the last SYNC rod: a lane that measured nothing gives
c = 0 and the rate in force (R241, R244, R254). -/
def State.syncCorrection (s : State) : State :=
  let ls := Lane.all.filter s.inVote
  let l0 := ls.head?.getD .la
  let rate := signed 32 (s.get TN_RATE_RATE)
  let xs := ls.map s.correction
  let ms := (xs.filterMap id).map fun x => x.1
  let c := applied 0 (xs.map fun x => (x.map fun y => y.2.1).getD 0)
  let r := applied rate (xs.map fun x => (x.map fun y => y.2.2).getD rate)
  let n := (s.measurements l0).length
  let s := ((s.showSync l0).set TN_SYNCST_NMEAS (min 9 n)).clearMeas
  let s := ((s.set CORR_ON 1).set CORR_C (unsigned 64 c)).set CORR_R (unsigned 32 r)
  let s := s.set CORR_F (s.furlong + 1)
  if ms.isEmpty then
    let missed := satAdd 8 (s.get SYNC_MISSED) 1
    let s := (s.set SYNC_MISSED missed).set INTEG_OK 0
    if s.inSync && decide (s.get TN_SYNCCFG_MISS_LIM ≤ missed) then s.outOfSync 0x7FFFFFFF 1
    else if s.get TN_SYNCST_STATE = 3 ∧ s.get ADOPT_F < s.furlong then s.integFail 4
    else s
  else
    let m := applied 0 ms
    let s := (s.set SYNC_MISSED 0).put INTEG_OK (decide (m.natAbs ≤ 20))
    let s := s.set TN_OFFSET_M (unsigned 16 (clampI (-32768) 32767 m))
    if s.inSync && decide (100 < m.natAbs) then s.outOfSync (unsigned 32 m) 0 else s

/-- The end of the last SYNC rod of the furlong, from its start, on the ports in use: E_p + ACCEPT + t, or START + t of this
node's own (R214, R241). It is held inside the furlong, whose correction takes effect at the next boundary (R242). -/
def State.lastSync (s : State) : Nat :=
  let t := wireTime 16 false
  let ends := ports.flatMap fun p => ((s.rods s.bank (p / 2)).filter fun r => r.2.kind == 4 && s.used p).map fun r =>
    if r.2.sender = s.get TN_CFG_NODE then ((r.2.start + t : Nat) : Int)
    else if r.2.rx p then s.expected r.2 p + s.get TN_WIN_ACCEPT + t else 0
  min (ends.foldl max 0).toNat (s.furlongGrains - 1)

/-- The lanes compute the correction of the furlong, once, after the end of its last SYNC rod (R241). -/
def execSyncCorrection (s : State) : Host.Outcome State Fault Refusal :=
  occurs ((s.get TN_SYNCST_STATE == 2 || s.get TN_SYNCST_STATE == 3 || s.inSync) && s.get CORR_F != s.furlong + 1) s fun s =>
    (s.elapseNet (s.furlong * s.furlongGrains + s.lastSync)).syncCorrection

/-! ### The furlong boundary (R234, R242, R230, R253 to R255) -/

/-- One lane's network time is put right: event 0x580C carries the deviation (R234). -/
def State.realign (s : State) (l : Lane) (t : Nat) : State :=
  let dev := unsigned 32 ((s.get (TNET l.idx) : Int) - t)
  ((s.set (TNET l.idx) t).raise TB_EVT_REALIGN TB_EVCNT_REALIGN_CNT).ev 0x580C l.code dev

/-- The comparison of the lanes' network times: with three in the vote the odd one takes the median, with two far
apart both take their mean; a lane out of the vote follows (R234). -/
def State.compareTimes (s : State) : State :=
  match Lane.all.filter s.inVote with
  | [a, b] =>
    let x := s.get (TNET a.idx)
    let y := s.get (TNET b.idx)
    let mean := (x + y) / 2
    let s := if 2 < absDiff x y then (s.realign a mean).realign b mean else s
    s.each (Lane.all.filter fun l => !s.inVote l) fun s l => s.set (TNET l.idx) (s.get (TNET a.idx))
  | _ =>
    let med := s.netTime
    s.each (Lane.all.filter fun l => decide (2 < absDiff (s.get (TNET l.idx)) med)) fun s l => s.realign l med

/-- The correction of the last furlong takes effect: r at once, a small c as a slew, a large one as a step (R242). -/
def State.applyCorrection (s : State) : State :=
  if s.on CORR_ON then
    let c := signed 64 (s.get CORR_C)
    let r := signed 32 (s.get CORR_R)
    let limit := r.natAbs == 858993 && s.get TN_RATE_RATE != s.get CORR_R
    let s := ((s.set CORR_ON 0).set TN_RATE_RATE (s.get CORR_R)).set TN_OFFSET_CAPPL (unsigned 8 (clampI (-128) 127 c))
    let s := if limit then (s.raise TN_TEVT_RATELIM TN_TEVCNT_OTHER_CNT).ev 0x580D 0 (unsigned 32 r) else s
    if c.natAbs ≤ 40 then (s.set SLEW_N (unsigned 16 c)).set SLEW_T 0
    else s.stepNet fun l => ((s.get (TNET l.idx) : Int) + c).toNat
  else s

/-- At the start of furlong F_sw every rod comes from the target bank (R230). -/
def State.bankSwitch (s : State) : State :=
  let past := (s.furlong + 2 ^ 32 - s.get TN_SWF_F_SW) % 2 ^ 32
  if s.on TN_BANK_PENDING && decide (past < 2 ^ 31) then
    let b := s.get TN_BANK_TARGET
    let s := (s.set PREV_BANK s.bank).set SWITCH_F (s.furlong + 1 - past)
    let s := (s.set TN_BANK_ACTIVE b).set TN_BANK_PENDING 0
    (s.raise TN_EVT_SWITCH TN_EVCNT1_SCHED_CNT).ev 0x500E 0 (s.get TN_SWF_F_SW) b
  else s

/-- What the start of a furlong does to the synchronisation state (R253 to R255). -/
def State.syncAtBoundary (s : State) : State :=
  let f := s.furlong
  match s.get TN_SYNCST_STATE with
  | 2 => if f = 2 then (s.enterSync).set COLD_ME 1 else s
  | 3 =>
    let a := s.get ADOPT_F
    if a + 3 ≤ f ∧ f ≤ a + 8 ∧ s.on INTEG_OK = true then (s.set TN_SYNCST_ATTEMPTS 0).enterSync
    else if a + 8 ≤ f then s.integFail 5 else s
  | 4 =>
    if s.on COLD_ME && f == 8 && !s.on TN_SYNCCFG_SOLO then
      let s := (s.raise TN_TEVT_NOPARTNER TN_TEVCNT_OTHER_CNT).ev 0x5809 0 (s.get TN_SYNCST_ATTEMPTS + 1)
      s.attemptFailed.listen 1 3
    else s
  | _ => s

/-- A furlong boundary, the next that has not been judged: times compared, corrections applied, banks reloaded and switched, synchronisation entered, the
lease and group time judged (R216, R230, R234, R242, R253 to R255, R344, R360). -/
def execFurlongBoundary (s : State) : Host.Outcome State Fault Refusal :=
  occurs true s fun s =>
    let s := s.elapseNet ((s.get BND_F + 1) * s.furlongGrains)
    let s := s.set BND_F s.furlong
    let s := s.compareTimes.applyCorrection
    let s := if s.on ROD_RELOAD then (s.reloadRods).set ROD_RELOAD 0 else s
    s.bankSwitch.syncAtBoundary.groupBoundary.leaseBoundary

/-! ### Coldstart (R248, R249) -/

/-- The listen time in grains (R248). -/
def State.listenTime (s : State) : Nat := 2 * s.furlongGrains + s.get TN_CFG_NODE * 12 * grainsUs

/-- The COLDSTART of an attempt (R249). -/
def State.coldstartFrame (s : State) (p attempt : Nat) : NetFrame :=
  s.frame (s.header 2 (p / 2) 0 false false 0 0x3FF 0 16 ++
    sealed (beBytes 1 attempt ++ beBytes 1 0 ++ beBytes 4 0 ++ beBytes 4 (s.get TN_FURLONG_LEN_US) ++
      beBytes 2 (s.get TN_SCHEDID_ID) ++ beBytes 2 0))

/-- The listen timer expires: a coldstart-capable node with attempts left sends COLDSTART on every port in use and its
furlong 0 begins; any other starts the timer again (R248, R249, R255). -/
def execListenTimeout (s : State) : Host.Outcome State Fault Refusal :=
  occurs (s.listens && s.on LISTEN_AT) s fun s =>
    let s := s.elapseTo (s.get LISTEN_AT - 1 + s.listenTime)
    let n := s.get TN_SYNCST_ATTEMPTS
    if s.on TN_SYNCCFG_COLD_CAP && decide (n < 3) then
      let s := s.ev 0x5806 0 (s.listenTime / grainsUs) (n + 1)
      let s := ((s.stepNet fun _ => 0).set TN_SYNCST_STATE 2).set LISTEN_AT 0
      let s := (s.set CORR_ON 0).set INTEG_OK 0
      s.each (s.usedPorts.filter fun p => s.on (TN_CFG_EN (p / 2))) fun s p => s.transmit p (s.coldstartFrame p (n + 1))
    else
      let s := if n = 3 ∧ s.on TN_SYNCCFG_COLD_CAP = true ∧ s.on TN_SYNCST_GAVEUP = false then
          ((s.set TN_SYNCST_GAVEUP 1).raise TN_TEVT_GAVEUP TN_TEVCNT_OTHER_CNT).ev 0x5808 0 n
        else s
      s.listenTimer

/-! ### Timebase capture (R263) -/

/-- Captures network time, free-running count, furlong number and the lanes' deviations, in one grain (R263). -/
def State.tbCapture (s : State) : State :=
  let net := s.netTime
  let f := s.furlong
  let s := (s.set TB_CAP_NET_LO_NET net).set TB_CAP_NET_HI_NET (net / 2 ^ 32)
  let s := (s.set TB_CAP_FREE_LO_FREE s.now).set TB_CAP_FREE_HI_FREE (s.now / 2 ^ 32)
  let s := ((s.set TB_CAP_F_LO_F f).set TB_CAP_F_HI_F (f / 2 ^ 32)).set TB_CAP_LANEDEV_VALID 1
  s.each Lane.all fun s l =>
    s.set (TB_CAP_LANEDEV_L l.idx) (unsigned 8 (clampI (-127) 127 ((s.get (TNET l.idx) : Int) - net)))

/-- TB_CAPTURE.GO (R263). -/
def execTbCapture (s : State) : Host.Outcome State Fault Refusal := occurs true s State.tbCapture

/-! ### WAKE bursts (R261) -/

/-- TN_WAKECMD.GO (R261). -/
def execWakeBurstRequest (reason : Nat) (s : State) : Host.Outcome State Fault Refusal :=
  occurs (decide (reason < 65536)) s fun s => (s.set TN_WAKECMD_REASON reason).wakeBurst
    (s.get TN_WAKEMASK0_NODES + 2 ^ 32 * s.get TN_WAKEMASK1_NODES) reason

/-- The next frame of the burst (R261). -/
def State.wakeFrame (s : State) (p : Nat) : NetFrame :=
  s.frame (s.header 3 (p / 2) 0 false false 0 0x3FF 0 16 ++
    sealed (beBytes 8 (s.get WB_MASK) ++ beBytes 1 (s.get WB_N) ++ beBytes 1 (s.get TN_WAKESTAT_SENT_ID) ++
      beBytes 2 (s.get WB_REASON) ++ beBytes 2 (s.get TN_SCHEDID_ID)))

/-- Where a transmission of an entry begins on a port, from the furlong start: START of this node's own and of an OPEN rod,
START + h × 250 of a forwarded frame (R205). -/
def State.txStart (s : State) (r : Rod) (p : Nat) : Nat :=
  if r.kind = 5 ∨ r.sender = s.get TN_CFG_NODE then r.start else r.start + r.hop (otherPort p) * 250

/-- Where a node in sync may send a WAKE frame: a port without a valid frame for 2 furlongs, where the frame, of 168 grains,
ends before the node's next transmit rod there (R261). -/
def State.wakeAllowed (s : State) (p : Nat) : Bool :=
  let pos := s.netTime - s.furlong * s.furlongGrains
  let busy := (s.rods s.bank (p / 2)).any fun r =>
    let st := s.txStart r.2 p
    r.2.kind != 0 && r.2.tx p && (decide (st < pos + 168 ∧ pos < st + r.2.len) || decide (st + s.furlongGrains < pos + 168) ||
      decide (pos + s.furlongGrains < st + r.2.len))
  !s.inSync || (decide (s.get (PORT_RXF p) + 2 ≤ s.furlong + 1) && !busy)

/-- The next WAKE frame of the burst leaves; the sixteenth ends it (R261). -/
def execWakeFrameSend (s : State) : Host.Outcome State Fault Refusal :=
  occurs (s.on TN_WAKESTAT_SENDING) s fun s =>
    let s := s.elapseTo (s.get WB_AT)
    let s := s.each (s.usedPorts.filter s.wakeAllowed) fun s p => s.transmit p (s.wakeFrame p)
    let n := s.get WB_N + 1
    let s := (s.set WB_N n).set WB_AT (s.now + s.get TN_WAKECFG_SPACING * grainsUs)
    if n = 16 then (s.set TN_WAKESTAT_SENDING 0).settle 0x7D (fun _ => true) 0 (s.get TN_WAKESTAT_SENT_ID) else s

end Sys2Proof.Machine
end

