-- ==== Sys2Proof/Machine/HostCmd.lean ====
section
/-! DEFINITION. The ring opcodes of flows, open frames, CAN, snapshots, debugging and block requests (R301 to R303, R312 to
R315). Each acts on the descriptor of its ring that starts next; `data` is what the buffer read returned, none where the
host's memory failed, and `memOk` says whether it takes a buffer write. -/

namespace Sys2Proof.Machine
open Reg Hid

/-- Starts a descriptor whose buffer is read (R301, R304). -/
def State.startRead (s : State) (r op : Nat) (data : Option (List Byte)) (f : State → Desc → List Byte → State) : State :=
  s.start r op fun s d =>
    match data with
    | none => s.bufferFailed d
    | some bs => if bs.length = d.len then f s d bs else s

/-- 0x00 NOP (R301). -/
def execRingNop (r : Nat) (s : State) : Host.Outcome State Fault Refusal :=
  .next (s.start r 0x00 fun s d => s.finish d stSuccess)

/-- 0x10 FLOW_READ: up to 2048 bytes of the flow buffer (R219, R301). -/
def execFlowRead (r : Nat) (memOk : Bool) (s : State) : Host.Outcome State Fault Refusal :=
  .next (s.start r 0x10 fun s d => s.answer d memOk (s.bytes (flowBuf d.p0) (min d.len 2048)))

/-- 0x11 FLOW_WRITE: payload of a non-safety SEND flow whose entry is not bound (R218, R220, R301). -/
def execFlowWrite (r : Nat) (data : Option (List Byte)) (s : State) : Host.Outcome State Fault Refusal :=
  .next (s.start r 0x11 fun s d =>
    let x := s.flow d.p0
    if s.ctxFit d.p0 = false then (s.ctxCheck d.p0 0).finish d stDeviceError
    else if x.dir ≠ 1 ∨ x.safety = true ∨ x.en = true then s.finish d stNotTarget
    else if d.len ≠ x.len then s.finish d stBadBuffer
    else s.startRead r 0x11 data fun s d bs => (s.sendReady d.p0 bs).finish d stSuccess (s.furlong % 2 ^ 32))

/-- The frame that host bytes spell: addresses, EtherType and data, padded to the least size (R229). -/
def frameOf (bs : List Byte) : NetFrame :=
  { dst := ofBe (slice bs 0 6), src := ofBe (slice bs 6 6), etype := ofBe (slice bs 12 2),
    data := (bs.drop 14) ++ List.replicate (60 - bs.length) 0, fcsOk := true }

/-- 0x20 OPEN_SEND: a host frame joins the channel's transmit buffer, and leaves at once where an OPEN rod with room for it is
running (R229, R301). -/
def execOpenSend (r : Nat) (data : Option (List Byte)) (s : State) : Host.Outcome State Fault Refusal :=
  .next (s.startRead r 0x20 data fun s d bs =>
    let f := frameOf bs
    if f.etype = s.get TN_CFG_ETYPE ∨ 1522 < openBytes f then (s.openDrop d.p0 1).finish d stRefused
    else if 32768 < held s.openTx d.p0 + openBytes f then s.finish d stBusy
    else
      let s := { s with openTx := s.openTx ++ [(d.p0, f)] }
      (s.openFlush d.p0).finish d stSuccess (s.openTx.filter fun q => q.1 == d.p0).length)

/-- The bytes of a received frame without its FCS (R301). -/
def frBytes (f : NetFrame) : List Byte := beBytes 6 f.dst ++ beBytes 6 f.src ++ beBytes 2 f.etype ++ f.data

/-- Delivers the oldest received frame of a channel to a descriptor; none yet: it waits (R229, R301). -/
def State.deliverOpen (s : State) (d : Desc) (memOk : Bool) : State :=
  match s.openRx.find? fun q => q.1 / 2 == d.p0 with
  | none => s.await d
  | some q =>
    let s := { s with openRx := s.openRx.erase q }
    if !memOk then s.bufferFailed d
    else (s.hostWrite d.buf (frBytes q.2)).finish d stSuccess ((frBytes q.2).length + 65536 * q.1)

/-- 0x21 OPEN_RECV: one received frame; a waiting descriptor of the ring takes it before a new one starts (R229, R301). -/
def execOpenRecv (r : Nat) (memOk : Bool) (s : State) : Host.Outcome State Fault Refusal :=
  .next (
    match (s.ringDescs r).find? fun d =>
        d.op == 0x21 && d.st == .waiting && s.openRx.any fun q => q.1 / 2 == d.p0 with
    | some d => s.deliverOpen d memOk
    | none => s.start r 0x21 fun s d => s.deliverOpen d memOk)

/-! ### CAN -/

/-- The controller and object that P0 names (R301). -/
def Desc.canRef (d : Desc) : Nat × Nat := (d.p0 % 4, d.p0 / 4)

/-- A host-fed SEND object in use: the target of CAN_SEND and CAN_WITHDRAW. -/
def State.hostFed (s : State) (n k : Nat) : Bool :=
  (s.canObj n k).dir == 1 && (s.canObj n k).host && !s.on (CO_DIS n k)

/-- 0x30 CAN_SEND: a request of a host-fed object (R274, R285, R286, R301). -/
def execCanSend (r : Nat) (data : Option (List Byte)) (s : State) : Host.Outcome State Fault Refusal :=
  .next (s.start r 0x30 fun s d =>
    let (n, k) := d.canRef
    let o := s.canObj n k
    if !s.hostFed n k then s.finish d stNotTarget
    else if d.len ≠ o.len then s.finish d stBadBuffer
    else if s.safe && o.safety then s.finish d stSafe
    else if s.on (CO_STOP n k) then s.finish d stRefused
    else s.startRead r 0x30 data fun s d bs =>
      let s := s.canRequest n k bs
      if d.wait then s.await d else s.finish d stSuccess)

/-- 0x31 CAN_WITHDRAW (R301). -/
def execCanWithdraw (r : Nat) (s : State) : Host.Outcome State Fault Refusal :=
  .next (s.start r 0x31 fun s d =>
    let (n, k) := d.canRef
    if !s.hostFed n k then s.finish d stNotTarget
    else (s.canRemove n k).finish d stSuccess (s.get (CN_PEND n k)))

/-- 0x32 CAN_READ: an object's 128 bytes (R268, R301). -/
def execCanRead (r : Nat) (memOk : Bool) (s : State) : Host.Outcome State Fault Refusal :=
  .next (s.start r 0x32 fun s d => s.answer d memOk (s.bytes (canMem d.canRef.1 d.canRef.2) 128))

/-- 0x33 CAN_RECOVER: the request of CN_REQ.RECOVER (R284, R301, R302). -/
def execCanRecover (r : Nat) (s : State) : Host.Outcome State Fault Refusal :=
  .next (s.start r 0x33 fun s d =>
    let s := s.canRecover d.p0
    s.outcome d true (s.get (CN_REQSTAT_REASON d.p0)))

/-- 0x34 CAN_OBJCLR: the request of CN_OBJCLR (R285, R301, R302). -/
def execCanObjclr (r : Nat) (s : State) : Host.Outcome State Fault Refusal :=
  .next (s.start r 0x34 fun s d =>
    let (n, k) := d.canRef
    let s := s.objClear n k 1
    s.outcome d false (s.get (CN_OBJCLRSTAT_REASON n)))

/-! ### Snapshots (R312 to R315) -/

/-- A task whose image a snapshot can show (R314). -/
def State.snappable (s : State) (t : Nat) : Bool := s.prog == .run && s.scans t && !s.safe

/-- The bytes that a task's snapshot takes (R313). -/
def State.snapSize (s : State) (t : Nat) : Nat := 64 + 4 * (s.get (TSK_ISLICE_LEN t) + s.get (TSK_QSLICE_LEN t))

/-- 0x40 SNAPSHOT: one may be pending for each task (R312 to R314). -/
def execSnapshot (r : Nat) (s : State) : Host.Outcome State Fault Refusal :=
  .next (s.start r 0x40 fun s d =>
    if s.on (HIF_SNAP_PENDING d.p0) then s.finish d stBusy
    else if !s.snappable d.p0 then s.finish d stNotScanning
    else if d.len < s.snapSize d.p0 then s.finish d stBufferSmall (s.snapSize d.p0)
    else ((s.set (HIF_SNAP_PENDING d.p0) 1).set (SNAP_TRY d.p0) 0).await d)

/-- The lane from which a snapshot is copied: the lower-lettered one in VOTE, or the SINGLE task's (R312). -/
def State.snapLane (s : State) (t : Nat) : Option Lane :=
  match s.singleLane t with
  | some l => some l
  | none => Lane.all.find? fun l => s.lane l == .vote

/-- The snapshot of a task from a lane (R313). -/
def State.snapBytes (s : State) (t : Nat) (l : Lane) (tries : Nat) : List Byte :=
  let forced := (s.forces forceLive).any fun i => (s.forceAt (forceLive i)).owner == t
  let copied := s.isTriple t && l != .la
  let h := leBytes 4 0x50414E53 ++ leBytes 8 (s.get (LAST_F t)) ++ leBytes 1 t ++ leBytes 1 (s.get (TSK_STATE_MODE t)) ++
    leBytes 1 (laneMask s.inVote + 8 * bit copied + 16 * bit forced) ++ leBytes 1 (s.get DBG_PSTATE_STATE) ++
    leBytes 4 (s.regRead (0x440C + 64 * t)) ++ leBytes 4 (s.regRead (0x4410 + 64 * t)) ++
    leBytes 4 (s.get (TSK_LAST_N_N t)) ++ leBytes 2 (16 * s.get (BAL_OUT t) + 256 * s.get (BAL_MIN t)) ++
    leBytes 1 tries ++ List.replicate 29 0
  let body := s.bytes (inBase l + s.get (TSK_ISLICE_BASE t)) (4 * s.get (TSK_ISLICE_LEN t)) ++
    s.bytes (outBase l + s.get (TSK_QSLICE_BASE t)) (4 * s.get (TSK_QSLICE_LEN t))
  h ++ leBytes 4 (crc32c (h ++ body)) ++ body

/-- The task's pending snapshot ends: its descriptor finishes as `f` says. -/
def State.snapEnd (s : State) (t : Nat) (f : State → Desc → State) : State :=
  let s := s.set (HIF_SNAP_PENDING t) 0
  match s.descs.find? fun d => d.op == 0x40 && d.p0 == t && d.st == .waiting with
  | some d => f s d
  | none => s

/-- An attempt in the capture window ends: consistent, repeated in the next window, or the eighth in vain (R312, R315). -/
def execSnapshotCapture (t : Nat) (consistent memOk : Bool) (s : State) : Host.Outcome State Fault Refusal :=
  occurs (decide (t < 16) && s.on (HIF_SNAP_PENDING t) && s.on (SNAPW t)) s fun s =>
    let n := s.get (SNAP_TRY t) + 1
    let s := s.set (SNAP_TRY t) n
    match (if consistent then s.snapLane t else none) with
    | some l => s.snapEnd t fun s d => s.answer d memOk (s.snapBytes t l n)
    | none => if n < 8 then s.set (SNAPW t) 0 else s.snapEnd t fun s d => s.finish d stTimeout

/-- A task that has left scanning drops its pending snapshot (R314). -/
def State.snapCheck (s : State) (t : Nat) : State :=
  if s.on (HIF_SNAP_PENDING t) && !s.snappable t then s.snapEnd t fun s d => s.finish d stNotScanning else s

/-! ### Forces and debugging (R131, R140 to R142, R303) -/

/-- 0x72 UNLOCK_RELEASE (R131, R301). -/
def execUnlockRelease (r : Nat) (s : State) : Host.Outcome State Fault Refusal :=
  .next (s.start r 0x72 fun s d => s.unlockDrop.holdLost.finish d stSuccess)

/-- What a FORCE_SET comes to: its status, then the entry (R140, R142, R303). -/
def State.setForce (s : State) (d : Desc) (bs : List Byte) : State :=
  let w := ofLe (bs.take 4)
  let sp : Space := if w.testBit 16 then .Q else .I
  let a := w % 65536
  let owner := (s.sliceOwner sp a).getD 0
  let safety := s.forceSafety sp a owner
  if w % 4 ≠ 0 ∨ w / 2 ^ 17 ≠ 0 ∨ ofLe (bs.drop 8) = 0 then s.finish d stBadParam
  else if !s.unlocked (if safety then 2 else 1) then s.finish d stNoUnlock
  else
    let s := s.debugRequest
    if (s.sliceOwner sp a).isNone then s.finish d stRefused
    else if safety && !s.maintPermit then s.finish d stNoPermit
    else if safety && !s.on (DBG_TCFG_FPERM owner) then s.finish d stRefused
    else
      let w := w + 2 ^ 20 * owner + 2 ^ 24 * bit safety
      let s := s.setBytes (forceEntry d.p0) (leBytes 4 w ++ bs.drop 4 ++ leBytes 4 s.opTime)
      (((s.set (FORCE_LOST d.p0) 0).ev 0x2030 0 w d.p0 (bit safety)).showForces).finish d stSuccess

/-- 0x73 FORCE_SET (R140, R142, R301). -/
def execForceSet (r : Nat) (data : Option (List Byte)) (s : State) : Host.Outcome State Fault Refusal :=
  .next (s.startRead r 0x73 data State.setForce)

/-- 0x74 FORCE_REMOVE: one entry, or every entry with 256 (R301, R303). -/
def execForceRemove (r : Nat) (s : State) : Host.Outcome State Fault Refusal :=
  .next (s.start r 0x74 fun s d =>
    let is := (s.forces forceEntry).filter fun i => d.p0 == 256 || d.p0 == i
    let held := if is.isEmpty then s.unlocked 1 || s.unlocked 2
      else is.all fun i => s.unlocked (if (s.forceAt (forceEntry i)).safety then 2 else 1)
    if held then (s.debugRequest.each is State.removeForce).finish d stSuccess is.length else s.finish d stNoUnlock)

/-- 0x75 FORCE_READ: the table and its CRC-32C (R140, R301). -/
def execForceRead (r : Nat) (memOk : Bool) (s : State) : Host.Outcome State Fault Refusal :=
  .next (s.start r 0x75 fun s d =>
    if !(s.unlocked 1 || s.unlocked 2) then s.finish d stNoUnlock
    else
      let t := s.bytes (forceEntry 0) 4096
      s.debugRequest.answer d memOk (t ++ leBytes 4 (if (s.forces forceEntry).isEmpty then crc32c t else s.rd forceCrc 4)))

/-- 0x76 DBG_WRITE: a write to a register of the per-task DBG block (R145, R301, R303). -/
def execDbgWrite (r : Nat) (s : State) : Host.Outcome State Fault Refusal :=
  .next (s.start r 0x76 fun s d =>
    if d.p0 % 4 ≠ 0 then s.finish d stBadParam
    else if !s.unlocked 0 then s.finish d stNoUnlock
    else (s.dbgTaskWrite d.p0 d.p1).finish d stSuccess)

/-! ### Requests that repeat a register's (R302) -/

/-- 0x78 PSTATE_REQ (R123, R124, R302). -/
def execPstateReq (r : Nat) (s : State) : Host.Outcome State Fault Refusal :=
  .next (s.start r 0x78 fun s d =>
    if s.blk 2 then s.finish d stBusy
    else
    let s := s.psRequest (d.p0 % 4) ((d.p0).testBit 2) 1
    s.outcome d (s.on PS_PEND) (s.get DBG_PSSTAT_REASON))

/-- 0x79 TASK_RESTART (R130, R302). -/
def execTaskRestart (r : Nat) (s : State) : Host.Outcome State Fault Refusal :=
  .next (s.start r 0x79 fun s d =>
    if s.blk 2 then s.finish d stBusy
    else
    let s := s.taskRestart (d.p0 % 16) ((d.p0).testBit 4) 1
    s.outcome d true (s.get DBG_TRSTAT_REASON))

/-- 0x7A MODE_REQ (R108, R302). -/
def execModeReq (r : Nat) (s : State) : Host.Outcome State Fault Refusal :=
  .next (s.start r 0x7A fun s d =>
    let s := s.modeRequest (d.p0 % 16) (d.p0 / 16)
    s.outcome d true (s.get LN_MODESTAT_REASON))

/-- 0x7B BRAKE_MRST (R192, R302). -/
def execBrakeMrst (r : Nat) (s : State) : Host.Outcome State Fault Refusal :=
  .next (s.start r 0x7B fun s d =>
    let s := s.brakeReset d.p0 1
    s.outcome d true (s.get BRK_MRSTAT_REASON))

/-- 0x7D WAKE_BURST (R261, R301). -/
def execWakeBurst (r : Nat) (s : State) : Host.Outcome State Fault Refusal :=
  .next (s.start r 0x7D fun s d =>
    if s.on TN_WAKESTAT_SENDING then s.finish d stBusy
    else (s.wakeBurst (d.p1 + 2 ^ 32 * d.p2) d.p0).await d)

end Sys2Proof.Machine
end

