-- ==== Sys2Proof/Machine/Attest.lean ====
section
/-! DEFINITION. Attestation, identity and the debug unlock (R131, R301, R413 to R415). -/

namespace Sys2Proof.Machine
open Reg Hid

/-- The key store as the report hashes it: each index as key SVN and public key, zeros where it is empty (R414). -/
def State.keyStoreBytes (s : State) : List Byte :=
  (upto 8).flatMap fun i =>
    if s.keyPerms i = 0 then List.replicate 2596 0 else leBytes 4 (s.keySvn i) ++ s.keyBytes i

/-- The digest of a kind's running image in the report, zeros where there is none. -/
def State.reportDigest (s : State) (k : Nat) : List Byte :=
  if s.on (KIND_OK k) then hashBytes (s.runDigest k) else List.replicate 64 0

/-- The 512-byte body of the attestation report (R414). -/
def State.attestBody (s : State) (nonce : List Byte) : List Byte :=
  leBytes 4 0x41545331 ++ leBytes 4 (s.regRead 0) ++ leBytes 4 (s.get REC_PCYC_COUNT) ++ leBytes 6 s.opTime ++
    leBytes 1 (s.get DBG_PSTATE_STATE) ++
    leBytes 1 (laneMask s.inVote + 8 * s.get UPD_STAT_PROB + 16 * bit (s.on UPD_SESSION_HOLDER)) ++ nonce ++
    hashBytes identityHash ++ (upto 4).flatMap s.reportDigest ++ ((upto 4).flatMap fun k => leBytes 8 (s.runSvn k)) ++
    ((upto 4).flatMap fun k => leBytes 8 (s.floorOf k)) ++ hashBytes (Config.sha3 s.keyStoreBytes) ++
    leBytes 2 (s.get NV_FUSE) ++ List.replicate 10 0

/-- The report: body, signature with the identity key, and a zero byte (R414). -/
def State.attestReport (s : State) (nonce : List Byte) : List Byte :=
  let b := s.attestBody nonce
  b ++ (upto 4627).map (Config.signByte (Config.sha3 b)) ++ [0]

/-- 0x68 ATTEST: `nonce` is what the read of buffer bytes 0 to 31 returned (R301, R414). -/
def execAttest (r : Nat) (nonce : Option (List Byte)) (memOk : Bool) (s : State) : Host.Outcome State Fault Refusal :=
  .next (s.start r 0x68 fun s d =>
    if d.len < 5140 then s.finish d stBufferSmall 5140
    else match nonce with
      | none => s.bufferFailed d
      | some n => if n.length = 32 then s.answer d memOk (s.attestReport n) else s)

/-- 0x69 IDENTITY: the device certificate (R301, R413). -/
def execIdentity (r : Nat) (memOk : Bool) (s : State) : Host.Outcome State Fault Refusal :=
  .next (s.start r 0x69 fun s d =>
    if d.len < 9972 then s.finish d stBufferSmall 9972 else s.answer d memOk ((upto 9972).map deviceCert))

/-- 0x70 UNLOCK_CHALLENGE: a nonce of 32 free bytes, valid for one response and for 60 s; none during the lockout (R131,
R301). -/
def execUnlockChallenge (r : Nat) (memOk : Bool) (s : State) : Host.Outcome State Fault Refusal :=
  .next (s.start r 0x70 fun s d =>
    if s.on DBG_UNLOCKSTAT_LOCKOUT then s.finish d stRefused 2
    else if d.len < 32 then s.finish d stBufferSmall 32
    else
      let s := ((s.destroy nonceAt 32).set NONCE_ON 1).set NONCE_AT s.now
      s.answer d memOk (s.bytes nonceAt 32))

/-- The digest that an unlock response signs: nonce, device identity, scope word (R415). -/
def State.unlockDigest (s : State) (scope : List Byte) : Nat :=
  Config.sha3 (s.bytes nonceAt 32 ++ hashBytes identityHash ++ scope)

/-- The first enrolled key whose permissions cover a scope and that verifies the signature (R398, R415). -/
def State.unlockKey (s : State) (scope sig : List Byte) : Option Nat :=
  let w := ofLe scope
  (upto 8).find? fun i =>
    s.keyPerms i != 0 && (s.keyPerms i / 8 % 16 &&& w) == w && Config.mldsaVerify (s.keyBytes i) (s.unlockDigest scope) sig

/-- A response is refused: 0 signature, 1 stale nonce, 2 lockout (R131, R301). -/
def State.unlockRefuse (s : State) (d : Desc) (why : Nat) : State :=
  (s.ev 0x2023 0 (s.get DBG_UNLOCKSTAT_FAILS) why).finish d stRefused why

/-- A wrong response is counted; the eighth in a row locks challenges out (R131). -/
def State.unlockWrong (s : State) (d : Desc) : State :=
  let s := (s.inc DBG_UNLOCKSTAT_FAILS).raise DBG_EVT_UNLOCK_FAIL DBG_EVCNT_FAULT_CNT
  let s := if 8 ≤ s.get DBG_UNLOCKSTAT_FAILS then (s.set DBG_UNLOCKSTAT_LOCKOUT 1).set LOCK_AT s.now else s
  s.unlockRefuse d 0

/-- A scope is granted by a key (R131). -/
def State.unlockGrant (s : State) (d : Desc) (scope key : Nat) : State :=
  let s := s.each (upto 4) fun s b => s.put (DBG_PSTATE_SCOPE b) (scope.testBit b)
  let s := ((s.set DBG_PSTATE_UNLOCK 1).set DBG_PSTATE_UNLOCK_S 600).set UNLOCK_AT s.now
  (s.ev 0x2022 0 scope key).finish d stSuccess scope

/-- 0x71 UNLOCK_RESPONSE: bytes 0 to 3 the scope, then the signature (R131, R301, R415). -/
def execUnlockResponse (r : Nat) (data : Option (List Byte)) (s : State) : Host.Outcome State Fault Refusal :=
  .next (s.startRead r 0x71 data fun s d bs =>
    let scope := bs.take 4
    let fresh := s.on NONCE_ON && decide (s.now < s.get NONCE_AT + 60000 * grainsMs)
    if 16 ≤ ofLe scope then s.finish d stBadParam
    else if s.on DBG_UNLOCKSTAT_LOCKOUT then s.unlockRefuse d 2
    else if !fresh then (s.set NONCE_ON 0).unlockRefuse d 1
    else
      let key := s.unlockKey scope (bs.drop 4)
      let s := s.set NONCE_ON 0
      match key with
      | none => s.unlockWrong d
      | some k =>
        let s := s.set DBG_UNLOCKSTAT_FAILS 0
        if s.maintPermit then s.unlockGrant d (ofLe scope) k else s.finish d stNoPermit)

end Sys2Proof.Machine
end

