-- ==== Sys2Proof/Machine/Balance.lean ====
section
/-! DEFINITION. Presentations, the late window, verdicts and pad minorities: the rows in which the balance works
(R32, R86 to R90, R93, R95, R96). The three units follow one procedure on the same presentations, so one balance for each
task stands for them (log 6). -/

namespace Sys2Proof.Machine
open Reg Hid

/-- An earlier presentation that agrees with this one. -/
def State.partner (s : State) (t : Nat) (l : Lane) (p : Pres) : Option (Lane × Pres) :=
  if s.exercised t l then none
  else (s.bal t).seen.find? fun q => !s.exercised t q.1 && q.2.agrees p

/-- The third presentation, after two have agreed on `v` (R87): in time, or lane dissent. Where the two trip, the outcome stays
trip by majority and no lane changes state (R99, R117). -/
def State.presentThird (s : State) (t : Nat) (l : Lane) (p v : Pres) : State :=
  let b := s.bal t
  let src := ((b.seen.find? fun q => q.2.agrees v).map (·.1)).getD l
  let s := (s.setBal t { b with seen := b.seen ++ [(l, p)] }).set (LATE_AT t) 0
  if s.exercised t l || p.agrees v then
    if v.kind = 0 then
      let s := s.balLast t 1 0
      let s := if s.exercised t l then s else (s.set (MODE_PROB t) 0).agreed t [l]
      s.takeVoted l t
    else s
  else (if v.kind = 0 then s.takeVoted l t else s).laneDissent t l src p v

/-- Two presentations agree (R87): the voted result, the late window for a third lane, and the attribution of a lane that had
presented something else. Where that lane presented "trip" before the two images agreed, the outcome is the majority after
disagreement of R87 and not the lane dissent that R74 names (the model's choice, log 83). -/
def State.presentPair (s : State) (t : Nat) (l m : Lane) (p : Pres) : State :=
  let b := s.bal t
  let odd := b.seen.filter fun q => !(q.2.agrees p && !s.exercised t q.1)
  let waits := decide (b.seen.length + 1 < (s.voters t).length)
  let s := s.setBal t { b with seen := b.seen ++ [(l, p)], voted := some p, weight := (s.ctx m t).weight }
  let s := match p with
    | .image ws _ =>
      if b.deadline then s
      else
        let s := (s.balanceDone t m ws).agreed t [m, l]
        if waits then s.set (LATE_AT t) (s.lateClose t)
        else if odd.isEmpty then s.balLast t 6 0 else s.balLast t 1 0
    | _ => (s.set (TRIP_NEXT t) 1).balLast t 7 0
  s.each odd fun s q =>
    if s.exercised t q.1 then s
    else match p with
      | .image _ _ => s.majorityAfter t q.1 m q.2 p
      | _ => s.laneDissent t q.1 m q.2 p

/-- A presentation that agrees with none so far: no majority when it is the last, which with two lanes in the vote is
loss of a second lane (R87 to R89). -/
def State.presentAlone (s : State) (t : Nat) (l : Lane) (p : Pres) : State :=
  let b := s.bal t
  let seen := b.seen ++ [(l, p)]
  let n := (s.voters t).length
  let s := s.setBal t { b with seen := seen }
  if seen.length < n ∨ b.deadline = true then s
  else if n = 3 then (s.noMajority t 0).balLast t 5 0
  else ((s.noMajority t 1).balLast t 5 0).enterSafe 1 s.outMask

/-- What the balance does with a presentation (R86 to R89). A presentation after the late window is discarded; its
lateness is kept for event 0x1003. -/
def State.present (s : State) (t : Nat) (l : Lane) (p : Pres) : State :=
  let b := s.bal t
  if b.closed then
    if s.on (ASSAY_STEP l.idx) then s.set (ASSAY_LATE l.idx) ((s.now - s.get (CLOSED_AT t)) / grainsUs) else s
  else match b.voted with
    | some v => s.presentThird t l p v
    | none =>
      match s.partner t l p with
      | some q => s.presentPair t l q.1 p
      | none => s.presentAlone t l p

/-- A balance unit that did not report the exercised dissent: a balance verdict fault of its lane (R95, R96). -/
def State.verdictFault (s : State) (t : Nat) (l : Lane) (kind : Nat) : State :=
  ((s.raise (BAL_EVT_VERDICT l.idx) BAL_CNT_VERDICT_CNT).ev 0x1009 l.code t kind).trigger l 8 t

/-- The output side of a vote exercise: done once the exercised lane has presented; `missing` are the units that did
not report it (R95, R96). -/
def State.exerciseOut (s : State) (t : Nat) (missing : List Lane) : State :=
  let w := s.get (TSK_QSLICE_LEN t)
  let s := (s.set (VEX_OUT t) (if w = 0 then 0 else (s.get (VEX_OUT t) + 1) % w)).inc BAL_VEXSTAT_DONE
  s.each missing fun s l => s.verdictFault t l 1

/-- A lane's presentation reaches the balance units and is voted; one word of an exercised lane's is inverted (R32, R86 to R89,
R95). -/
def execPresentation (t : Nat) (l : Lane) (missing : List Lane) (s : State) : Host.Outcome State Fault Refusal :=
  occurs (decide (t < 16)) s fun s =>
    match s.presOf l t with
    | none => s
    | some p =>
      let s := (s.setPres l t none).lateDue t
      if s.safe || (!s.votes l t && !(s.bal t).closed) then s
      else if s.exercised t l then (s.present t l (p.inverted (s.get (VEX_OUT t)))).exerciseOut t missing
      else s.present t l p

/-- The late window of a task closes, at the instant that R32 gives (R32, R87). -/
def execLateWindowClose (t : Nat) (s : State) : Host.Outcome State Fault Refusal :=
  occurs (decide (t < 16) && s.on (LATE_AT t)) s fun s => (s.elapseTo (s.get (LATE_AT t))).closeLate t

/-- The verdicts compared, once those of every lane in the vote are there (R90). -/
def State.compareVerdicts (s : State) (t : Nat) (vs : List (Lane × Verdict)) : State :=
  let s := s.setBal t { s.bal t with verdicts := [] }
  let odd := vs.filter fun v => (vs.filter fun u => u.2 == v.2).length == 1
  if odd.isEmpty then s
  else if (s.voters t).length = 2 then s.enterSafe 1 s.outMask
  else if odd.length = 1 then s.each odd fun s v => s.verdictFault t v.1 0
  else (s.noMajority t 0).enterSafe 0 s.outMask

/-- A unit's verdict arrives; when those of every lane in the vote are there, one that differs from the other two is a balance
verdict fault, three different ones are no majority and loss of a second lane, two different ones of two lanes loss of a second
lane (R90, R100). -/
def execVerdict (t : Nat) (l : Lane) (v : Verdict) (s : State) : Host.Outcome State Fault Refusal :=
  occurs (decide (t < 16) && s.votes l t && !s.safe) s fun s =>
    let b := s.bal t
    let vs := (b.verdicts.filter fun u => u.1 != l) ++ [(l, v)]
    if vs.length < (s.voters t).length then s.setBal t { b with verdicts := vs } else s.compareVerdicts t vs

/-- Whether any lane holds a brake group whose output is the channel (R180). -/
def State.heldChannel (s : State) (c : Nat) : Bool :=
  (upto 16).any fun g => s.on (BRK_CFG_EN g) && s.get (BRK_CFG_OUTCH g) == c && Lane.all.any fun l => s.on (BRK_HOLD l.idx g)

/-- The task whose output slice commands a channel. -/
def State.outTask (s : State) (c : Nat) : Nat := s.get (FC_QBIND_TASK c)

/-- A minority detector reports a lane enable (R93): launch skew of at most 4 grains is nothing; any other minority on a
cell in VOTE is lane dissent of a lane that drives the channel, unless a hold is set (R180) or the cell is under
exercise (R95). -/
def execLaneEnableMinority (l : Lane) (c side grains : Nat) (atLaunch : Bool) (s : State) :
    Host.Outcome State Fault Refusal :=
  let exercisedCell := tasks.any fun t => s.get (VEX_CELL t) == 2 * c + side + 1 && s.get (VEX_NOW t) == l.code
  occurs (decide (c < 64) && decide (side < 2) && s.get (BAL_FOLLOW c) == 0 && s.voting l && s.on (LAUNCHED l.idx c) &&
      !s.heldChannel c && !exercisedCell && !(atLaunch && decide (grains ≤ 4))) s fun s =>
    ((s.raise (LN_EVT_DISSENT l.idx) (LN_CNT_DISSENT_CNT l.idx)).ev 0x100B l.code c side).trigger l 9 (s.outTask c)

/-- An exchange protocol error on a link: attributed to the lane at whose door the other two lay it (R100). -/
def State.protoError (s : State) (link kind : Nat) (blamed : Option Lane) : State :=
  let s := (s.raise (XCH_EVT_PROTO link) XCH_PROTOCNT_CNT).ev 0x1007 ((blamed.map Lane.code).getD 0) link kind
  match blamed with
  | some l => s.trigger l 6
  | none => s

/-- A handshake incomplete within 20 µs (R100). -/
def execExchangeHandshakeTimeout (link : Nat) (blamed : Option Lane) (s : State) : Host.Outcome State Fault Refusal :=
  occurs (decide (link < 6)) s fun s => (s.set (XCH_STATUS_LINK_UP link) 0).protoError link 0 blamed

/-- A transfer of the wrong length (R100). -/
def execWrongLengthTransfer (link : Nat) (blamed : Option Lane) (s : State) : Host.Outcome State Fault Refusal :=
  occurs (decide (link < 6)) s fun s => s.protoError link 1 blamed

/-- TSK_MAX_N returns to 0 and TSK_MARGIN to 0x7F_FFFF (R77). -/
def State.maxClear (s : State) (t : Nat) : State := (s.set (TSK_MAX_N_N t) 0).set (TSK_MARGIN_MIN_SLACK t) 0x7FFFFF

/-- TSK_CLR.MAXCLR (R77). -/
def execTskMaxclr (t : Nat) (s : State) : Host.Outcome State Fault Refusal :=
  occurs (decide (t < 16)) s fun s => s.maxClear t

end Sys2Proof.Machine
end

