-- ==== Sys2Proof/Machine/Reset.lean ====
section
/-! DEFINITION. Resets: what survives one, what a start begins with, and the end of the PFAIL_N sequence (R382, R383, R389,
R424 to R431, R442, R450, R451). -/

namespace Sys2Proof.Machine
open Reg Hid

/-! ### What survives (R101, R103, R105, R192, R382, R395, R426, R433) -/

/-- The fields that a reset keeps, each with the number of its neighbours: what MRAM and the always-on domain hold, levels of
pins and rails, the PHYs' and the TAP's own state. -/
def keptFields : List (Fld × Nat) :=
  [(NV_RETIRED 0, 3), (NV_UNRET 0, 3), (NV_LATCH 0, 16), (NV_PCYC, 1), (NV_JSTATE, 1), (NV_JKINDS, 1), (NV_SETACT, 1),
   (NV_SESNO, 1), (NV_FUSE, 1), (NV_SETBAD, 1), (OPT_IDX, 1), (AON_OPT, 1), (AON_PCYC, 1), (AON_OK, 1), (WK_STEP, 1), (WK_SRC, 1),
   (WK_FROM, 1), (WK_US, 1), (WK_TRY, 1), (WK_DOWN, 1), (WK_LOST, 1), (WK_KEEP, 1), (WK_FAIL 0, 3), (RET_CRC 0, 23),
   (WF_N, 1), (WF_CODE 0, 8), (WF_DROPS, 1), (WF_FINAL, 1), (PCIE_WAKE, 1), (TEST_EN, 1), (PORST_LOW, 1), (PW_STATE, 1),
   (START_CAUSE, 1), (BANKF 0, 2), (LANE_RESET 0, 3), (PERST, 1), (PHY_LINK 0, 4), (TAP_IR, 1), (TAP_DR, 1), (TAP_BSR, 4),
   (PWR_RET_BANKS 0, 1), (PWR_WCFG_WAKEN_EN, 1), (GLB_SUPPLY_PG_CORE, 1)]

/-- Whether a reset keeps the field of a key; a register is kept whole. -/
def keeps (k : Nat) : Bool :=
  keptFields.any fun p => decide (32 * p.1.addr ≤ k) && decide (k < 32 * p.1.addr + 32 * p.2)

/-- The memory of MRAM: images, recorder, snapshots, operating time, settings, undo, keys and floors, as first address and
length (R28, R384, R395). -/
def nvRanges : List (Nat × Nat) :=
  [(imageArea, 0x400000), (foundingSlot 0, 0x80000), (snapSlot 0, 0x40000), (optWord 0, 0x100), (settingsCopy 0, 0x721000)]

/-- The memory of the retention banks of a mask that hold memory of the model: flow buffers and CAN message memory (R426). -/
def retRanges (m : Nat) : List (Nat × Nat) :=
  ((upto 16).filter fun j => m.testBit (6 + j)).map (fun j => (flowBuf (32 * j), 0x10000)) ++
    (if m.testBit 22 then [(canMem 0 0, 0x10000)] else [])

/-- An address inside one of the ranges. -/
def inRanges (rs : List (Nat × Nat)) (a : Nat) : Bool := rs.any fun r => decide (r.1 ≤ a) && decide (a < r.1 + r.2)

/-- What remains of the device in a reset that keeps the retention banks of a mask: a commit or a snapshot write in progress
tears its slot, the queue of the recorder and every other volatile memory are lost, and the lanes' memories hold anything
(R389, R424, R426, R442, log 4). -/
def State.remains (s : State) (keep : Nat) : State :=
  let s := if s.on SNAP_BUSY then s.destroy (snapSlot (s.get SNAP_SLOT)) 0x20000 else s
  let rs := nvRanges ++ retRanges keep
  let r : State := { State.reset with
    pending := s.pending, freeCount := s.freeCount, hostMem := s.hostMem, transients := s.transients,
    fld := s.fld.filter fun p => keeps p.1, mem := s.mem.filter fun c => inRanges rs c.1,
    junk := rs.flatMap fun x => s.junk.flatMap fun j => j.moved x.1 x.1 x.2 }
  let r := r.destroy 0 0x600000
  if keep.testBit 22 then r.each cans fun r n => r.each (upto 128) fun r k => r.zero (canMem n k + 32) 4 else r

/-- Internal reset is entered, with the cause that event 0x0001 will give: 0 power-up, 1 PORST_N, 2 device reset, 3 wake from
DEEP SLEEP, 4 wake from OFF (R434, R442). -/
def State.cold (s : State) (cause keep : Nat) : State :=
  (((s.remains keep).set IN_RESET 1).set START_CAUSE cause).set PW_STATE 0

/-- A device reset (R12, R438, R451). -/
def State.deviceReset (s : State) (cause : Nat) : State := (((s.cold cause 0).set WK_STEP 0).set WK_DOWN 0).set PCIE_WAKE 0

/-! ### PFAIL_N (R389) -/

/-- Where the snapshot and the recorder's work of PFAIL_N have ended: operating time and power-cycle count are written, the
sequence ends, and a deferred PORST_N reset takes effect (R389, R451). -/
def State.pfailStep (s : State) : State :=
  if s.on PFAIL_SEQ && !s.on SNAP_BUSY && s.recQ.isEmpty && s.recRew.isEmpty then
    let s := ((s.saveOpTime).set NV_PCYC (s.get REC_PCYC_COUNT)).set PFAIL_SEQ 0
    if s.on PORST_DEFER then s.deviceReset 1 else s
  else s

/-! ### The start (R99, R105, R382, R383, R431, R439, R450, R465) -/

/-- The states the lanes start with: an accepted un-retire has its effect, a retired lane stays retired, and with fewer than
two lanes left the device enters its safe state (R98, R99, R105, R106). -/
def State.startLanes (s : State) (fail : List Lane) : State :=
  let s := s.each (Lane.all.filter fun l => s.on (NV_UNRET l.idx)) fun s l =>
    let s := (s.set (NV_UNRET l.idx) 0).set (NV_RETIRED l.idx) 0
    { s with transients := Sparse.set s.transients l.idx [] [] }
  let s := s.each (Lane.all.filter fun l => s.on (NV_RETIRED l.idx)) fun s l => s.setLane l .retired
  let s := s.selfCheck fail
  if 2 ≤ (Lane.all.filter fun l => s.lane l == .retired).length then s.enterSafe 2 s.outMask else s

/-- Operating time resumes: from the always-on shadow, or from MRAM with event 0xA005 (R382). -/
def State.resumeOpTime (s : State) : State :=
  if s.on AON_OK then s.setOpTime (s.get AON_OPT)
  else
    let t := s.savedOpTime
    ((s.setOpTime t).raise REC_EVT_RESTORE REC_EVCNT_OTHER_CNT).ev 0xA005 0 (t / 1000)

/-- The power-cycle count advances, in its register, in MRAM and in the always-on shadow (R383). -/
def State.countCycle (s : State) : State :=
  let n := min (2 ^ 32 - 1) ((if s.on AON_OK then s.get AON_PCYC else s.get NV_PCYC) + 1)
  (((s.set REC_PCYC_COUNT n).set NV_PCYC n).set AON_PCYC n).set AON_OK 1

/-- The wake-fault codes and the drop count become events, and the latch is cleared (R431). -/
def State.wakeFaults (s : State) : State :=
  let n := min 8 (s.get WF_N)
  let s := s.each (upto n) fun s i =>
    let w := s.get (WF_CODE i)
    s.enqueueRec 0x0020 (s.srcByte 0) w (w % 8) (w / 64 % 8) (w / 16 % 4) 4
  let s := if n = 0 then s else s.raise PWR_EVT_WAKEFAIL PWR_EVCNT_OTHER_CNT
  let d := s.get WF_DROPS
  let s := if d = 0 then s else (s.raise PWR_EVT_WFDROP PWR_EVCNT_OTHER_CNT).ev 0x0023 0 d
  let s := (s.set PWR_WFAULT_WRITTEN n).set PWR_WFAULT_DROPPED d
  ((s.set WF_N 0).set WF_DROPS 0).set WF_FINAL 0

/-- What a start records of the wake that led to it (R426, R429, R434). -/
def State.startWake (s : State) : State :=
  if s.get START_CAUSE = 3 ∨ s.get START_CAUSE = 4 then
    let s := s.showWake
    let lost := s.get WK_LOST
    if lost = 0 then s else (s.raise PWR_EVT_RETLOST PWR_EVCNT_OTHER_CNT).ev 0x0022 0 lost
  else s

/-- Internal reset is released (R99, R171, R233, R263, R340, R382, R383, R431, R439, R450).
-/
def State.release450 (s : State) (devid side us : Nat) (fail : List Lane) : State :=
  let fail := fail ++ Lane.all.filter fun l => s.on (WK_FAIL l.idx)
  let s := ((s.set IN_RESET 0).set RELEASED 1).restore (WK_FAIL 0) 3
  let s := ((s.set GLB_STRAP_DEVID devid).set GRP_STAT_DEVID devid).set GLB_STRAP_TWIN_SIDE side
  let s := s.put GLB_STRAP_PORST (s.get START_CAUSE == 1)
  let s := (((s.set TB_STATUS_PLL_LOCK 1).set TB_STATUS_XTAL_OK 1).set START_US us).set START_STEP 0
  let s := (s.resumeOpTime.countCycle).each (upto 2) fun s b => s.put (GLB_SUPPLY_BANK_OK b) (!s.on (BANKF b))
  let s := s.each (upto 64) fun s c => s.put (FC_STATUS_BANK_OK c) (!s.on (BANKF (c / 32)))
  let s := s.ev 0x0001 0 (s.get START_CAUSE) (s.get REC_PCYC_COUNT)
  ((s.wakeFaults.startWake).set TICK_AT (s.now + grainsMs)).startLanes fail

end Sys2Proof.Machine
end

