-- ==== Sys2Proof/Machine/Commit.lean ====
section
/-! DEFINITION. Commits and rewrites of the recorder, each of which may be the last of PFAIL_N's work (R384, R386 to R389). -/

namespace Sys2Proof.Machine
open Reg Hid

/-- The record at the head of the queue is written and read back; `ok` says whether one of its three read-backs matched.
While PFAIL_N's snapshot is being written nothing is committed (R384, R386, R387, R389). -/
def execRecordCommit (ok : Bool) (s : State) : Host.Outcome State Fault Refusal :=
  occurs (s.on REC_STAT_READY && !s.on REC_STAT_EXHAUST && !s.finalDue && !s.blk 10 && !s.pfailHolds) s fun s =>
    match s.recQ with
    | [] => s
    | r :: q =>
      let seq := r.seq.getD 0
      let p := seqSlot seq
      let s := State.showQueue { s with recQ := q }
      let s := if ok then
          let s := (s.setBytes (slotAddr p.1 p.2) r.bytes).showNewest seq
          { s with recRecent := s.recRecent.map fun x => if x.id = r.id then { x with written := s.opTime } else x }
        else
          let s := s.destroy (slotAddr p.1 p.2) 32
          (s.raise REC_EVT_WRERR REC_EVCNT_OTHER_CNT).ev 0xA006 0 p.2 (bit p.1) seq
      let s := if seq = 8192 then s.closeFounding else s
      let s := if seq = 4294967295 then s.exhausted else s
      s.reportLoss.pfailStep

/-- A committed record that events have merged into is rewritten in its slot, at the earliest 100 ms after it was last
written, at the end of its window, or at PFAIL_N; never in a closed founding area (R384, R388). -/
def execRecordRewrite (seq : Nat) (s : State) : Host.Outcome State Fault Refusal :=
  occurs (!s.blk 10) s fun s =>
    match s.recRew.find? fun r => r.seq == some seq with
    | none => s
    | some r =>
      if s.opTime < r.written + 100 ∧ s.opTime < r.time + 1000 ∧ s.on GLB_SUPPLY_PFAIL = false then s
      else
        let s : State := { s with recRew := s.recRew.filter (fun x => x.id != r.id) }
        let s : State := { s with recRecent := s.recRecent.map fun x => if x.id = r.id then { x with written := s.opTime } else x }
        let s := if seq ≤ 8192 ∧ s.on REC_STAT_FCLOSED = true then s
          else s.setBytes (slotAddr (seqSlot seq).1 (seqSlot seq).2) r.bytes
        s.pfailStep

end Sys2Proof.Machine
end

