-- ==== Sys2Proof/Machine/Field.lean ====
section
/-! DEFINITION. The field channels: debounced contacts, discrepancy, sigma-delta windows, speed edges and bank supplies
(R148 to R163, R171, R175). -/

namespace Sys2Proof.Machine
open Reg Hid

/-- A channel that DEBOUNCE_END can concern: DUAL_CONTACT or PAIR_INPUT, its bank supplied (R149, R171). -/
def State.debounces (s : State) (c : Nat) : Bool :=
  decide (c < 64) && (s.get (FC_CFG_MODE c) == 1 || s.get (FC_CFG_MODE c) == 2) && !s.bankFault c

/-- The first grain in which a pin's debounced level can have become `v`: it has differed for DEB × 4000 grains since it changed
last, or for one with DEB = 0 (R149). -/
def State.debounceDue (s : State) (l : Lane) (c p : Nat) (v : Bool) : Nat :=
  if s.level l c p = v then s.now else s.get (DEB_AT l.idx c p) + max 1 (s.get (FC_FILT_DEB c) * 4000)

/-- A pin's debounced level in a lane (R149). -/
def State.setLevel (s : State) (l : Lane) (c p : Nat) (v : Bool) : State :=
  let s := s.setIf (s.level l c p != v) (DEB_AT l.idx c p) s.now
  s.put (DEB l.idx c p) v

/-- The grain in which the discrepancy timer of a lane expires (R151). -/
def State.discEnd (s : State) (l : Lane) (c : Nat) : Nat := s.get (DISC_AT l.idx c) + s.get (FC_FILT_DISC c) * 4 * grainsMs

/-- A discrepancy timer that has expired in an earlier grain has latched the fault (R151, R152). -/
def State.discDue (s : State) (l : Lane) (c : Nat) : State :=
  if s.get (FC_CFG_MODE c) = 1 ∧ s.dc l c = .discWait ∧ s.discEnd l c < s.now then s.setDc l c .fault else s

/-- The debounced levels of a channel's pins change in a lane, no earlier than its filter lets them; a contact that follows in the
grain in which the discrepancy timer expires is in time (R149 to R152, R178, R188). -/
def execDebounceEnd (l : Lane) (c : Nat) (a b : Bool) (s : State) : Host.Outcome State Fault Refusal :=
  occurs (s.debounces c) s fun s =>
    let s := s.elapseTo (max (s.debounceDue l c 0 a) (s.debounceDue l c 1 b))
    let s := ((s.discDue l c).setLevel l c 0 a).setLevel l c 1 b
    let s := (s.put (FC_STATUS_PINA c l.idx) a).put (FC_STATUS_PINB c l.idx) b
    let s := if s.get (FC_CFG_MODE c) = 1 then
        s.setDc l c ((s.dc l c).next (ndA a) (ndB (s.get (FC_CFG_WIRING c)) b)) else s
    s.each (s.readbackGroups c) fun s g => s.noteReadback l g

/-- The discrepancy timer of a lane reaches the discrepancy time: the fault is latched once the grain in which it expires is over,
since a contact that follows in that grain is in time (R151, R152, R173). -/
def execDiscrepancyTimeout (l : Lane) (c : Nat) (s : State) : Host.Outcome State Fault Refusal :=
  occurs (s.debounces c && s.get (FC_CFG_MODE c) == 1 && s.dc l c == .discWait) s fun s =>
    (s.elapseTo (s.discEnd l c + 1)).setDc l c .fault

/-! ### SD_MEASURE -/

/-- The oversampling ratio's logarithm m: OSR = 2^m (R157, R174). -/
def State.osrLog (s : State) (c : Nat) : Nat := s.get (FC_CFG_OSR c) + 4

/-- The 24-bit signed result of a window's sum before saturation (R157). -/
def sdResult (m sum : Nat) : Int :=
  let d : Int := (sum : Int) - (2 ^ (3 * m - 1) : Nat)
  if 3 * m ≤ 24 then d * (2 ^ (24 - 3 * m) : Nat) else d / (2 ^ (3 * m - 24) : Nat)

/-- A result cut to 24 bits, two's complement, saturating at 0x7F_FFFF (R157). -/
def sdWord (r : Int) : Nat := ((if r > 0x7FFFFF then 0x7FFFFF else r) % 16777216).toNat

/-- A result is over range: it saturates, or equals −8,388,608 (R159). -/
def sdOver (r : Int) : Bool := decide (r > 0x7FFFFF) || r == -8388608

/-- The agreed SD clock fault flag rises or falls with two lanes in the vote (R159). -/
def State.sdClockEvents (s : State) (c cause : Nat) : State :=
  let bad := fun (l : Lane) => s.on (SD_CLKF l.idx c)
  let mask := laneMask bad
  if !s.on (SD_CLKEV c) && decide (2 ≤ s.votersWith bad) then
    ((s.set (SD_CLKEV c) 1).raise (FC_EVT_SDCLK c) (FC_EVCNT_OTHER_CNT c)).ev 0x3005 0 c cause mask
  else if s.on (SD_CLKEV c) && decide (2 ≤ s.votersWith fun l => !bad l) then
    (s.set (SD_CLKEV c) 0).ev 0x3006 0 c (laneMask fun l => !bad l)
  else s

/-- A lane reports an SD clock fault: cause 0 no edges, 1 loop delay out of range (R159). -/
def State.sdClockFault (s : State) (l : Lane) (c cause : Nat) : State :=
  let s := ((s.set (SD_CLKF l.idx c) 1).set (SD_FLT_AT l.idx c) s.now).set (FC_STATUS_SDCLK_OK c l.idx) 0
  (s.setIf (cause == 0) (FC_LOOPD_L c l.idx) 0xFF).sdClockEvents c cause

/-- The SD clock that a channel selects, and the grains of its edges: 250 MHz divided, from its first rising edge on (R155). -/
def State.sdDiv (s : State) (c : Nat) : Nat := s.get (FC_SDCLK_DIV (s.get (FC_CFG_SDSRC c)))

/-- The grain of the last SDCLK edge that launches window `j` of a channel, edge j × OSR + OSR − 1 (R155, R157). -/
def State.sdLastEdge (s : State) (c j : Nat) : Nat :=
  s.get SDCLK_T0 + s.sdDiv c * (j * 2 ^ s.osrLog c + (2 ^ s.osrLog c - 1))

/-- The older windows make place for a new one; three are kept, since the newest that a latch may take lies at most 320 grains
behind it (R158). -/
def State.sdShift (s : State) (l : Lane) (c : Nat) : State :=
  let s := (s.set (SD_R3 l.idx c) (s.get (SD_R2 l.idx c))).set (SD_WIN3 l.idx c) (s.get (SD_WIN2 l.idx c))
  let s := (s.set (SD_EDGE3 l.idx c) (s.get (SD_EDGE2 l.idx c))).set (SD_OVR3 l.idx c) (s.get (SD_OVR2 l.idx c))
  let s := (s.set (SD_R2 l.idx c) (s.get (SD_R l.idx c))).set (SD_WIN2 l.idx c) (s.get (SD_WIN l.idx c))
  (s.set (SD_EDGE2 l.idx c) (s.get (SD_EDGE l.idx c))).set (SD_OVR2 l.idx c) (s.get (SD_OVR l.idx c))

/-- Raises event 0x3007 with its flag: source 0 where lanes agree on it, else the lane that saw it (R159, R175). -/
def State.sdOverEvent (s : State) (c src high : Nat) : State :=
  (s.raise (FC_EVT_SDOVR c) (FC_EVCNT_OTHER_CNT c)).ev 0x3007 src c high

/-- An overrange that one lane alone saw in an earlier window than `w` is that lane's event (R175, log 96). -/
def State.sdOverAlone (s : State) (c w : Nat) : State :=
  if s.on (SD_OVW c) && decide (s.get (SD_OVW c) < w) then
    (if s.on (SD_OVL c) then s.sdOverEvent c (s.get (SD_OVL c)) (s.get (SD_OVH c)) else s).set (SD_OVW c) 0
  else s

/-- A lane's window `w` is over range: the second lane in the vote that sees it makes it an agreed event (R159, R175, log 96). -/
def State.sdOverSeen (s : State) (l : Lane) (c w : Nat) (high : Bool) : State :=
  if s.get (SD_OVW c) = w ∧ s.get (SD_OVL c) ≠ l.code then
    let s := if s.on (SD_OVL c) then s.sdOverEvent c 0 (bit high) else s
    s.set (SD_OVL c) 0
  else ((s.set (SD_OVW c) w).set (SD_OVL c) l.code).put (SD_OVH c) high

/-- A decimation window of a channel completes in a lane with the sum S, number j, the grain of its last launching
SDCLK edge and the measured loop delay: not before that edge has returned and its bit is captured. A loop delay out of range is an SD
clock fault. A window of a faulted clock, or one that began before the clock was restored, yields nothing (R155 to R157, R159). -/
def execSdWindowComplete (l : Lane) (c j sum edge loop : Nat) (s : State) : Host.Outcome State Fault Refusal :=
  occurs (decide (c < 64) && s.get (FC_CFG_MODE c) == 3 && decide (s.get (FC_CFG_OSR c) ≤ 5) &&
      decide (sum ≤ 2 ^ (3 * s.osrLog c)) && !s.on (SD_CLKF l.idx c) && decide (s.get (SD_SKIP l.idx c) ≤ j + 1) &&
      !s.bankFault c && edge == s.sdLastEdge c j && decide (s.get (SD_WIN l.idx c) ≤ j)) s fun s =>
    let s := s.elapseTo (edge + loop + s.get (FC_CFG_DLY c))
    if 250 < loop then s.sdClockFault l c 1
    else
      let r := sdResult (s.osrLog c) sum
      let s := s.sdShift l c
      let s := ((s.set (SD_R l.idx c) (sdWord r)).set (SD_WIN l.idx c) (j + 1)).set (SD_EDGE l.idx c) edge
      let s := (s.put (SD_OVR l.idx c) (sdOver r)).set (FC_LOOPD_L c l.idx) loop
      let (lv, s) := s.free 2
      let s := (s.put (FC_STATUS_PINA c l.idx) (lv.testBit 0)).put (FC_STATUS_PINB c l.idx) (lv.testBit 1)
      let s := s.sdOverAlone c (j + 1)
      if sdOver r then s.sdOverSeen l c (j + 1) (decide (r > 0)) else s

/-- No returned edge for 4 SDCLK periods after the last one that is known, or the loop delay out of range (R159). -/
def execSdClockFault (l : Lane) (c cause : Nat) (s : State) : Host.Outcome State Fault Refusal :=
  occurs (decide (c < 64) && s.get (FC_CFG_MODE c) == 3 && decide (cause < 2) && !s.on (SD_CLKF l.idx c)) s fun s =>
    let from_ := max (s.get SDCLK_T0) (s.get (SD_EDGE l.idx c))
    (if cause = 0 then s.elapseTo (from_ + 4 * s.sdDiv c) else s).sdClockFault l c cause

/-- The earliest grain of an edge that clears a lane's fault so that window `j` is the first to start after it: 3 × OSR edges have
returned since the fault, and the window before has begun (R159). -/
def State.sdClearAt (s : State) (l : Lane) (c j : Nat) : Nat :=
  max (s.get (SD_FLT_AT l.idx c) + 3 * 2 ^ s.osrLog c * s.sdDiv c) (s.get SDCLK_T0 + s.sdDiv c * ((j - 1) * 2 ^ s.osrLog c))

/-- 3 × OSR good returned edges clear the fault; window `j` is the first to start after the clearing edge, which left at most 250
grains before it returned (R159). -/
def execSdClockRestored (l : Lane) (c j : Nat) (s : State) : Host.Outcome State Fault Refusal :=
  occurs (decide (c < 64) && s.get (FC_CFG_MODE c) == 3 && s.on (SD_CLKF l.idx c) && !s.bankFault c &&
      decide (max s.now (s.sdClearAt l c j) < s.get SDCLK_T0 + s.sdDiv c * (j * 2 ^ s.osrLog c) + 250)) s fun s =>
    let s := s.elapseTo (s.sdClearAt l c j)
    let s := (s.set (SD_CLKF l.idx c) 0).set (FC_STATUS_SDCLK_OK c l.idx) 1
    let s := ((s.set (SD_SKIP l.idx c) (j + 1)).set (SD_WIN l.idx c) 0).set (SD_WIN2 l.idx c) 0
    (s.set (SD_WIN3 l.idx c) 0).sdClockEvents c 0

/-! ### SPEED -/

/-- The direction of travel in which an edge of a two-phase sensor can occur: forward, phase A leads (R161). -/
def edgeForward (e : SpeedEdge) : Bool := e.rising != (e.phaseA == e.other)

/-- An edge breaks the order of the quadrature: both pins in one grain, or two edges of one phase with none of the other
between them while the direction of travel stays the same; a reversal is no error (R161). -/
def State.phaseError (s : State) (l : Lane) (c : Nat) (e : SpeedEdge) : Bool :=
  s.get (FC_CFG_SPMODE c) == 0 &&
    (e.both || (s.get (SPD_LASTPH l.idx c) == (if e.phaseA then 1 else 2) && s.get (SPD_LASTDIR l.idx c) == bit (edgeForward e)))

/-- A phase's level has held for MINPW grains between two accepted edges; a shorter pulse is a glitch (R160). -/
def State.pulseHeld (s : State) (l : Lane) (c : Nat) (e : SpeedEdge) : Bool :=
  let last := s.get (SPD_EDGE l.idx c (bit (!e.phaseA)))
  last == 0 || decide (last - 1 + s.get (FC_SPD_MINPW c) ≤ e.at_)

/-- The direction that a rising edge of A shows, 1 forward (R161). -/
def State.edgeDir (s : State) (l : Lane) (c : Nat) (e : SpeedEdge) : Nat :=
  match s.get (FC_CFG_SPMODE c) with
  | 0 => if s.phaseError l c e then s.get (SPD_DIR l.idx c) else bit (!e.other)
  | 1 => bit e.other
  | _ => 1

/-- A rising edge of A: the count, the direction, and the times that give the period (R161, R162). -/
def State.speedPulse (s : State) (l : Lane) (c : Nat) (e : SpeedEdge) : State :=
  let d := s.edgeDir l c e
  let n := s.get (SPD_CNT l.idx c)
  let s := (s.set (SPD_CNT l.idx c) (if d = 1 then n + 1 else n + 4294967295)).set (SPD_DIR l.idx c) d
  let s := (s.set (SPD_PREV l.idx c) (s.get (SPD_LAST l.idx c))).set (SPD_LAST l.idx c) (e.at_ + 1)
  (s.put (SPD_ONE l.idx c) (s.on (SPD_STILL l.idx c))).set (SPD_STILL l.idx c) 0

/-- A lane accepts an edge of a speed sensor, MINPW grains after the level began; a phase error is kept for the next action instant
(R160, R161). -/
def execSpeedEdgeAccepted (l : Lane) (c : Nat) (e : SpeedEdge) (s : State) : Host.Outcome State Fault Refusal :=
  occurs (decide (c < 64) && s.get (FC_CFG_MODE c) == 4 && decide (s.get (FC_CFG_SPMODE c) < 3) && !s.bankFault c &&
      (e.phaseA || s.get (FC_CFG_SPMODE c) != 2) && s.pulseHeld l c e) s fun s =>
    let s := s.elapseTo (e.at_ + s.get (FC_SPD_MINPW c))
    let err := s.phaseError l c e
    let s := if e.phaseA && e.rising then s.speedPulse l c e else s
    let s := (s.set (SPD_LASTPH l.idx c) (if e.phaseA then 1 else 2)).put (SPD_LASTDIR l.idx c) (edgeForward e)
    let s := s.set (SPD_EDGE l.idx c (bit (!e.phaseA))) (e.at_ + 1)
    let s := s.put (FC_STATUS_PINA c l.idx) (if e.phaseA then e.rising else e.other)
    let s := s.put (FC_STATUS_PINB c l.idx) (if e.phaseA then e.other else e.rising)
    s.setIf err (SPD_PHASE l.idx c) 1

/-- No rising edge of A accepted for STILL ms (R162). -/
def execStandstill (l : Lane) (c : Nat) (s : State) : Host.Outcome State Fault Refusal :=
  occurs (decide (c < 64) && s.get (FC_CFG_MODE c) == 4 && !s.on (SPD_STILL l.idx c)) s fun s =>
    (s.elapseTo (s.get (SPD_LAST l.idx c) - 1 + s.get (FC_SPD_STILL c) * grainsMs)).set (SPD_STILL l.idx c) 1

/-! ### Supply banks -/

/-- The channels of a bank. -/
def bankChannels (b : Nat) : List Nat := (upto 64).filter fun c => bankOf c == b

/-- A channel's filters at a bank fault: DUAL_CONTACT goes to demand with its flag kept, SD takes the clock-fault
handling, an output goes de-energised (R151, R171). -/
def State.bankDown (s : State) (c : Nat) : State :=
  let m := s.get (FC_CFG_MODE c)
  let s := s.raise (FC_EVT_BANK c) (FC_EVCNT_OTHER_CNT c)
  if m = 1 then
    s.each Lane.all fun s l =>
      let s := (s.set (DEB l.idx c 0) 0).put (DEB l.idx c 1) (s.get (FC_CFG_WIRING c) == 1)
      s.setDc l c (if s.on (DISC_FLAG l.idx c) then .fault else .dem)
  else if m = 3 then s.each Lane.all fun s l => s.sdClockFault l c 0
  else if m = 5 then
    s.each Lane.all fun s l => (s.set (DRIVE l.idx c 0) 0).set (DRIVE l.idx c 1) 0
  else s

/-- A bank's supply stays below the fault threshold for 16 µs (R171). -/
def execBankSupplyFault (b : Nat) (s : State) : Host.Outcome State Fault Refusal :=
  occurs (decide (b < 2) && !s.on (BANKF b)) s fun s =>
    let n := ((bankChannels b).filter fun c =>
      s.on (FC_CFG_SAFETY c) && (s.on (FC_IBIND_EN c) || s.on (FC_QBIND_EN c))).length
    let s := ((s.set (BANKF b) 1).set (BANK_AT b) s.now).set (GLB_SUPPLY_BANK_OK b) 0
    let s := s.each (bankChannels b) fun s c => s.set (FC_STATUS_BANK_OK c) 0
    let s := s.each ((bankChannels b).filter fun c => s.on (FC_CFG_MODE c)) State.bankDown
    let s := s.each (groups.filter fun g => s.grpOn g && bankOf (s.get (BRK_CFG_OUTCH g)) == b) State.driveGroup
    let s := s.each (groups.filter fun g => s.grpOn g && bankOf (s.get (BRK_CFG_RBCH g)) == b) fun s g =>
      s.each Lane.all fun s l => s.noteReadback l g
    s.ev 0x3003 0 b n

/-- A bank's supply stays above the restore threshold for 1 ms: inputs restart from the filter start state, outputs
return at the next action instant of their task and are required to be low until then (R166, R171). -/
def execBankSupplyRestored (b : Nat) (s : State) : Host.Outcome State Fault Refusal :=
  occurs (decide (b < 2) && s.on (BANKF b)) s fun s =>
    let ms := (s.now - s.get (BANK_AT b)) / grainsMs
    let s := (s.set (BANKF b) 0).set (GLB_SUPPLY_BANK_OK b) 1
    let s := s.each (bankChannels b) fun s c =>
      let s := s.set (FC_STATUS_BANK_OK c) 1
      let s := s.each Lane.all fun s l => (s.set (DEB_AT l.idx c 0) s.now).set (DEB_AT l.idx c 1) s.now
      if s.get (FC_CFG_MODE c) = 2 then
        s.each Lane.all fun s l => (s.set (DEB l.idx c 0) 0).set (DEB l.idx c 1) 0
      else if s.get (FC_CFG_MODE c) = 5 then
        ((s.set (REQ_LVL c 0) 0).set (REQ_LVL c 1) 0).each Lane.all fun s l => s.set (LAUNCHED l.idx c) 0
      else s
    s.ev 0x3004 0 b (min 65535 ms)

end Sys2Proof.Machine
end

