-- ==== Sys2Proof/Machine/Olc.lean ====
section
/-! DEFINITION. On-line change and the end of a retained snapshot's write (R127, R135 to R139, R143). -/

namespace Sys2Proof.Machine
open Reg Hid

/-- A lane's program memory takes the new and changed POUs of the on-line change (R136). -/
def State.loadChanged (s : State) (l : Lane) (im : LogicImage) : State :=
  s.each im.changedPous fun s p =>
    match im.pous[p]? with
    | some q => s.setWords (progBase l + 4 * q.entry) ((im.code.drop q.entry).take q.len)
    | none => s

/-- Every lane has confirmed: the switch is armed for the first furlong at least one whole furlong away (R136). -/
def State.olcArm (s : State) (im : LogicImage) : State :=
  let f := ceilDiv (s.netTime + s.furlongGrains) s.furlongGrains
  let s := ((s.set DBG_OLC_STATE 2).set OLC_F f).set DBG_OLCF_F f
  ((s.ev 0x2040 0 (f % 2 ^ 32) im.changedPous.length).settle 0x64 (fun _ => true) stSuccess 0).olcReply stSuccess 0

/-- A lane in the vote confirms its copy of the on-line change, or finds that its digest does not match (R136). -/
def execOlcCopyConfirmed (l : Lane) (ok : Bool) (s : State) : Host.Outcome State Fault Refusal :=
  occurs (s.get DBG_OLC_STATE == 1 && s.inVote l && !s.on (OLC_OK l.idx)) s fun s =>
    match s.olcImage with
    | none => s
    | some im =>
      if !ok then s.olcAbort 4
      else
        let s := (s.loadChanged l im).set (OLC_OK l.idx) 1
        if (Lane.all.filter s.inVote).all fun m => s.on (OLC_OK m.idx) then s.olcArm im else s

/-- A lane keeps its instances and edge bits as the old code left them, and a scan in progress ends on the old code
(R136). -/
def State.keepOld (s : State) (l : Lane) : State :=
  let d := oldBank true
  let s := s.copy (timerBase l) (timerBase l + d) 65536
  let s := (s.copy (counterBase l) (counterBase l + d) 65536).copy (edgeBase l) (edgeBase l + d) 2048
  s.each tasks fun s t => if s.inScan l t then s.setCtx l t { s.ctx l t with old := true } else s

/-- Variables that only the new image has take their initial values (R138). -/
def State.newVars (s : State) (old im : LogicImage) (l : Lane) : State :=
  let s := s.each (im.vars.filter fun v => !old.vars.any fun o => o.id == v.id) fun s v =>
    s.initData im l v.addr v.size
  let kept := old.tasks.flatMap fun p => p.2.retained
  s.each ((im.tasks.flatMap fun p => p.2.retained).filter fun a => !kept.contains a) fun s a =>
    s.setWord (commitBase l + a) (s.word (dataBase l + a))

/-- An input force's word lies in the entry of a source that is bound to the task in whose slice it lies (R143). -/
def State.inputBound (s : State) (i : Nat) : Bool :=
  let f := s.forceAt (forceEntry i)
  match f.out, s.sliceOwner .I f.addr with
  | false, some t => (s.latchSrcs t ++ (s.inputImports t).map Src.imp).any fun x =>
      inEntry f.addr (s.srcPlace x).1 (4 * (s.srcPlace x).2)
  | _, _ => false

/-- What becomes of a force at F; `was` names the entries whose word a source was bound to until then (R143). -/
def State.checkForce (was : List Nat) (s : State) (i : Nat) : State :=
  let f := s.forceAt (forceEntry i)
  match s.sliceOwner f.space f.addr, was.contains i && !s.inputBound i with
  | none, _ => (s.dropForce i 1).inc OLC_DROP
  | _, true => (s.dropForce i 1).inc OLC_DROP
  | some t, _ =>
    let safety := s.forceSafety f.space f.addr t
    if safety && !f.safety && !(s.maintPermit && s.unlocked 2 && s.on (DBG_TCFG_FPERM t)) then (s.dropForce i 3).inc OLC_DROP
    else
      let w := f.addr + 65536 * bit f.out + 2 ^ 20 * t + 2 ^ 24 * bit safety
      let s := s.wr (forceEntry i) 4 w
      if (s.forceAt (forceLive i)).mask = 0 then s else s.wr (forceLive i) 4 w

/-- Furlong F: every lane swaps to the new POU table; instances follow at each task's next action instant; the image
area becomes the running image and probation begins (R136 to R139, R143, R407, R410). -/
def execOlcSwitch (s : State) : Host.Outcome State Fault Refusal :=
  occurs (s.get DBG_OLC_STATE == 2) s fun s =>
    match s.image, s.olcImage with
    | some old, some im =>
      let s := s.elapseNet (s.get OLC_F * s.furlongGrains)
      let ls := Lane.all.filter s.inVote
      let was := (s.forces forceEntry).filter s.inputBound
      let s := s.each ls fun s l => s.keepOld l
      let s := State.showImage { s with oldImage := some old, image := some im, olcImage := none }
      let s := s.each ls fun s l => (s.newVars old im l).set (OLC_OK l.idx) 0
      let s := ((s.set DBG_OLC_STATE 3).set OLC_CARRY 0).set OLC_INIT 0
      let s := (s.set OLC_DROP 0).set OLC_DONE 0
      let s := s.each tasks fun s t => (s.put (CL_PEND t) (s.enabled t)).set (OLC_BAL t) 0
      let s := ((s.each (s.forces forceEntry) (State.checkForce was)).showForces).setJournal 3 2
      let s := (((s.set (KIND_OK 1) 1).set (UPD_SESSION_OPEN 1) 0).set (UPD_SESSION_VERIFIED 1) 0).set (SES_N 1) 0
      ((s.set SES_APPLIED 0).beginProbation 2).showImages
    | _, _ => s

end Sys2Proof.Machine
end

