-- ==== Sys2Proof/Machine/LaunchOps.lean ====
section
/-! DEFINITION. The output side of an action instant: staged values are launched, pad cells take their mode, brake groups take
their command, release their holds and schedule their tests, and the vote exercise steps (R91, R92, R95 to R97, R111, R164, R166,
R177, R179, R182, R187, R191 to R193). -/

namespace Sys2Proof.Machine
open Reg Hid

/-! ### Channels (R91, R92, R96, R111, R164, R166) -/

/-- The OUT_PAIR channels that a task's output slice commands. -/
def State.outChannels (s : State) (t : Nat) : List Nat :=
  (upto 64).filter fun c => s.get (FC_CFG_MODE c) == 5 && s.on (FC_QBIND_EN c) && s.get (FC_QBIND_TASK c) == t

/-- The command word of a channel as launched. -/
def State.command (s : State) (c : Nat) : Nat := s.rd (launchedImg + s.get (FC_QBIND_OFFSET c)) 4

/-- What the pad majority cells of a task's channel do from this action instant on: voted, or the enable of a SINGLE task's
lane while that runs it (R92, R111). -/
def State.followCode (s : State) (t c : Nat) : Nat :=
  if s.isSafety t || s.on (FC_CFG_SAFETY c) || s.stopped t then 0 else s.get (TSK_STATE_MODE t)

/-- A group's output shows the pad cell fault of its channel (R96, R183). -/
def State.showPadFault (s : State) (c : Nat) : State :=
  s.each (groups.filter fun g => s.grpOn g && s.get (BRK_CFG_OUTCH g) == c) fun s g => s.set (BRK_STAT_PADF g) (s.get (BAL_PADF c))

/-- A pad cell fault clear that was accepted takes effect (R96). -/
def State.padClear (s : State) (c : Nat) : State :=
  if s.on (PADCLR c) then ((s.set (PADCLR c) 0).set (BAL_PADF c) 0).showPadFault c else s

/-- Keeps the level that the pads of a channel had before the launches of this grain (R31). -/
def State.markLaunch (s : State) (c : Nat) : State :=
  if s.get (LAUNCH_AT c) = s.now + 1 then s
  else (s.each [0, 1] fun s p => s.put (PREV_PAD c p) (s.padLevel c p)).set (LAUNCH_AT c) (s.now + 1)

/-- Every lane that drives launches a channel's command; a pad cell or bank in fault keeps it de-energised, and a safety channel
refuses the command of a SINGLE task, which leaves it de-energised (log 92). A brake group's output is driven by the group (R24,
R91, R96, R146, R164, R171, R177). -/
def State.launchChannel (s : State) (t c : Nat) : State :=
  let s := (s.markLaunch c).padClear c
  let s := s.set (BAL_FOLLOW c) (s.followCode t c)
  let w := s.command c
  let s := s.each [0, 1] fun s p => s.put (REQ_LVL c p) (w.testBit p)
  let s := s.set (REQ_CHG c) 0
  let alone := (s.alone t).isSome && s.on (FC_CFG_SAFETY c)
  let s := if alone then s.refuseAlone t 6 c else s
  let s := s.each (Lane.all.filter fun l => s.voting l && !s.on (LANE_RESET l.idx)) fun s l =>
    let s := s.set (LAUNCHED l.idx c) 1
    if groups.any fun g => s.grpOn g && s.get (BRK_CFG_OUTCH g) == c then s
    else
      let ok := !s.bankFault c && !s.on (BAL_PADF c) && !s.safe && !alone
      (s.put (DRIVE l.idx c 0) (ok && w.testBit 0)).put (DRIVE l.idx c 1) (ok && w.testBit 1)
  match Lane.ofCode (s.get (BAL_FOLLOW c)) with
  | some l => s.each [0, 1] fun s p => s.set (REQ_LVL c p) (s.get (DRIVE l.idx c p))
  | none => s

/-- A task's staged values become its launched ones; a twin-controlled task of a unit that has become PASSIVE since they were
staged launches its safe values (R67, R91, R354, R364, R365). -/
def State.launch (s : State) (t : Nat) : State :=
  let lo := s.get (TSK_QSLICE_BASE t)
  let kind := if s.twinTask t && s.role == .passive then 0 else s.get (STG_KIND t)
  let s := if kind = 0 then s.putSafe t launchedImg
    else s.copy (stagedImg + lo) (launchedImg + lo) (4 * s.get (TSK_QSLICE_LEN t))
  let s := s.set (LCH_KIND t) kind
  s.each (s.outChannels t) fun s c => s.launchChannel t c

/-! ### Brake groups (R177, R179, R182, R187, R191 to R193) -/

/-- The lanes of a group that follow the command: in the vote and not in reset. -/
def State.groupLanes (s : State) : List Lane := Lane.all.filter fun l => s.inVote l && !s.on (LANE_RESET l.idx)

/-- The state in which the launched command leaves a lane that neither holds nor pulses. -/
def State.commanded (s : State) (g : Nat) : GrpState := if s.get (CMD g) = 3 then .released else .applied

/-- A maintenance reset takes effect: the latch is cleared, in MRAM too, and a dark test is armed where it is enabled (R187,
R192, R193). -/
def State.resetGroup (s : State) (g : Nat) : State :=
  let s := (((s.set (RST_PEND g) 0).set (BRK_STAT_LATCHED g) 0).set (BRK_STAT_LCAUSE g) 0).set (NV_LATCH g) 0
  let s := (s.set (STUCK_RUN g) 0).set (DARK_FORCE g) (s.get (BRK_DARK_EN g))
  let s := s.each Lane.all fun s l =>
    if s.grp g l == .latched then
      s.set (BRK_STAT_ST g l.idx) (if s.on (BRK_HOLD l.idx g) then GrpState.held else s.commanded g).code
    else s
  s.summarise g

/-- The accepted resets of a task's groups take effect at an action instant at least 8 µs after acceptance (R192). -/
def State.resetGroups (s : State) (gs : List Nat) : State :=
  let due := gs.filter fun g => s.on (RST_PEND g) && decide (s.get RST_AT + 8 * grainsUs ≤ s.now)
  if due.isEmpty then s
  else
    let s := s.each due State.resetGroup
    let s := s.ev 0x4008 0 (due.foldl (fun m g => m + 2 ^ g) 0) (s.get RST_SRC)
    if groups.any fun g => s.on (RST_PEND g) then s
    else (s.set BRK_MRSTAT_OUTCOME 2).settle 0x7B (fun _ => true) stSuccess 0

/-- A lane, in the vote or not, releases its hold when its demand channels and the agreed image have shown no demand for a
period (R179). -/
def State.releaseHold (s : State) (g : Nat) (l : Lane) : State :=
  if s.on (BRK_HOLD l.idx g) && s.on (CLEAN l.idx g) && s.on (IMG_OK g) then
    let s := s.set (BRK_HOLD l.idx g) 0
    if s.grp g l == .held then s.set (BRK_STAT_ST g l.idx) (s.commanded g).code else s
  else s

/-- A lane that neither holds, pulses nor is latched follows the launched command (R182, R193). -/
def State.followCommand (s : State) (g : Nat) (l : Lane) : State :=
  match s.grp g l with
  | .applied | .released => s.set (BRK_STAT_ST g l.idx) (s.commanded g).code
  | _ => s

/-- A test that is due is scheduled at the first action instant that meets its conditions (R187). -/
def State.scheduleTest (s : State) (g t : Nat) : State :=
  let c := s.get (BRK_CFG_OUTCH g)
  let held := Lane.all.any fun l => s.inVote l && s.on (BRK_HOLD l.idx g)
  let free := s.prog == .run && s.scans t && !s.latched g && !held && !s.on (BAL_PADF c) && !s.on (WIN g) && !s.blk 4
  let dark := s.get (CMD g) == 3 && s.on (BRK_DARK_EN g) && (s.on (BRK_STAT_DARKDUE g) || s.on (DARK_FORCE g))
  let bright := s.get (CMD g) != 3 && s.on (BRK_BRIGHT_EN g) && s.on (BRK_STAT_BRIGHTDUE g)
  s.set (TEST_GO g) (if free && dark then 1 else if free && bright then 2 else 0)

/-- A group at its task's action instant: holds are released, the command acts, the pad level is kept for the next
comparison, and what the next release needs is watched afresh (R177, R179, R182, R187, R191). -/
def State.groupInstant (s : State) (t g : Nat) : State :=
  let s := s.set (CMP_LVL g) (if s.on (PADCHG g) then 0 else 1 + s.get (PADLVL g))
  let s := s.each (Lane.all.filter fun l => !s.on (LANE_RESET l.idx)) fun s l => s.releaseHold g l
  let s := s.each s.groupLanes fun s l => s.followCommand g l
  let s := (s.summarise g).driveGroup g
  let s := ((s.set (PADLVL g) (s.get (BRK_STAT_PAD g))).set (PADCHG g) 0).set (REQ_CHG (s.get (BRK_CFG_OUTCH g))) 0
  let s := s.each Lane.all fun s l =>
    s.put (CLEAN l.idx g) ((s.demandChannels g).all fun c => s.dc l c == .nondem)
  (s.set (IMG_OK g) 0).scheduleTest g t

/-- The groups of a task at its action instant. -/
def State.groupsInstant (s : State) (t : Nat) : State :=
  let gs := groups.filter fun g => s.grpOn g && s.get (BRK_CFG_TASK g) == t
  let s := s.each gs fun s g => s.set (CMD g) (s.command (s.get (BRK_CFG_OUTCH g)) % 4)
  (s.resetGroups gs).each gs fun s g => s.groupInstant t g

/-! ### The vote exercise (R95 to R97) -/

/-- The pad cells that exercises visit in rotation: both sides of the OUT_PAIR channels in VOTE. -/
def State.voteCells (s : State) : List (Nat × Nat) :=
  ((upto 64).filter fun c => s.get (FC_CFG_MODE c) == 5 && s.on (FC_QBIND_EN c) && s.get (BAL_FOLLOW c) == 0).flatMap
    fun c => [(c, 0), (c, 1)]

/-- A pad cell's detector has not reported its exercise: the fault is latched (R96). -/
def State.padFault (s : State) (c p : Nat) : State :=
  let s := ((s.set (BAL_PADF c) 1).raise BAL_EVT_PADFAULT BAL_CNT_VERDICT_CNT).ev 0x100A 0 c p
  s.showPadFault c

/-- The pad side of a task's exercise: the lane's enable on the cell is inverted from the action instant on, the cell is judged, and
the next one is due (R95, R96). -/
def State.exercisePad (s : State) (t : Nat) (miss : Bool) : State :=
  if s.on BAL_VEX_PAD_EN then
    let at_ := fun (x : Nat × Nat) => 2 * x.1 + x.2
    let here := 2 * s.get BAL_VEXSTAT_NEXT_CH + s.get BAL_VEXSTAT_NEXT_SIDE
    let next := fun (s : State) (lo : Nat) =>
      (s.voteCells.find? fun x => decide (lo ≤ at_ x)).orElse fun _ => s.voteCells.head?
    match next s here with
    | none => s
    | some x =>
      let y := (next s (at_ x + 1)).getD x
      let s := (s.set BAL_VEXSTAT_NEXT_CH y.1).set BAL_VEXSTAT_NEXT_SIDE y.2
      let s := (s.set (VEX_CELL t) (2 * x.1 + x.2 + 1)).set (VEX_AT t) (s.now + 1)
      if miss then s.padFault x.1 x.2 else s
  else s

/-- The vote exercise at a TRIPLE task's action instant: due once in EVERY periods, suspended outside RUN, with fewer than
three lanes in the vote, and in probation (R95 to R97, R120). -/
def State.exercise (s : State) (t : Nat) (miss : Bool) : State :=
  if s.on BAL_VEX_EN && s.isTriple t then
    let s := (s.set (VEX_CNT t) (min (s.get BAL_VEX_EVERY) (s.get (VEX_CNT t) + 1))).set (VEX_CELL t) 0
    let may := s.prog == .run && s.get (AGREE t) == 1 && s.on (SCANNING t) && !s.on (MODE_PROB t) && !s.ledElsewhere t &&
      Lane.all.all fun l => s.inVote l && !(s.lane l == .probation && decide (s.get (PROB_N l.idx t) < 16)) && !s.on (LANE_RESET l.idx)
    if may && decide (s.get BAL_VEX_EVERY ≤ s.get (VEX_CNT t)) then
      let l := s.get BAL_VEXSTAT_NEXT_LANE
      let s := ((s.set (VEX_NOW t) l).set (VEX_CNT t) 0).set BAL_VEXSTAT_NEXT_LANE (if l = 3 then 1 else l + 1)
      s.exercisePad t miss
    else s.set (VEX_NOW t) 0
  else (s.set (VEX_NOW t) 0).set (VEX_CELL t) 0

end Sys2Proof.Machine
end

