-- ==== Sys2Proof/Machine/TwinOps.lean ====
section
/-! DEFINITION. The twin at the instants of the tasks: the lease task's instant, what is staged for a twin task, a standby's
state at an action instant and at a deadline, and what an accepted lease message does (R355 to R375). -/

namespace Sys2Proof.Machine
open Reg Hid

/-- The unit still plays its part in the twin: a member, not relinquished, its block not stopped (R364, R421). -/
def State.twinOn (s : State) : Bool := s.role != .none && !s.on TW_OUTF && !s.blk 5

/-! ### The lease task's action instant (R356, R358, R362, R363, R366, R373) -/

/-- A standby that leaves RUN, or whose lead does, asks for every twin task again when both are back; a task in RESYNC whose
request a session kept back is asked for once the session is released (R373, R404). -/
def State.trackRun (s : State) : State :=
  let both := s.bothRun
  let was := s.on TW_BOTH
  let s := s.put TW_BOTH both
  if s.role != .standby then s
  else if was && !both then
    (s.each s.twinTasks fun s t => ((s.abandonScan t).setShadow t 1).set (TW_RXON t) 0).set TW_STAT_FIT 0
  else if both && !was then s.requestState s.twinTasks
  else if both then s.requestState (s.twinTasks.filter fun t => s.get (TW_TSTAT_SHADOW t) == 1 && !s.on (TW_RXON t))
  else s

/-- An accepted solo request takes effect: the unit becomes LEAD with SOLO; one that has left INIT and PASSIVE since is
refused (R363, R366). -/
def State.soloEffect (s : State) : State :=
  if s.on TW_SOLOP then
    let s := s.set TW_SOLOP 0
    if s.role == .init || s.role == .passive then
      (((s.setRole .lead 3).set TW_STAT_SOLO 1).set TW_SOLOSTAT_OUTCOME 2).ev 0x8016 0 1 0 (s.get TW_SOLOSRC)
    else ((s.set TW_SOLOSTAT_OUTCOME 3).set TW_SOLOSTAT_REASON 2).ev 0x8016 0 0 2 (s.get TW_SOLOSRC)
  else s

/-- The takeover instant of a committed standby: it becomes LEAD with SOLO (R362, R366). -/
def State.takeOver (s : State) : State :=
  if s.role == .standby && s.on TW_STAT_COMMIT then
    let e := s.expiryAt (s.get TW_E)
    let s := ((s.setRole .lead 7).set TW_STAT_SOLO 1).raise TW_EVT_TAKEOVER TW_EVCNT_SWITCH_CNT
    ((s.set TW_TKE e).set TW_ATKO (s.furlong + 1)).ev 0x8004 0 (s.furlong % 2 ^ 32) (s.get TW_PREL)
  else s

/-- A standby tests at a lease-task action instant at network time `a` whether it takes over at the next one (R362). -/
def State.commitTest (s : State) (a : Nat) : State :=
  if s.role == .standby && !s.on TW_STAT_COMMIT && s.on TW_STAT_FIT && !s.on TW_PSOLO &&
      decide (s.expiryAt (s.get TW_E) + s.get TW_CFG_MARGIN * grainsUs ≤ a + s.periodGrains s.leaseTask) then
    s.set TW_STAT_COMMIT 1
  else s

/-- The lease task's action instant, at network time `a` (R356, R358, R362, R363, R366, R376). -/
def State.leaseInstant (s : State) (t a : Nat) : State :=
  if s.leaseTask = t ∧ s.twinOn = true then
    let s := (s.set TW_STAT_PATH_CL (s.get TW_CLF)).set TW_STAT_PATH_TN (s.get TW_TNF)
    let s := ((s.set TW_CLF 0).set TW_TNF 0).trackRun
    let s := (s.soloEffect.takeOver).commitTest a
    let req := s.role == .lead || s.role == .passive || (s.role == .init && s.get GLB_STRAP_TWIN_SIDE == 0)
    s.sendLease req false false 0
  else s

/-! ### Staging (R355, R360, R367) -/

/-- What R355 makes of a task's staging. -/
inductive TwinStage where
  | normal | frozen | passive
  deriving DecidableEq, Repr

/-- The lead has accepted a grant since the lease task's staging before this one (R360). -/
def State.grantedLately (s : State) : Bool :=
  let prev := if s.get TW_LSTG ≤ s.now then s.get TW_LSTG else s.get TW_LSTG2
  decide (prev < s.get TW_GRANT_AT) || prev == 0

/-- How a task whose next action instant is at network time `a` stages (R355, R360, R362, R367). -/
def State.twinStage (s : State) (t a : Nat) : TwinStage :=
  if !s.twinTask t then .normal
  else
    let e := s.expiryAt (s.get TW_E)
    match s.role with
    | .lead =>
      if s.on TW_ATKO && decide (a ≤ s.instantFrom t (s.get TW_TKE + 1)) then .passive
      else if s.on TW_STAT_SOLO then .normal
      else if e < a then .passive
      else if s.grantedLately then .normal else .frozen
    | .standby =>
      let take := s.instantFrom s.leaseTask (s.get (A_FROM s.leaseTask))
      if s.on TW_STAT_COMMIT && decide (take ≤ a) && decide (s.instantFrom t (e + 1) < a) then .normal else .passive
    | _ => .passive

/-- Shows whether the staging is frozen; the first frozen one is an event (R354, R360). -/
def State.showFrozen (s : State) (t : Nat) (x : TwinStage) : State :=
  if !s.twinTask t then s
  else
    let s := s.put (TW_FZ t) (x == .frozen)
    if x == .frozen && !s.on TW_STAT_FROZEN then
      ((s.set TW_STAT_FROZEN 1).raise TW_EVT_FREEZE TW_EVCNT_SWITCH_CNT).ev 0x8005 0 (s.furlong % 2 ^ 32)
    else s.put TW_STAT_FROZEN (x == .frozen)

/-- The lease task has staged (R360). -/
def State.leaseStaged (s : State) (t : Nat) : State :=
  if s.leaseTask = t then (s.set TW_LSTG2 (s.get TW_LSTG)).set TW_LSTG (s.now + 1) else s

/-! ### A standby's task (R371, R372, R374) -/

/-- A record of a kind for a task's last action instant has been accepted. -/
def State.hasRecord (s : State) (f : Fld) (t : Nat) : Bool := s.get f == s.get (LAST_F t) + 1

/-- Record A or B of the task's last action instant has not been accepted. -/
def State.recordsMissing (s : State) (t : Nat) : Bool := !(s.hasRecord (TW_RA t) t && s.hasRecord (TW_RB t) t)

/-- At the next A − 8 µs of a standby's twin task: records that are missing, and a shadow scan that is not complete (R371,
R372). -/
def State.shadowDeadline (s : State) (t : Nat) : State :=
  if !s.ledElsewhere t || s.prog != .run then s
  else
    let shadowing := decide (2 ≤ s.get (TW_TSTAT_SHADOW t))
    let heard := decide (s.get (LAST_F t) < s.get TW_MSGF)
    if !shadowing && !s.on (TW_RXON t) then s
    else if s.recordsMissing t && heard then s.resync t 3 0
    else if shadowing && s.hasRecord (TW_RA t) t && (s.on (SCANNING t) || s.recordsMissing t) then
      ((s.raise TW_EVT_OVERRUN TW_EVCNT_FAULT_CNT).ev 0x8011 0 t).resync t 4 0
    else if s.recordsMissing t then s.set (TW_MISSF t) (s.get (LAST_F t) + 1)
    else s

/-- Applies record B's deltas of the period that ends to some lanes (R374). -/
def State.applyDeltas (s : State) (t : Nat) (ls : List Lane) : State :=
  s.each (s.deltasIn t) fun s d => s.each ls fun s l => s.putState t l (d.1 / 2 ^ 20 % 4) (d.1 % 2 ^ 20) d.2

/-- Applies the chunk that waits to some lanes (R374). -/
def State.applyChunk (s : State) (t : Nat) (ls : List Lane) : State :=
  let off := s.get (TW_CHOFF t)
  let n := s.get (TW_CHLEN t)
  let ps := ((s.imagePlaces t).drop (off / 4)).take (n / 4)
  s.each ps.zipIdx fun s p =>
    let w := s.word (twinWin 0x60020 + 4 * p.2)
    s.each ls fun s l => match p.1.1 with
      | some r => s.putState t l r p.1.2 w
      | none => s.setWord (outBase l + s.get (TSK_QSLICE_BASE t) + p.1.2) w

/-- At the action instant of a standby's task in transfer the deltas, then the chunk, are applied; after the last one the task
shadows, in probation (R374, R375). The shadow state of the period that ends is put away. -/
def State.shadowInstant (s : State) (t : Nat) : State :=
  if !s.ledElsewhere t then s
  else
    let ls := s.voters t
    let s := if s.on (TW_RXON t) then
        let s := if s.hasRecord (TW_RB t) t then s.applyDeltas t ls else s
        let s := if s.on (TW_CHLEN t) then (s.applyChunk t ls).set (TW_CHLEN t) 0 else s
        if s.on (TW_LASTC t) then
          (((s.set (TW_LASTC t) 0).set (TW_RXON t) 0).setShadow t 2).ev 0x8012 0 t 0 (s.get (TW_RXN t))
        else s
      else s
    (s.set (TW_BCMP t) 0).set (SCANNING t) 0

/-! ### Roles that a lease message changes (R359, R366, R373) -/

/-- The unit becomes STANDBY: every twin task is in RESYNC, and their states are asked for (R366, R373). -/
def State.becomeStandby (s : State) (cause : Nat) : State :=
  let s := s.setRole .standby cause
  let s := s.each s.twinTasks fun s t => ((s.abandonScan t).setShadow t 1).set (TW_TSTAT_RESTARTS t) 0
  (s.put TW_BOTH s.bothRun).requestState s.twinTasks

/-- The expiry that a grant of a request formed in a furlong gives (R359, R360). -/
def State.grantExpiry (s : State) (freq : Nat) : Nat := max (s.get TW_E) (freq + s.leaseFurlongs)

/-- A standby grants a request (R356, R359). -/
def State.grant (s : State) (freq : Nat) : State := (s.setExpiry (s.grantExpiry freq)).sendLease false true false freq

end Sys2Proof.Machine
end

