-- ==== Sys2Proof/Machine/Instant.lean ====
section
/-! DEFINITION. A task's action instant: samples are latched, restarts take effect, staged outputs are launched, and what the
scan that begins will see is latched (R61, R67, R78, R121, R122, R125, R130, R133, R140, R142, R257, R259, R421). -/

namespace Sys2Proof.Machine
open Reg Hid

/-! ### Restarts (R125, R129, R130, R259) -/

/-- A pending restart takes effect at this action instant. -/
def State.restartsNow (s : State) (t : Nat) : Bool :=
  s.on (RESTART t) && decide (s.get (RESTART_AT t) ≤ s.now) && s.netReady t && !s.stopped t &&
    (s.prog == .run || s.prog == .hold) && s.get (PARKED t) == 0

/-! ### Sampling (R68, R73, R78, R122, R133, R421) -/

/-- The lanes that sample for a task: a SINGLE task's own lane while it runs, else those in the task's vote, for a stopped SINGLE
task too (R69, R120, R121). -/
def State.sampleLanes (s : State) (t : Nat) : List Lane :=
  match s.singleLane t with
  | some l => if s.stopped t then s.agreeLanes t else if s.on (LANE_RESET l.idx) then [] else [l]
  | none => s.agreeLanes t

/-- What a task samples at this action instant: 1 everything, 2 its permits alone, 0 nothing. A skipped period, a halted and a
parked task sample no inputs; the permits are sampled whatever the task's condition (R73, R122, R133, R421). -/
def State.samples (s : State) (t : Nat) : Nat :=
  if (s.sampleLanes t).isEmpty then 0
  else if !s.halted t && (!s.on (TSK_STATE_SKIPPING t) || s.restartsNow t) && s.get (PARKED t) == 0 then 1
  else if s.get DBG_PERMIT_TASK = t ∧ s.permitChannels ≠ [] then 2
  else 0

/-- The lanes latch what they sampled before anything is launched (R31, R78). -/
def State.latchTask (s : State) (t n : Nat) (diff : List (Lane × Nat × Nat)) : State :=
  let xs := if n = 1 then s.latchSrcs t
    else (s.latchSrcs t).filter fun x => s.permitChannels.any fun c => x == .chan c
  let s := if n = 1 then s.phaseEvents t else s
  let s := s.each (s.sampleLanes t) fun s l => s.latchLane diff xs l
  if n = 1 then ((s.checkCan t).checkFlows t).canAge t else s

/-- The next scan's samples have been latched: the balance and its window start anew (R86, R87). -/
def State.newPeriod (s : State) (t : Nat) : State :=
  let s := (s.each Lane.all fun s l => s.dropScan l t).setBal t Balance.empty
  let s := ((s.set (LATE_AT t) 0).set (DZ_SEEN t) 0).set (TRIP_SEEN t) 0
  s.put (SCANNING t) (s.scans t && !s.ledElsewhere t)

/-- A task restarts: its state in every lane that runs it, and everything that a trip or a skip left (R125, R129, R130, R411). -/
def State.restartTask (s : State) (t : Nat) : State :=
  if !s.restartsNow t then s
  else
    let kind := s.get (RESTART t)
    let occ := s.get (RESTART_OCC t)
    let s := s.abandonScan t
    let s := s.each (s.lanesOf t) fun s l => s.restartLane t (kind == 1) l
    let s := (((s.set (RESTART t) 0).set (STARTED t) 1).set (FIRST t) kind).set (TSK_STATE_TRIPPED t) 0
    let s := (((s.set (TRIP_NEXT t) 0).set (TSK_STATE_CONSEC t) 0).set (TSK_STATE_SKIPPING t) 0).canRestart t
    let s := if (s.image.map fun im => im.setTask == t).getD false then s.loadWindow (s.lanesOf t) else s
    let s := s.ev 0x2012 0 (s.get (LAST_F t) % 2 ^ 32) t kind occ
    let s := if occ = 5 ∧ s.get DBG_TRSTAT_TASK = t then s.set DBG_TRSTAT_OUTCOME 2 else s
    (s.settle 0x79 (fun d => d.p0 % 16 == t) stSuccess 0).psReached t

/-- A task that does not scan counts as reached by a program-state request at its next action instant (R124). -/
def State.reachedIdle (s : State) (t : Nat) : State := if s.on PS_PEND && s.idleTask t then s.psReached t else s

/-- A lane whose seed copy of the task has ended in time joins its vote (R102). -/
def State.joinSeeded (s : State) (t : Nat) : State :=
  s.each Lane.all fun s l =>
    if s.lane l == .seeding && s.on (SEED_JOIN l.idx t) then (s.set (SEED_JOIN l.idx t) 0).set (SEEDED l.idx t) 1 else s

/-- A lane that is seeded in every TRIPLE task enters PROBATION: it drives an enable from its first launch after this
instant (R91, R99, R102). -/
def State.seededAll (s : State) : State :=
  s.each Lane.all fun s l =>
    if s.lane l == .seeding && !s.safe && (s.tripleTasks.all fun t => s.on (SEEDED l.idx t)) then s.seedingDone l else s

/-! ### The instant -/

/-- A lane in START enters VOTE where no TRIPLE task is enabled, at the first action instant at which a task scans (R99). -/
def State.leaveStart (s : State) (t : Nat) : State :=
  if s.tripleTasks.isEmpty && s.scans t then
    s.each Lane.all fun s l => if s.lane l == .start then s.setLane l .vote else s
  else s

/-- A parked task has launched its safe values (R421). -/
def State.parkInstant (s : State) (t : Nat) : State :=
  if s.get (PARKED t) = 1 then ((s.abandonScan t).set (PARKED t) 2).set (STARTED t) 0 else s

/-- The forces before a task's instant: a CRC failure removes all, and the safety forces that have lost the maintenance permit go
(R140, R142). -/
def State.forceInstant (s : State) (t : Nat) (crcBad : Option Lane) : State := (s.forceCheck crcBad).dropSafetyForces t

/-- What the scan that begins is told by SYS and FLOW, as the shared blocks deliver it to each lane (R60, R61, R79). -/
def State.latchState (s : State) (t a : Nat) : State :=
  let s := ((s.setSys t (s.sysValues t a)).latchFlows t).set (FIRST t) 0
  s.each (s.sampleLanes t) fun s l => s.latchLane [] (s.stateSrcs t) l

/-- The outputs of a task at its action instant: pads are compared with what was launched before, then the staged values are
launched, with the groups and the CAN requests (R67, R166, R272). -/
def State.outputsInstant (s : State) (t : Nat) : State := (((s.launch t).groupsInstant t).canLaunch t).parkInstant t

/-- The inputs of a task at its action instant: with samples latched, the next period begins and agreement waits (R79, R133). A
SINGLE task is agreed at once by its own lane (R69). -/
def State.inputsInstant (s : State) (t n a : Nat) (padMiss : Bool) : State :=
  if n = 1 then
    let s := ((s.newPeriod t).latchState t a).set (AGREE t) 1
    let s := (s.set (AGREE_A t) s.now).exercise t padMiss
    match s.alone t with
    | some l => s.agreeSingle t l
    | none => s
  else
    let s := ((s.set (AGREE t) n).set (AGREE_A t) s.now).exercise t padMiss
    match n, s.alone t with
    | 2, some l => s.permitSingle t l
    | _, _ => s

/-- The instant of a task at network time `a` is reached: its furlong and its times, and the next one is sought from there on
(R257). -/
def State.atInstant (s : State) (t a : Nat) : State :=
  let s := ((s.set (LAST_F t) (a / s.furlongGrains)).set (LAST_A t) s.now).set (A_FROM t) (a + 1)
  s.set (NEXT_A t) (s.now + s.periodGrains t)

/-- A task's action instant. `padDiff` names pad samples that differ from the level driven (lane, channel, side); `padMiss`
says that a pad cell's detector does not report its exercise; `crcBad` is a lane that finds the force table's check wrong
(R67, R78, R257). -/
def execActionInstant (t : Nat) (padDiff : List (Lane × Nat × Nat)) (padMiss : Bool) (crcBad : Option Lane) (s : State) :
    Host.Outcome State Fault Refusal :=
  occurs (decide (t < 16) && s.enabled t && s.on CFG_ON && !s.on ACT_STEP && !s.blk 3) s fun s =>
    let a := s.instantFrom t (s.get (A_FROM t))
    let s := ((s.elapseNet a).handOverDue t).forceInstant t crcBad
    let s := (((s.shadowInstant t).atInstant t a).padReadback padDiff t).joinSeeded t
    let n := s.samples t
    let s := s.latchTask t n padDiff
    let again := s.restartsNow t
    let s := (s.reachedIdle t).restartTask t
    let s := s.outputsInstant t
    let s := if n = 1 then s.olcCarry t again else s
    let s := (((s.leaveStart t).seededAll).pacePeriod t).inputsInstant t n a padMiss
    let s := if s.on PW_FWD && s.get PWR_CFG_RTASK == t then s.powerRequest (s.get PW_STG) 2 t else s
    s.leaseInstant t a

end Sys2Proof.Machine
end

