-- ==== Sys2Proof/Machine/Link.lean ====
section
/-! DEFINITION. The companion links: packets and the inbound queue, training, delay measurement, link states and group
time (R334 to R344, R368). -/

namespace Sys2Proof.Machine
open Reg Hid

/-! ### Packets -/

/-- A good packet: its sequence is acknowledged from now on, and an acknowledgement of the last packet sent ends its
replays (R335). -/
def State.recvCl (s : State) (k : Nat) (p : ClPacket) : State :=
  let s := s.set (CL_RXS k) p.seq
  if p.ack = s.get (CL_TXS k) then s.set (CL_RPL k) 0 else s

/-- Credits come back from the partner, at most sixteen (R338). -/
def State.credit (s : State) (k n : Nat) : State := s.set (CL_OPS_CREDITS k) (min 16 (s.get (CL_OPS_CREDITS k) + n))

/-- A packet that a link in UP handles. -/
def State.onLink (s : State) (k : Nat) (p : ClPacket) (kind : Nat) : Bool :=
  decide (k < 4) && s.linkUp k && p.kind == kind

/-- The response to a request: the tag of the request, and one credit for the entry served (R334, R338). -/
def reply (p : ClPacket) (kind : Nat) (data : List Byte) : ClPacket :=
  { kind := kind, tag := p.tag, seq := 0, ack := 0, addr := p.addr, len := data.length, spec := 1, data := data }

/-- What an inbound read returns, none where it is not accepted: export slices to a group partner; the alert word and
the semaphores to both roles (R330, R332, R339). -/
def State.inboundRead (s : State) (k addr len : Nat) : Option (List Byte) :=
  let role := s.get (CL_CFG_ROLE k)
  if role = 1 ∧ addr < 0x4000 ∧ addr % 4096 + len ≤ 4096 ∧ len ≤ 512 then
    some (s.bytes (expBuf (addr / 4096) + addr % 4096) len)
  else if addr = 0x10000 ∧ len = 4 then some (leBytes 4 s.alertNow)
  else if 0x10200 ≤ addr ∧ addr < 0x10300 ∧ addr % 4 = 0 ∧ len = 4 then
    let n := (addr - 0x10200) / 4
    some (leBytes 4 (s.get (BR_SEM_OWNER n) + 65536 * s.get (BR_SEM_CONTEND n)))
  else none

/-- An inbound READ is served from this device's own memory (R338, R339). -/
def execRead (k : Nat) (p : ClPacket) (s : State) : Host.Outcome State Fault Refusal :=
  occurs (s.onLink k p 0) s fun s =>
    let s := s.recvCl k p
    match s.inboundRead k p.addr p.len with
    | some d => s.sendCl k (reply p 1 d)
    | none => s.sendCl k (reply p 4 [])

/-- An area of the TWIN window that holds a whole write (R368). -/
def twinArea (addr len : Nat) : Bool :=
  let inside := fun (lo n : Nat) => decide (lo ≤ addr) && decide (addr + len ≤ lo + n)
  inside 0x100000 32 || inside 0x100040 16 || inside 0x110000 0x50000 || inside 0x160000 0xA0000

/-- A semaphore command word from a partner (R332). -/
def State.semCommand (s : State) (w : Nat) : State :=
  let tag := w / 256 % 256
  if tagOk tag then
    if w / 64 % 4 = 1 then s.semTake (w % 64) tag else if w / 64 % 4 = 2 then s.semRelease (w % 64) tag else s
  else s

/-- An inbound WRITE is committed to its target and then acknowledged; one outside the window is an error (R327, R338,
R339). -/
def execWrite (k : Nat) (p : ClPacket) (s : State) : Host.Outcome State Fault Refusal :=
  occurs (s.onLink k p 2 && p.data.length == p.len && decide (p.len ≤ 512)) s fun s =>
    let s := s.recvCl k p
    if p.addr = 0x10100 ∧ p.len = 4 then (s.semCommand (ofLe p.data)).sendCl k (reply p 3 [])
    else if s.get (CL_CFG_ROLE k) = 2 ∧ twinArea p.addr p.len = true then
      (s.setBytes (twinWin (p.addr - 0x100000)) p.data).sendCl k (reply p 3 [])
    else s.sendCl k (reply p 4 [])

/-- A READ_DATA packet returns the data of a read (R334). -/
def execReadData (k : Nat) (p : ClPacket) (s : State) : Host.Outcome State Fault Refusal :=
  occurs (s.onLink k p 1) s fun s => ((s.recvCl k p).credit k p.spec).readReturns (k + 1) p.tag (some p.data)

/-- A WRITE_ACK completes a link write (R327). -/
def execWriteAck (k : Nat) (p : ClPacket) (s : State) : Host.Outcome State Fault Refusal :=
  occurs (s.onLink k p 3) s fun s =>
    let s := (s.recvCl k p).credit k p.spec
    match s.tagged (k + 1) p.tag with
    | some o => if o.kind = 2 then s.writeDone o else s
    | none => s

/-- An ERROR_RSP fails the operation (R327, R339). -/
def execErrorRsp (k : Nat) (p : ClPacket) (s : State) : Host.Outcome State Fault Refusal :=
  occurs (s.onLink k p 4) s fun s =>
    let s := (s.recvCl k p).credit k p.spec
    match s.tagged (k + 1) p.tag with
    | some o => if o.kind = 2 then ((s.writeFailed o 0).pump).pumpTwin else s.readReturns (k + 1) p.tag none
    | none => s

/-- A CREDIT packet returns credits, as many as its type-specific bytes say (R338). -/
def execCredit (k : Nat) (p : ClPacket) (s : State) : Host.Outcome State Fault Refusal :=
  occurs (s.onLink k p 8) s fun s => (((s.recvCl k p).credit k p.spec).pump).pumpTwin

/-! ### Training and the link states (R336, R342) -/

/-- Training is refused with a cause (R336, R351). -/
def State.refuseLink (s : State) (k cause : Nat) : State :=
  let s := ((s.set (CL_STAT_STATE k) 5).set (CL_WAITAT k) s.now).raise (CL_EVT_REFUSED k) (CL_EVCNT_FAULT_CNT k)
  let s := if s.get (CL_CFG_ROLE k) = 1 then s.raise GRP_EVT_CFGMIS GRP_EVCNT_OTHER_CNT else s
  s.ev 0x7112 0 k cause (s.get (CL_STAT_PDEVID k))

/-- The first cause for which a link does not pass the identity comparison, none where it passes (R342). -/
def State.identCause (s : State) (k : Nat) (w : ClIdent) : Option Nat :=
  if s.get (CL_CFG_ROLE k) = 1 then
    if w.devid ≠ s.memberOf k then some 0
    else if w.role ≠ 1 then some 2
    else if w.setid ≠ s.get GRP_SETID_ID then some 1
    else if w.furlong ≠ s.get TN_FURLONG_LEN_US ∨ w.size ≠ s.get GRP_CFG_SIZE then some 4
    else none
  else if w.role ≠ 2 then some 2
  else if w.side = s.get GLB_STRAP_TWIN_SIDE then some 3
  else none

/-- A delay request leaves; after 64 without 16 valid exchanges the link is refused (R336). -/
def State.linkDelayReq (s : State) (k : Nat) : State :=
  let n := s.get (CL_DREQ k)
  if 64 ≤ n then s.refuseLink k 5
  else
    let s := (s.set (CL_DREQ k) (n + 1)).set (CL_DT1 k) (s.now + 1)
    s.sendCl k { kind := 6, tag := 0, seq := 0, ack := 0, addr := 0, len := 0, spec := n, data := [] }

/-- A TRAIN packet: the 32nd in a row compares the identities, and the delay exchange starts or training is refused
(R336, R342). -/
def execTrain (k : Nat) (p : ClPacket) (who : ClIdent) (s : State) : Host.Outcome State Fault Refusal :=
  occurs (decide (k < 4) && p.kind == 9 && s.get (CL_STAT_STATE k) == 1) s fun s =>
    let n := s.get (CL_ALIGN k) + 1
    let s := s.set (CL_ALIGN k) n
    if n < 32 then s
    else
      let s := ((s.set (CL_STAT_PDEVID k) who.devid).set (CL_STAT_PSIDE k) who.side).set (CL_STAT_PROLE k) who.role
      let s := (s.set (CL_STAT_STATE k) 2).set (CL_ALIGN k) 0
      match s.identCause k who with
      | some c => s.refuseLink k c
      | none => (((s.set (CL_STAT_STATE k) 3).set (CL_DREQ k) 0).set (CL_DN k) 0).linkDelayReq k

/-- The receiver of a link in DOWN that is not off detects commas: TRAIN is sent (R336, R340). -/
def execCommaDetection (k : Nat) (s : State) : Host.Outcome State Fault Refusal :=
  occurs (decide (k < 4) && !s.blk 9 && s.get (CL_STAT_STATE k) == 0 && s.wanted k) s fun s =>
    ((s.set (CL_STAT_STATE k) 1).set (CL_ALIGN k) 0).sendCl k
      { kind := 9, tag := 0, seq := 0, ack := 0, addr := 0, len := 12, spec := 0,
        data := leBytes 1 (s.get GRP_STAT_DEVID) ++ leBytes 1 (s.get (CL_CFG_ROLE k)) ++ leBytes 1 (s.get GLB_STRAP_TWIN_SIDE) ++
          leBytes 4 (s.get GRP_SETID_ID) ++ leBytes 4 (s.get TN_FURLONG_LEN_US) ++ leBytes 1 (s.get GRP_CFG_SIZE) }

/-- A link DELAY_REQ is answered with the grains of its arrival and of the response's departure (R235, R336). -/
def execDelayReq (k : Nat) (p : ClPacket) (sfd : Nat) (s : State) : Host.Outcome State Fault Refusal :=
  occurs (decide (k < 4) && p.kind == 6 && (s.get (CL_STAT_STATE k) == 3 || s.linkUp k)) s fun s =>
    (s.recvCl k p).sendCl k
      { kind := 7, tag := p.tag, seq := 0, ack := 0, addr := 0, len := 8, spec := p.spec,
        data := leBytes 4 (sfd % 2 ^ 32) ++ leBytes 4 (s.now % 2 ^ 32) }

/-- The delay of a link: the median of its sixteen exchanges, rounded half up, plus the adjustment (R236, R336). -/
def State.clDelay (s : State) (k : Nat) : Int :=
  let xs := sortI ((upto 16).map fun n => signed 40 (s.get (CL_DX k n)))
  (xs.getD 7 0 + xs.getD 8 0 + 2) / 4 + signed 8 (s.get (CL_CFG_DLYADJ k))

/-- The link comes UP: sixteen credits, its partner heard from now on (R336, R338, R343). -/
def State.linkUpNow (s : State) (k d : Nat) : State :=
  let s := (((s.set (CL_STAT_STATE k) 4).set (CL_DELAY_DELAY k) d).set (CL_UPAT k) s.now).set (CL_OPS_CREDITS k) 16
  let s := (((s.set (PAL_LOST k) 0).set (PAL_FAIL k) 0).set (PAL_HBAT k) 0).set (PAL_AT k) (s.now + 2 * grainsUs)
  let s := (s.raise (CL_EVT_UP k) (CL_EVCNT_LINK_CNT k)).ev 0x7110 0 k (s.get (CL_STAT_PDEVID k)) (s.get (CL_CFG_ROLE k)) d
  (s.showGroup).pump

/-- A link DELAY_RSP closes an exchange; the sixteenth gives the delay (R236, R336). -/
def execDelayRsp (k : Nat) (p : ClPacket) (sfd : Nat) (s : State) : Host.Outcome State Fault Refusal :=
  occurs (decide (k < 4) && p.kind == 7 && s.get (CL_STAT_STATE k) == 3 && s.on (CL_DT1 k)) s fun s =>
    let t1 := s.get (CL_DT1 k) - 1
    let s := (s.recvCl k p).set (CL_DT1 k) 0
    if p.spec + 1 ≠ s.get (CL_DREQ k) ∨ t1 + 16 * grainsUs < sfd then s.linkDelayReq k
    else
      let back := unsigned 32 ((ofLe (slice p.data 4 4) : Int) - ofLe (slice p.data 0 4))
      let n := s.get (CL_DN k)
      let s := (s.set (CL_DX k n) (unsigned 40 ((sfd : Int) - t1 - back))).set (CL_DN k) (n + 1)
      if n + 1 < 16 then s.linkDelayReq k
      else
        let d := (s.clDelay k).toNat
        if d ≤ 150 then s.linkUpNow k d else s.refuseLink k 5

/-- A retrain after four replays; the third within 1 s takes the link to BACKOFF (R335, R336). -/
def State.retrain (s : State) (k : Nat) : State :=
  let recent := fun (x : Nat) => decide (0 < x) && decide (s.now + 1 < x + 1000 * grainsMs)
  let n := 1 + bit (recent (s.get (CL_RT1 k))) + bit (recent (s.get (CL_RT2 k)))
  let s := (s.raise (CL_EVT_REPLAYX k) (CL_EVCNT_FAULT_CNT k)).inc (CL_RETRAIN_RETRAINS k)
  let s := (s.set (CL_RPL k) 0).ev 0x7113 0 k n
  let s := (s.set (CL_RT2 k) (s.get (CL_RT1 k))).set (CL_RT1 k) (s.now + 1)
  if n = 3 then ((s.linkLost k 1 6).set (CL_RT1 k) 0).set (CL_RT2 k) 0 else s

/-- A bad packet: received, it is discarded and counted, and the TRAIN packets before it no longer count as consecutive; or one
of ours is asked for again and replayed, and after four replays without acknowledgement the link retrains (R335, R336). -/
def execBadPacket (k : Nat) (ours : Bool) (s : State) : Host.Outcome State Fault Refusal :=
  occurs (decide (k < 4) && decide (1 ≤ s.get (CL_STAT_STATE k)) && decide (s.get (CL_STAT_STATE k) ≤ 4)) s fun s =>
    if s.linkUp k = false then (s.set (CL_ALIGN k) 0).inc (CL_ERRCNT_CRCERR k)
    else if ours then
      let n := s.get (CL_RPL k) + 1
      let s := (s.inc (CL_ERRCNT_REPLAYS k)).set (CL_RPL k) n
      if 4 ≤ n then s.retrain k else s
    else s.inc (CL_ERRCNT_CRCERR k)

/-- 1 µs without symbol alignment takes the link DOWN (R335, R337). -/
def execAlignmentLost (k : Nat) (s : State) : Host.Outcome State Fault Refusal :=
  occurs (decide (k < 4) && decide (1 ≤ s.get (CL_STAT_STATE k)) && decide (s.get (CL_STAT_STATE k) ≤ 4)) s fun s =>
    s.linkLost k 0 0

/-- 100 ms in REFUSED or BACKOFF end in DOWN (R336). -/
def execLinkWaitEnd (k : Nat) (s : State) : Host.Outcome State Fault Refusal :=
  occurs (decide (k < 4) && (s.get (CL_STAT_STATE k) == 5 || s.get (CL_STAT_STATE k) == 6)) s fun s =>
    (s.elapseTo (s.get (CL_WAITAT k) + 100 * grainsMs)).set (CL_STAT_STATE k) 0

/-! ### Group time (R344) -/

/-- This member takes its time from member 0 over a link (R344). -/
def State.takesTime (s : State) (k : Nat) : Bool :=
  s.on GRP_CFG_EN && s.on GRP_CFG_TSRC && s.on GRP_STAT_DEVID && s.memberOf k == 0 && decide (k < 3)

/-- A TIME packet: the first, or the first after time was lost, is adopted; a later one gives the furlong's one
measurement, and an offset above 100 grains loses group time (R241, R344). -/
def execTime (k : Nat) (p : ClPacket) (sfd : Nat) (s : State) : Host.Outcome State Fault Refusal :=
  occurs (s.onLink k p 5 && s.takesTime k && decide (8 ≤ p.data.length) && decide (sfd ≤ s.now)) s fun s =>
    let s := (s.recvCl k p).set GRP_TF 0
    let true_ := ofLe (p.data.take 8) + s.get (CL_DELAY_DELAY k)
    let st := s.get GRP_STAT_TSTATE
    if st = 2 ∨ st = 3 then
      let m : Int := (s.netTime : Int) - (s.now - sfd : Nat) - true_
      let s := s.set GRP_TOFS_M (unsigned 16 (clampI (-32768) 32767 m))
      if 100 < m.natAbs then
        ((s.set GRP_STAT_TSTATE 4).raise GRP_EVT_TIME GRP_EVCNT_OTHER_CNT).ev 0x7126 0 (unsigned 32 m) 0
      else
        let r := clampI (-858993) 858993 (signed 32 (s.get TN_RATE_RATE) - (m * 4294967296).tdiv (4 * s.furlongGrains))
        let s := ((s.set CORR_ON 1).set CORR_C (unsigned 64 (clampI (-40) 40 (-m)))).set CORR_R (unsigned 32 r)
        s.set GRP_STAT_TSTATE 3
    else
      let s := (s.stepNet fun _ => true_ + (s.now - sfd)).set GRP_STAT_TSTATE 2
      s.ev 0x7127 0 (s.furlong % 2 ^ 32)

end Sys2Proof.Machine
end

