-- ==== Sys2Proof/Machine/NetOther.lean ====
section
/-! DEFINITION. STATUS frames, and WAKE frames with the matcher of SLEEP (R208, R222, R253, R261, R262). -/

namespace Sys2Proof.Machine
open Reg Hid

/-- A STATUS frame: what its rod makes of it while IN SYNC. A frame that passes R222 goes to the lanes, which do not act on it;
accepted in a rod it confirms a coldstart (R208, R222, R248, R251, R253). -/
def State.statusFrame (s : State) (p : Nat) (fr : NetFrame) (sfd : Nat) : State :=
  let h := frHdr fr
  if s.listens then if h.crcOk then s.heard else s
  else if s.get TN_SYNCST_STATE = 2 then if fr.fcsOk then s else s.collision p 0xFFFFFFFF 0
  else if !s.inSync then s
  else
    match s.rodAt p (s.arrival sfd) (s.get TN_WIN_ACCEPT) fun r => r.kind != 5 with
    | none => s.noRod p sfd fr (s.arrival sfd)
    | some (i, r, _, f) =>
      let s := s.elapseNet (s.frameEnd r p f)
      let x := s.rodFrame p sfd i r f fr
      if x.2 && r.kind == 6 && r.rx p then x.1.confirmCold h.sender else x.1

/-- A STATUS frame arrives (R222). -/
def execStatusFrame (p : Nat) (fr : NetFrame) (sfd : Nat) (s : State) : Host.Outcome State Fault Refusal :=
  let h := frHdr fr
  occurs (decide (p < 4) && s.used p && fr.etype == s.get TN_CFG_ETYPE && h.crcOk && h.kind == 4) s fun s =>
    s.statusFrame p fr sfd

/-! ### WAKE frames -/

/-- A frame that the matcher counts (R262). -/
def State.matchesWake (s : State) (fr : NetFrame) : Bool :=
  let h := frHdr fr
  let pl := slice fr.data 16 16
  let mask := ofBe (slice pl 0 8)
  fr.etype == s.get TN_CFG_ETYPE && fr.fcsOk && h.crcOk && h.kind == 3 &&
    crc16 (pl.take 14) == ofBe (slice pl 14 2) && ofBe (slice pl 12 2) == s.get TN_SCHEDID_ID &&
    (mask.testBit (s.get TN_CFG_NODE) || (mask == 2 ^ 64 - 1 && s.on TN_WAKECFG_BCAST))

/-- The matcher of SLEEP counts a frame at a time of its own clock; COUNT of one sender and burst within 20 ms are a wake
(R262). -/
def State.countWake (s : State) (fr : NetFrame) (at_ : Nat) : State :=
  let n := (frHdr fr).sender
  let id := ((slice fr.data 16 16).getD 9 0).toNat
  let recent := s.wakeSeen.filter fun x => decide (at_ ≤ x.2.2 + 20 * grainsMs)
  let same := (recent.filter fun x => x.1 == n && x.2.1 == id).length + 1
  if s.get TN_WAKECFG_COUNT ≤ same then
    let s := { s with wakeSeen := [] }
    (((s.set WK_NODE n).set WK_ID id).set WK_REASON (ofBe (slice (slice fr.data 16 16) 10 2))).wakeBy 6
  else { s with wakeSeen := recent ++ [(n, id, at_)] }

/-- A WAKE frame at a node that is awake is discarded: in a rod it is the wrong kind, in an OPEN rod nothing is counted, and it
is no traffic to a node that listens (R222, R229, R261). -/
def State.wakeAwake (s : State) (p : Nat) (fr : NetFrame) (sfd : Nat) : State :=
  if !s.inSync || (s.inOpenRod p (s.arrival sfd)).isSome then s
  else
    match s.rodAt p (s.arrival sfd) (s.get TN_WIN_ACCEPT) fun r => r.kind != 5 with
    | none => s.noRod p sfd fr (s.arrival sfd)
    | some (i, r, _, f) => (s.rodFrame p sfd i r f fr).1

/-- A WAKE frame arrives. In SLEEP `sfd` is the time on the matcher's clock; the matcher is off in DEEP SLEEP and OFF (R261,
R262). -/
def execWakeFrame (p : Nat) (fr : NetFrame) (sfd : Nat) (s : State) : Host.Outcome State Fault Refusal :=
  let h := frHdr fr
  happens (decide (p < 4) && h.kind == 3 && fr.etype == s.get TN_CFG_ETYPE) s fun s =>
    if s.get PW_STATE = 2 then
      if s.on TN_WAKECFG_MATCH_EN && s.matchesWake fr then s.countWake fr sfd else s
    else if s.powered && s.used p then s.wakeAwake p fr sfd
    else s

end Sys2Proof.Machine
end

