-- ==== Sys2Proof/Machine/PState.lean ====
section
/-! DEFINITION. Program-state requests, task restarts, the periodic snapshot and the unlock's timers (R123, R124, R127,
R130, R131). -/

namespace Sys2Proof.Machine
open Reg Hid

/-- DBG_PSREQ.GO with TARGET STOP (R123, R124). -/
def execStopRequest (s : State) : Host.Outcome State Fault Refusal :=
  occurs (!s.blk 2) s fun s => (s.set DBG_PSREQ_TARGET 0).psRequest 0 false 0

/-- DBG_PSREQ.GO with TARGET RUN; COLD makes the restart of STOP to RUN cold (R123, R124). -/
def execRunRequest (cold : Bool) (s : State) : Host.Outcome State Fault Refusal :=
  occurs (!s.blk 2) s fun s => ((s.set DBG_PSREQ_TARGET 1).put DBG_PSREQ_COLD cold).psRequest 1 cold 0

/-- DBG_PSREQ.GO with TARGET HOLD (R123, R124). -/
def execHoldRequest (s : State) : Host.Outcome State Fault Refusal :=
  occurs (!s.blk 2) s fun s => (s.set DBG_PSREQ_TARGET 2).psRequest 2 false 0

/-- AUTORUN: after start-up or an activation the device enters RUN by itself (R123, R129). -/
def execAutorun (s : State) : Host.Outcome State Fault Refusal :=
  occurs (s.prog == .stop && s.on DBG_RCFG_AUTORUN && s.on AUTO_DUE && s.image.isSome && s.on CFG_ON && !s.safe &&
      !s.on PS_PEND && !s.on ACT_STEP && !s.on FB_PEND && !s.startBad) s fun s => (s.setProg .run 1).enterRun false

/-- DBG_TRESTART.GO (R130). -/
def execTaskRestartRequest (t : Nat) (cold : Bool) (s : State) : Host.Outcome State Fault Refusal :=
  occurs (decide (t < 16) && !s.blk 2) s fun s =>
    ((s.set DBG_TRESTART_TASK t).put DBG_TRESTART_COLD cold).taskRestart t cold 0

/-- SNAP_PERIOD seconds of operating time have passed since the last time, or since the start (R127, log 38). -/
def State.snapDue (s : State) : Bool :=
  decide (1000 * s.get DBG_RCFG_SNAP_PERIOD ≤ (s.opTime + 2 ^ 32 - s.get SNAP_OP) % 2 ^ 32)

/-- A periodic snapshot falls due; one that falls due while another is written follows it (R127, log 38). -/
def execPeriodicSnapshot (s : State) : Host.Outcome State Fault Refusal :=
  occurs (s.image.isSome && s.snapDue) s fun s =>
    (s.set SNAP_OP ((s.get SNAP_OP + 1000 * s.get DBG_RCFG_SNAP_PERIOD) % 2 ^ 32)).startSnapshot

/-- The debug unlock lapses 600 s after the last debug request (R131). -/
def execUnlockLapse (s : State) : Host.Outcome State Fault Refusal :=
  occurs (s.on DBG_PSTATE_UNLOCK) s fun s => (s.elapseTo (s.get UNLOCK_AT + 600000 * grainsMs)).unlockEnd 0

/-- The 60 s lockout ends: challenges are given again, with the count of failures at 0 (R131). -/
def execUnlockLockoutEnd (s : State) : Host.Outcome State Fault Refusal :=
  occurs (s.on DBG_UNLOCKSTAT_LOCKOUT) s fun s =>
    ((s.elapseTo (s.get LOCK_AT + 60000 * grainsMs)).set DBG_UNLOCKSTAT_LOCKOUT 0).set DBG_UNLOCKSTAT_FAILS 0

end Sys2Proof.Machine
end

