-- ==== Sys2Proof/Machine/Power.lean ====
section
/-! DEFINITION. The commands of the power states: requests, the blocks' answers, waking, PFAIL_N, and the end of a snapshot
write that they wait for (R127, R389, R419 to R431, R443). -/

namespace Sys2Proof.Machine
open Reg Hid

/-! ### Requests (R419, R420, R430) -/

/-- PWR_REQ with GO: a request to enter a state (R419, R420). -/
def execPowerRequest (target : Nat) (s : State) : Host.Outcome State Fault Refusal :=
  occurs true s fun s => (s.set PWR_REQ_TARGET target).powerRequest (target % 8) 0 0xFFFF

/-- PWR_REQ with GO and target 0: a withdrawal (R419). -/
def execPowerWithdraw (s : State) : Host.Outcome State Fault Refusal :=
  occurs true s fun s => (s.set PWR_REQ_TARGET 0).powerRequest 0 0 0xFFFF

/-- Why the ring's request is refused, 0 for none (R419, R420). -/
def State.powerRingRefusal (s : State) (target : Nat) : Nat :=
  if target ≠ 0 then s.powerRefusal target
  else if s.on PW_PHASE || (s.get PW_STATE == 1 && !s.on WK_STEP) then 0 else 11

/-- 0x7C POWER_REQ: an accepted entry waits for its completion (R419, R430). -/
def execPowerReq (r : Nat) (s : State) : Host.Outcome State Fault Refusal :=
  .next (s.start r 0x7C fun s d =>
    let why := s.powerRingRefusal d.p0
    let s := s.powerRequest d.p0 1 0xFFFF
    if why ≠ 0 then s.finish d stRefused why
    else if d.p0 = 0 then s.finish d stSuccess
    else s.await d)

/-! ### The stop sequence (R421 to R424) -/

/-- The block being asked answers: it stops, or refuses and the sequence is rolled back; `fails` says that its write to MRAM
failed. A block that is not ready gives no answer yet (R421 to R424). -/
def execBlockAnswer (fails : Bool) (s : State) : Host.Outcome State Fault Refusal :=
  occurs (s.get PW_PHASE == 3) s fun s =>
    let n := s.get PWR_STATUS_STEP
    match s.blockAnswer n fails with
    | none => s
    | some true => s.acceptBlock n
    | some false => s.powerBack 7 n

/-- A block other than the tasks that has not answered in 25 ms counts as refusing (R422). -/
def execBlockAnswerTimeout (s : State) : Host.Outcome State Fault Refusal :=
  occurs (s.get PW_PHASE == 3 && s.get PWR_STATUS_STEP != 3) s fun s =>
    (s.elapseTo (s.get PW_ASK_AT + 25 * grainsMs)).powerBack 7 (s.get PWR_STATUS_STEP)

/-! ### Waking (R427 to R429, R431) -/

/-- WAKE_N (1) or LWAKE0 to LWAKE3 (2 to 5) has held its active level through the filter (R427, R431). -/
def execWakePin (src : Nat) (s : State) : Host.Outcome State Fault Refusal :=
  let ok := if src = 1 then s.on PWR_WCFG_WAKEN_EN
    else decide (2 ≤ src) && decide (src ≤ 5) && s.on (PWR_WCFG_LW_EN (src - 2)) && !s.on WF_FINAL
  happens ok s fun s => s.wakeBy src

/-- PCIe activity of the host in SLEEP, or while the link already sleeps on the way there (R423, R427). -/
def execPcieActivityWake (s : State) : Host.Outcome State Fault Refusal :=
  happens (s.on PWR_WCFG_PCIE_EN && (s.get PW_STATE == 2 || (s.get PW_PHASE == 3 && s.blk 8))) s fun s => s.wakeBy 7

/-- The cause that the start after a wake records (R434, R444). -/
def State.wakeCause (s : State) : Nat := if s.get WK_SRC = 0 then 0 else if s.get WK_FROM = 3 then 3 else 4

/-- The retention banks that a wake finds intact. -/
def State.keptBanks (s : State) : Nat :=
  (upto 23).foldl (fun m b => m + if (s.get WK_KEEP).testBit b && !(s.get WK_LOST).testBit b then 2 ^ b else 0) 0

/-- The last wake step is done: back in RUN from IDLE or SLEEP, a start-up from DEEP SLEEP or OFF (R428, R429). -/
def State.wakeLast (s : State) (fail : List Lane) : State :=
  if s.get PW_STATE ≤ 2 then s.wakeDone fail
  else
    let s := s.each fail fun s l => s.set (WK_FAIL l.idx) 1
    (s.cold s.wakeCause s.keptBanks).set WK_STEP 0

/-- A wake step's ready signal arrives `us` microseconds after the step began; `fail` names the lanes that fail their
self-check, of which two must pass, and `lost` the retention banks that fail their check (R426, R428, R465). -/
def execWakeStepReady (us : Nat) (fail : List Lane) (lost : Nat) (s : State) : Host.Outcome State Fault Refusal :=
  let n := s.get WK_STEP
  happens (s.on WK_STEP && decide (us ≤ stepLimit n) && (n != 4 || decide (2 ≤ (s.passing fail).length))) s fun s =>
    let s := s.add WK_US us
    let s := if s.get WK_FROM = 1 then s.elapse (us * grainsUs) else s
    let s := if n = 3 then s.set WK_LOST (lost &&& s.get WK_KEEP) else s
    if n = 4 then s.wakeLast fail else s.set WK_STEP (n + 1)

/-- The code word of a wake fault is kept, or dropped and counted (R431). -/
def State.latchFault (s : State) (w : Nat) : State :=
  let n := s.get WF_N
  if n < 8 then (s.set (WF_CODE n) w).set WF_N (n + 1) else s.inc WF_DROPS

/-- A wake step times out: its code word is latched, the device powers down without retention, and the fourth attempt was
the last (R431). -/
def execWakeStepTimeout (s : State) : Host.Outcome State Fault Refusal :=
  happens (s.on WK_STEP) s fun s =>
    let n := s.get WK_STEP
    let try_ := s.get WK_TRY
    let final := try_ == 3
    let s := s.latchFault (n + 8 * bit final + 16 * try_ + 64 * s.get WK_FROM)
    let s := (((s.remains 0).set PW_STATE 4).set WK_KEEP 0).set WK_LOST 0
    ((s.add WK_US (stepLimit n)).set WK_STEP 0).put (if final then WF_FINAL else WK_DOWN) true

/-- After 100 ms down the wake is tried again, from the regulator step (R431). -/
def execWakeRetry (s : State) : Host.Outcome State Fault Refusal :=
  happens (s.on WK_DOWN) s fun s =>
    (((s.set WK_DOWN 0).inc WK_TRY).set WK_STEP 1).add WK_US 100000

/-! ### PFAIL_N (R127, R364, R389, R443) -/

/-- PFAIL_N is asserted: an entry is rolled back, the committed copies freeze and are written, a twin lead or standby
relinquishes, and the recorder works on behind the snapshot (R127, R364, R389, R423, R434). -/
def execPfailAssert (s : State) : Host.Outcome State Fault Refusal :=
  happens (!s.on GLB_SUPPLY_PFAIL) s fun s =>
    let depth := s.recQ.length
    let s := (s.set GLB_SUPPLY_PFAIL 1).set PFAIL_AT s.now
    if !s.powered then s
    else
      let s := ((s.raise PWR_EVT_PFAIL PWR_EVCNT_OTHER_CNT).ev 0x0002 0 depth).powerBack 10 0
      let s := (s.set SNAP_FROZEN 1).set PFAIL_SEQ 1
      let s := if s.image.isSome then s.startSnapshot else s
      (s.relinquish 1 true).pfailStep

/-- PFAIL_N is released with the supplies kept: the device runs on (R443). -/
def execPfailRelease (s : State) : Host.Outcome State Fault Refusal :=
  happens (s.on GLB_SUPPLY_PFAIL) s fun s =>
    let s := (s.set GLB_SUPPLY_PFAIL 0).set SNAP_FROZEN 0
    if s.powered then s.ev 0x0003 0 (min (2 ^ 32 - 1) ((s.now - s.get PFAIL_AT) / grainsMs)) else s

/-! ### The end of a snapshot write (R124, R127, R389, R412, R420) -/

/-- The copies that the two lowest lanes in the vote hold differ (R127). -/
def State.copiesDiffer (s : State) : Bool :=
  match Lane.all.filter s.inVote with
  | a :: b :: _ => s.committed a != s.committed b
  | _ => false

/-- A snapshot write ends: the slot is written, or the write has failed on different copies (kind 0) or on MRAM (kind 1),
which leaves anything in the slot.
What waited for the snapshot goes on: another write, a program state, an entry, a fallback, PFAIL_N's work (R127, R144). -/
def execSnapshotWriteDone (mramError : Bool) (s : State) : Host.Outcome State Fault Refusal :=
  occurs (s.on SNAP_BUSY) s fun s =>
    let i := s.get SNAP_SLOT
    let failed := fun (s : State) (kind : Nat) =>
      (s.raise DBG_EVT_SNAPFAIL DBG_EVCNT_FAULT_CNT).ev 0x2015 0 i kind
    let s := if s.copiesDiffer then failed (s.destroy (snapSlot i) 0x20000) 0
      else if mramError then failed (s.destroy (snapSlot i) 0x20000) 1
      else s.writeSlot i ((Lane.all.find? s.inVote).getD .la)
    let s := s.set SNAP_BUSY 0
    if s.on SNAP_AGAIN then (s.set SNAP_AGAIN 0).startSnapshot
    else
      let s := ((s.set PS_SNAP 0).psSettle).powerSnapDone
      let s := if s.on FB_PEND then s.fallbackNow (s.get FB_CAUSE) else s
      s.pfailStep

end Sys2Proof.Machine
end

