-- ==== Sys2Proof/Machine/Twin.lean ====
section
/-! DEFINITION. What arrives from the twin's partner: lease messages, mirror records, snapshot requests and state chunks; and the
solo request (R356 to R375). -/

namespace Sys2Proof.Machine
open Reg Hid

/-! ### Checks shared by everything that arrives (R346, R357, R370) -/

/-- A sequence passes: 1, any but 0 when the lane has accepted none since it began, or 1 to 2³¹ − 1 ahead (R357). -/
def seqPasses (fresh : Bool) (last seq : Nat) : Bool :=
  let ahead := (seq + 2 ^ 32 - last) % 2 ^ 32
  seq == 1 || (fresh && seq != 0) || (decide (1 ≤ ahead) && decide (ahead < 2 ^ 31))

/-- Some bytes end with their code, seeded with TW_SCID (R369). -/
def State.codeOk (s : State) (b : List Byte) : Bool :=
  ofLe (b.drop (b.length - 4)) == crc32cFrom (s.get TW_SCID_SCID) (b.take (b.length - 4))

/-- The lanes that receive. -/
def State.receivers (s : State) : List Lane := Lane.all.filter s.inVote

/-- Twin data that no two lanes accept: the kind, the first check that failed and the lanes (R357, R378). -/
def State.twinReject (s : State) (kind : Nat) (checks : List (Lane × Option Nat)) : State :=
  let bad := checks.filter fun c => c.2 != none
  let first := (bad.filterMap (·.2)).headD 0
  (s.raise TW_EVT_MSGREJ TW_EVCNT_FAULT_CNT).ev 0x8008 0 kind first (laneMask fun l => bad.any fun c => c.1 == l)

/-! ### Lease messages (R356 to R366) -/

/-- A lease message. -/
structure LeaseMsg where
  marker : Nat
  side : Nat
  role : Nat
  active : Bool
  solo : Bool
  fit : Bool
  rel : Bool
  req : Bool
  grant : Bool
  lease : Nat
  formed : Nat
  freq : Nat
  seq : Nat
  deriving DecidableEq, Repr

/-- Reads a lease message from its 32 bytes (R356). -/
def LeaseMsg.read (b : List Byte) : LeaseMsg :=
  let n := fun (i k : Nat) => ofLe (slice b i k)
  { marker := n 0 4, side := n 4 1 % 2, role := n 4 1 / 2 % 8, active := (n 4 1).testBit 4, solo := (n 4 1).testBit 5,
    fit := (n 4 1).testBit 6, rel := (n 4 1).testBit 7, req := (n 5 1).testBit 0, grant := (n 5 1).testBit 1,
    lease := n 6 1, formed := n 8 8, freq := n 16 8, seq := n 24 4 }

/-- The bytes of a message in a lane: the mailbox, or the lane's own copy of RXFLOW (R357). -/
def State.leaseIn (s : State) (net : Bool) (l : Lane) : List Byte :=
  s.bytes (if net then laneFlow l (s.get TW_NET_RXFLOW) else twinWin 0) 32

/-- The first check of R357 that a message fails in a lane, as in event 0x8008. -/
def State.leaseCheck (s : State) (net : Bool) (l : Lane) : Option Nat :=
  let b := s.leaseIn net l
  let m := LeaseMsg.read b
  let fresh := s.get (TW_RSEQE l.idx) != s.get (LN_EPOCH l.idx) + 1
  if m.marker ≠ 0x54574C31 then some 0
  else if s.codeOk b = false then some 1
  else if seqPasses fresh (s.get (TW_RSEQ l.idx)) m.seq = false then some 2
  else if m.formed + s.leaseFurlongs < s.furlong then some 3
  else if m.lease ≠ s.get TW_CFG_LEASE + 1 ∨ m.side = s.get GLB_STRAP_TWIN_SIDE then some 4
  else none

/-- A lane holds a correct copy of the message that was accepted last. -/
def State.leaseAgain (s : State) (net : Bool) (l : Lane) : Bool :=
  let b := s.leaseIn net l
  (LeaseMsg.read b).marker == 0x54574C31 && s.codeOk b && (LeaseMsg.read b).seq + 1 == s.get TW_ASEQ

/-- What an accepted message says of the partner (R362, R372, R376). -/
def State.leaseHeard (s : State) (net : Bool) (m : LeaseMsg) : State :=
  let s := (((s.set TW_STAT_PROLE m.role).put TW_STAT_PFIT m.fit).set TW_HEARD (s.now + 1)).set TW_ASEQ (m.seq + 1)
  let s := ((s.put TW_PSOLO (m.solo && !m.rel)).put TW_PREL m.rel).set (if net then TW_TNF else TW_CLF) 1
  if m.role = Role.lead.code then s.set TW_MSGF (m.formed + 1) else s

/-- A lead message formed at A is accepted after the deadline of a period whose records are missing (R372). -/
def State.missedRecords (s : State) : State :=
  s.each ((upto 16).filter fun t => s.on (TW_MISSF t) && decide (s.get (TW_MISSF t) ≤ s.get TW_MSGF)) fun s t =>
    (s.resync t 3 0).set (TW_MISSF t) 0

/-- An accepted RELINQUISH: a STANDBY counts its expiry from there, a LEAD goes on alone. Its cause is not in the message and
stays open (R364). -/
def State.relinquished (s : State) (m : LeaseMsg) : State :=
  if m.rel then
    let p := s.free 1
    let s := (p.2.raise TW_EVT_RELINQ TW_EVCNT_SWITCH_CNT).ev 0x8006 0 1 p.1
    match s.role with
    | .standby => s.setExpiry m.formed
    | .lead => s.set TW_STAT_SOLO 1
    | _ => s
  else s

/-- A LEAD that hears an active partner has a lease conflict (R365). -/
def State.conflict (s : State) (m : LeaseMsg) : State :=
  if m.active && s.role == .lead then
    ((s.raise TW_EVT_CONFLICT TW_EVCNT_FAULT_CNT).ev 0x8007 0 m.seq).goPassive 1 5
  else s

/-- An accepted grant: a LEAD's lease goes on, a side-0 INIT or a PASSIVE unit becomes LEAD (R360, R366). -/
def State.granted (s : State) (m : LeaseMsg) : State :=
  if m.grant then
    let take := fun (s : State) => s.set TW_GRANT_AT (s.now + 1)
    match s.role with
    | .lead =>
      if s.on TW_STAT_SOLO then take ((s.set TW_STAT_SOLO 0).setExpiry (m.freq + s.leaseFurlongs))
      else take (s.setExpiry (s.grantExpiry m.freq))
    | .init =>
      if s.get GLB_STRAP_TWIN_SIDE = 0 then take ((s.setRole .lead 2).setExpiry (s.grantExpiry m.freq)) else s
    | .passive => take ((s.setRole .lead 9).setExpiry (s.grantExpiry m.freq))
    | _ => s
  else s

/-- An accepted request (R359, R366). -/
def State.requested (s : State) (m : LeaseMsg) : State :=
  if m.req then
    match s.role with
    | .init => (s.becomeStandby 1).grant m.formed
    | .passive => if m.active then (s.becomeStandby 8).grant m.formed else s
    | .standby =>
      if !s.on TW_STAT_COMMIT && (m.active || !s.on TW_STAT_FIT) then s.grant m.formed else s
    | _ => s
  else s

/-- A lease message of the partner has arrived, in the mailbox or as RXFLOW's payload: each lane checks it, and when two accept
it identically it takes effect; a copy of the last one is discarded (R357 to R366). -/
def execLeaseMessage (net : Bool) (s : State) : Host.Outcome State Fault Refusal :=
  occurs (s.twinOn && (!net || s.on TW_NET_NETEN)) s fun s =>
    let ls := s.receivers
    if ls.any (s.leaseAgain net) then s
    else
      let checks := ls.map fun l => (l, s.leaseCheck net l)
      let good := (checks.filter fun c => c.2 == none).map (·.1)
      let agreed := good.filter fun l => good.any fun k => k != l && s.leaseIn net k == s.leaseIn net l
      let seqs := good.map fun l => (l, (LeaseMsg.read (s.leaseIn net l)).seq)
      let s := s.each seqs fun s p =>
        (s.set (TW_RSEQ p.1.idx) p.2).set (TW_RSEQE p.1.idx) (s.get (LN_EPOCH p.1.idx) + 1)
      match agreed.head? with
      | some l =>
        let m := LeaseMsg.read (s.leaseIn net l)
        ((((s.leaseHeard net m).missedRecords.relinquished m).conflict m).granted m).requested m
      | none => s.twinReject 0 checks

/-! ### The solo request (R363) -/

/-- Why a solo request is refused now: 1 maintenance permit, 2 role, 3 partner heard, 4 another is pending, 5 device safe
state; 0 not. -/
def State.soloRefusal (s : State) : Nat :=
  let window := s.leaseFurlongs * s.furlongGrains + s.get TW_CFG_MARGIN * grainsUs
  if !s.maintPermit then 1
  else if s.role != .init && s.role != .passive then 2
  else if s.on TW_HEARD && decide (s.now < s.get TW_HEARD + window) then 3
  else if s.on TW_SOLOP then 4
  else if s.safe then 5
  else 0

/-- A solo request: refused with its reason, or pending until the lease task's next action instant (R363, R376, R378). -/
def State.soloRequest (s : State) (src : Nat) : State :=
  match s.soloRefusal with
  | 0 => (((s.set TW_SOLOP 1).set TW_SOLOSRC src).set TW_SOLOSTAT_OUTCOME 1).set TW_SOLOSTAT_REASON 0
  | why => ((s.set TW_SOLOSTAT_OUTCOME 3).set TW_SOLOSTAT_REASON why).ev 0x8016 0 0 why src

/-- Writing 1 to TW_SOLOREQ.GO (R363). -/
def execSoloRequest (s : State) : Host.Outcome State Fault Refusal := occurs true s fun s => s.soloRequest 0

/-! ### Mirror records (R369 to R375) -/

/-- The first check that a record of a task fails in a lane: marker and task, code, mirror sequence, furlong (R370). -/
def State.recordCheck (s : State) (t : Nat) (l : Lane) (marker : Nat) (b : List Byte) : Option Nat :=
  let n := fun (i k : Nat) => ofLe (slice b i k)
  let fresh := s.get (TW_MRSEQE l.idx t) != s.get (LN_EPOCH l.idx) + 1
  if n 0 4 ≠ marker ∨ n 4 1 ≠ t then some 0
  else if s.codeOk b = false then some 1
  else if seqPasses fresh (s.get (TW_MRSEQ l.idx t)) (n 16 4) = false then some 2
  else if n 8 8 ≠ s.get (LAST_F t) then some 3
  else none

/-- A record is checked by each lane: what each found, and the state with the sequences of those that accept it (R370). -/
def State.recordIn (s : State) (t marker : Nat) (b : List Byte) : State × List (Lane × Option Nat) :=
  let checks := s.receivers.map fun l => (l, s.recordCheck t l marker b)
  let good := (checks.filter fun c => c.2 == none).map (·.1)
  (s.each good fun s l =>
    (s.set (TW_MRSEQ l.idx t) (ofLe (slice b 16 4))).set (TW_MRSEQE l.idx t) (s.get (LN_EPOCH l.idx) + 1), checks)

/-- At least two lanes accept. -/
def twoAccept (checks : List (Lane × Option Nat)) : Bool := decide (2 ≤ (checks.filter fun c => c.2 == none).length)

/-- Both records of a period that was waited for have come after all (R372). -/
def State.recordsCame (s : State) (t : Nat) : State :=
  if s.recordsMissing t then s
  else s.setIf (s.get (TW_MISSF t) == s.get (LAST_F t) + 1) (TW_MISSF t) 0

/-- Takes record A's input slice, flow entries and SYS block for the shadow scan, which starts (R371). -/
def State.shadowScan (s : State) (t : Nat) : State :=
  let a := twinWin (s.slotOff t)
  let n := (s.taskImage t).flows.length
  let ls := s.voters t
  let s := s.setSys t (.ofRecord (s.words (a + 24) 8))
  let s := s.each (upto n) fun s i =>
    let e := a + 64 + 12 * i
    s.setFlowSeen t (s.rd e 2)
      { rxAge := s.rd (e + 2) 1, sndAge := s.rd (e + 3) 1, stale := (s.rd (e + 4) 1).testBit 0,
        rep := (s.rd (e + 4) 1).testBit 1 }
  let s := s.each ls fun s l => s.copy (a + 64 + 12 * n) (inBase l + s.get (TSK_ISLICE_BASE t)) (s.inBytes t)
  ((s.set (SCANNING t) 1).startScan t ls).crossCheck t

/-- Record A of a task has been written into its slot (R370, R371). -/
def execRecordA (t : Nat) (s : State) : Host.Outcome State Fault Refusal :=
  occurs (decide (t < 16) && s.twinOn && s.ledElsewhere t) s fun s =>
    let p := s.recordIn t 0x54574D41 (s.bytes (twinWin (s.slotOff t)) (s.sizeA t))
    if twoAccept p.2 then
      let s := (p.1.set (TW_RA t) (s.get (LAST_F t) + 1)).recordsCame t
      if s.shadows t then s.shadowScan t else s
    else p.1.twinReject 1 p.2

/-- The bytes of the record B in a task's slot. -/
def State.recordBIn (s : State) (t : Nat) : List Byte :=
  let a := twinWin (s.slotOff t + s.sizeA t)
  let d := s.rd (a + 24) 4
  s.bytes a (36 + 8 * (if d ≤ s.get TW_MIRROR_DMAX then d else 0))

/-- Record B of a task has been written into its slot (R370 to R372, R374). -/
def execRecordB (t : Nat) (s : State) : Host.Outcome State Fault Refusal :=
  occurs (decide (t < 16) && s.twinOn && s.ledElsewhere t) s fun s =>
    let b := s.recordBIn t
    let p := s.recordIn t 0x54574D42 b
    if twoAccept p.2 then
      let s := (p.1.set (TW_RB t) (s.get (LAST_F t) + 1)).recordsCame t
      if s.on (TW_RXON t) then
        if (ofLe (slice b 5 1)).testBit 0 then s.requestState [t] else s
      else s.compareB t
    else p.1.twinReject 2 p.2

/-! ### Resynchronisation (R373, R374) -/

/-- The first check that a snapshot request fails in a lane. -/
def State.requestCheck (s : State) (l : Lane) (b : List Byte) : Option Nat :=
  let n := fun (i k : Nat) => ofLe (slice b i k)
  if n 0 4 ≠ 0x54575251 then some 0
  else if s.codeOk b = false then some 1
  else if seqPasses (s.get (TW_QRSEQE l.idx) != s.get (LN_EPOCH l.idx) + 1) (s.get (TW_QRSEQ l.idx)) (n 8 4) = false then some 2
  else none

/-- A standby's snapshot request has been written: the lead serves the tasks it names (R373, R374). -/
def execSnapshotRequest (s : State) : Host.Outcome State Fault Refusal :=
  occurs s.twinOn s fun s =>
    let b := s.bytes (twinWin 0x40) 16
    let checks := s.receivers.map fun l => (l, s.requestCheck l b)
    let good := (checks.filter fun c => c.2 == none).map (·.1)
    let s := s.each good fun s l =>
      (s.set (TW_QRSEQ l.idx) (ofLe (slice b 8 4))).set (TW_QRSEQE l.idx) (s.get (LN_EPOCH l.idx) + 1)
    if twoAccept checks then
      let mask := ofLe (slice b 4 2)
      if s.role == .lead then
        s.each (s.twinTasks.filter fun t => mask.testBit t) fun s t => (s.set (TW_XREQ t) 1).set (TW_XFER t) 0
      else s
    else s.twinReject 4 checks

/-- The chunk that has been written, with its code; one longer than 16,384 bytes is taken without its data, and its code does
not hold (R374). -/
def State.chunkIn (s : State) : List Byte :=
  let n := s.rd (twinWin 0x60018) 4
  s.bytes (twinWin 0x60000) (36 + if n ≤ 16384 then n else 0)

/-- A chunk of a task's state has been written: it waits for the action instant that applies it; one that is not accepted, or
not the next, restarts the transfer (R374). -/
def execStateChunk (s : State) : Host.Outcome State Fault Refusal :=
  occurs (s.twinOn && s.role == .standby) s fun s =>
    let b := s.chunkIn
    let n := fun (i k : Nat) => ofLe (slice b i k)
    let t := n 4 1 % 16
    let p := s.recordIn t 0x54575343 b
    let s := p.1
    if twoAccept p.2 && s.ledElsewhere t then
      if !s.on (TW_RXON t) then s
      else if n 20 4 ≠ s.get (TW_RXOFF t) then s.requestState [t]
      else
        let s := ((s.set (TW_CHOFF t) (n 20 4)).set (TW_CHLEN t) (n 24 4)).put (TW_LASTC t) ((n 5 1).testBit 0)
        (s.set (TW_RXOFF t) (n 20 4 + n 24 4)).inc (TW_RXN t)
    else
      let s := s.twinReject 3 p.2
      if s.on (TW_RXON t) then s.requestState [t] else s

/-- A transfer that has not finished within 1 s starts again (R374). -/
def execResyncTimeout (t : Nat) (s : State) : Host.Outcome State Fault Refusal :=
  occurs (decide (t < 16) && s.on (TW_RXON t)) s fun s =>
    let s := s.elapseTo (s.get (TW_RXAT t) + 1000 * grainsMs)
    ((s.ev 0x8012 0 t 1 (s.get (TW_RXN t))).set (TW_RXAT t) s.now).requestState [t]

end Sys2Proof.Machine
end

