-- ==== Sys2Proof/Machine/RegWrite.lean ====
section
/-! DEFINITION. Writes of BAR0 registers, W1C fields with their companion counters, and what a read of BAR0 returns (R14 to
R18, R290, R311). -/

namespace Sys2Proof.Machine
open Reg Hid

/-! ### Reads (R14 to R17, R231, R264, R287, R351) -/

/-- FC_STATUS of an OUT_PAIR channel, whose receivers see in every lane the levels that its pads have (R147, R174). -/
def State.outStatus (s : State) (c : Nat) : Nat :=
  let s := s.each Lane.all fun s l => (s.put (FC_STATUS_PINA c l.idx) (s.pinHigh c 0)).put (FC_STATUS_PINB c l.idx) (s.pinHigh c 1)
  s.regRead (0x6020 + 64 * c)

/-- The word that a register shows through a selector, the alert word as it is now; none for every other register (R231, R264,
R287, R330, R351). -/
def State.shownAt (s : State) (a : Nat) : Option Nat :=
  if a = 0xE010 then some s.alertNow
  else if 0x6000 ≤ a ∧ a < 0x7000 ∧ a % 64 = 0x20 ∧ s.get (FC_CFG_MODE ((a - 0x6000) / 64)) = 5 then some (s.outStatus ((a - 0x6000) / 64))
  else if 0x8038 ≤ a ∧ a < 0x8048 then
    let k := rodKey (s.get TN_RODSEL_BANK) (s.get TN_RODSEL_CHAN) (s.get TN_RODSEL_INDEX)
    some ((Sparse.get s.rodTab k []).getD ((a - 0x8038) / 4) 0)
  else if 0x804C ≤ a ∧ a < 0x806C then
    some (definedBits flowBits ((a - 0x804C) / 4) ((Sparse.get s.flowTab (s.get TN_FLOWSEL_FLOW) []).getD ((a - 0x804C) / 4) 0))
  else if a = 0x806C then
    let x := s.flowState (s.get TN_FLOWSEL_FLOW)
    some (if (s.flow (s.get TN_FLOWSEL_FLOW)).dir = 0 then 0x100FF else x.rxAge + 256 * x.sndAge + 65536 * bit x.stale + 131072 * bit x.rep)
  else if a = 0x8070 then
    let f := s.get TN_FLOWSEL_FLOW
    some (s.get (FL_REJ f) + 65536 * s.get (FL_MISS f))
  else if a = 0x9044 then
    let n := s.get TN_GSEL_SENDER
    some (s.get (GCNT_E n) + 65536 * s.get (GCNT_L n))
  else if 0xC000 ≤ a ∧ a < 0xD000 ∧ 0x28 ≤ a % 0x400 ∧ a % 0x400 < 0x4C then
    let n := (a - 0xC000) / 0x400
    some (s.rd (canMem n (s.get (CN_OBJSEL_OBJ n)) + (a % 0x400 - 0x28)) 4)
  else if 0xF114 ≤ a ∧ a < 0xF124 then some (s.xctx (s.get GRP_XSEL_SLICE) ((a - 0xF114) / 4))
  else if a = 0xF124 then some (s.get (EXP_SEQ (s.get GRP_XSEL_SLICE)))
  else if 0xF12C ≤ a ∧ a < 0xF140 then some (s.ictx (s.get GRP_ISEL_IMPORT) ((a - 0xF12C) / 4))
  else if a = 0xF140 then
    let i := s.get GRP_ISEL_IMPORT
    if i < 12 then some (s.get (IMP_AGE i) + 256 * s.get (IMP_STALE i) + 65536 * s.get (IMP_REJ i)) else none
  else none

/-- What a host reads at a word of BAR0, every write-only, reserved and unassigned bit as 0; it changes nothing (R14 to R17,
R290). -/
def State.barRead (s : State) (a : Nat) : Nat :=
  let a := a / 4 * 4
  match s.shownAt a with
  | some v => v
  | none => s.regRead a

/-! ### W1C fields (R14) -/

/-- A companion counter of a block: the offset of its W1C register, which of that register's bits it counts, and the counter's
offset, lowest bit and width. -/
structure Companion where
  evt : Nat
  bits : List Nat
  off : Nat
  lo : Nat
  width : Nat
  deriving DecidableEq, Repr

/-- Companion counters of a block that stands at some addresses. -/
structure CompanionBlock where
  base : Nat
  stride : Nat
  count : Nat
  rows : List Companion
  deriving DecidableEq, Repr

/-- The bits from `a` to `b`. -/
def bitRange (a b : Nat) : List Nat := (upto (b + 1 - a)).map (a + ·)

/-- The companion counters of the scan engine, the lanes, the exchange and the balance (R76, R77, R115 to R117). -/
def laneCompanions : List CompanionBlock :=
  [⟨0x4000, 0x1000, 1, (upto 3).map fun l => ⟨0x18, [l], 0x1C, 8 * l, 8⟩⟩,
   ⟨0x4400, 0x40, 16, [⟨0x30, [0], 0x34, 0, 16⟩, ⟨0x30, [1], 0x34, 16, 16⟩, ⟨0x30, [2], 0x38, 0, 16⟩,
     ⟨0x30, bitRange 3 7, 0x38, 16, 16⟩]⟩,
   ⟨0x3000, 0x100, 1, (upto 3).flatMap fun l => (upto 4).map fun i => ⟨0x14, [8 * l + i], 0x18 + 4 * l, 8 * i, 8⟩⟩,
   ⟨0x3100, 0x100, 1, (upto 3).map (fun l => (⟨0x8, [l], 0xC + 4 * l, 0, 32⟩ : Companion)) ++
     [⟨0x8, bitRange 3 12, 0x1C, 0, 16⟩]⟩,
   ⟨0x3200, 0x100, 1, [⟨0x8, [3], 0xC, 0, 16⟩, ⟨0x8, [0, 1, 2, 4], 0xC, 16, 16⟩]⟩]

/-- Those of the program states, channels, brake groups, network, timebase and CAN (R144, R174, R200, R231, R263, R264,
R287). -/
def fieldCompanions : List CompanionBlock :=
  [⟨0x5000, 0x100, 1, [⟨0x34, [0], 0x38, 0, 16⟩, ⟨0x34, bitRange 1 7, 0x38, 16, 16⟩]⟩,
   ⟨0x6000, 0x40, 64, [⟨0x2C, [0], 0x30, 0, 16⟩, ⟨0x2C, bitRange 1 6, 0x30, 16, 16⟩]⟩,
   ⟨0x7100, 0x40, 16, [⟨0x28, [0], 0x2C, 0, 16⟩, ⟨0x28, bitRange 1 6, 0x2C, 16, 16⟩]⟩,
   ⟨0x8000, 0x1000, 1, [⟨0xB4, bitRange 0 6, 0xB8, 0, 16⟩, ⟨0xB4, [7], 0xB8, 16, 16⟩, ⟨0xB4, bitRange 8 10, 0xBC, 0, 16⟩,
     ⟨0xB4, bitRange 11 13, 0xBC, 16, 16⟩]⟩,
   ⟨0x2000, 0x1000, 1, [⟨0x24, [0], 0x28, 0, 16⟩, ⟨0x24, [1], 0x28, 16, 16⟩]⟩,
   ⟨0x9000, 0x1000, 1, [⟨0x6C, [0], 0x70, 0, 16⟩, ⟨0x6C, bitRange 1 8, 0x70, 16, 16⟩]⟩,
   ⟨0xC000, 0x400, 4, [⟨0x74, [1], 0x78, 0, 16⟩, ⟨0x74, 0 :: bitRange 2 8, 0x78, 16, 16⟩]⟩]

/-- Those of the host interface, bridge, companion links, group, twin, recorder, update and power (R317, R349 to R351, R376,
R393, R416, R433). -/
def hostCompanions : List CompanionBlock :=
  [⟨0xD000, 0x100, 1, [⟨0x20, [0], 0x24, 0, 16⟩, ⟨0x20, bitRange 1 7, 0x24, 16, 16⟩]⟩,
   ⟨0xE000, 0x1000, 1, [⟨0x34, [1], 0x38, 0, 16⟩, ⟨0x34, 0 :: bitRange 2 6, 0x38, 16, 16⟩]⟩,
   ⟨0xF000, 0x40, 4, [⟨0x18, [0, 1], 0x1C, 0, 16⟩, ⟨0x18, bitRange 2 4, 0x1C, 16, 16⟩]⟩,
   ⟨0xF100, 0x100, 1, [⟨0x48, [2], 0x4C, 0, 16⟩, ⟨0x48, [0, 1, 3, 4, 5], 0x4C, 16, 16⟩]⟩,
   ⟨0x10000, 0x100, 1, [⟨0x2C, [0, 1, 2, 8], 0x30, 0, 16⟩, ⟨0x2C, bitRange 3 7, 0x30, 16, 16⟩]⟩,
   ⟨0x11000, 0x1000, 1, [⟨0x2C, [0], 0x30, 0, 16⟩, ⟨0x2C, bitRange 1 4, 0x30, 16, 16⟩]⟩,
   ⟨0x12000, 0x1000, 1, [⟨0x6C, [4], 0x70, 0, 16⟩, ⟨0x6C, [0, 1, 2, 3, 5, 6, 7], 0x70, 16, 16⟩]⟩,
   ⟨0x1000, 0x1000, 1, [⟨0x24, [0], 0x28, 0, 16⟩, ⟨0x24, bitRange 1 4, 0x28, 16, 16⟩]⟩]

/-- The companion counter of a bit of a W1C register at a word address, where it has one. -/
def companionOf (a i : Nat) : Option Fld :=
  (laneCompanions ++ fieldCompanions ++ hostCompanions).findSome? fun b =>
    if b.base ≤ a ∧ a < b.base + b.stride * b.count then
      let off := (a - b.base) % b.stride
      (b.rows.find? fun r => r.evt == off && r.bits.contains i).map fun r => ⟨a - off + r.off, r.lo, r.width, 0⟩
    else none

/-- Clears a W1C flag that is written with 1; where a hardware set meets the clear the flag stays and its companion counts
(R14). -/
def State.clearFlag (s : State) (a i : Nat) (meets : Bool) : State :=
  let f : Fld := ⟨a, i, 1, 0⟩
  if meets then
    match companionOf a i with
    | some c => s.raise f c
    | none => s.set f 1
  else s.set f 0

/-- The bits of the W1C fields at a word address. -/
def w1cBits (a : Nat) : List Nat :=
  (regFields a).flatMap fun p => if p.2 = .w1c then (upto p.1.w).map (p.1.lo + ·) else []

/-- Writes a word to the W1C fields of a register: ones clear; `sets` are the bits whose hardware set comes in the same moment
(R14). -/
def State.writeOnes (s : State) (a ones sets : Nat) : State :=
  s.each ((w1cBits a).filter fun i => ones.testBit i) fun s i => s.clearFlag a i (sets.testBit i)

/-- The host can write BAR0: the device has left its reset, PERST_N is released and the function is in D0 (R289 to R291). -/
def State.barOpen (s : State) : Bool := !s.on PERST && !s.on D3

/-- A write of ones to W1C fields at a word address (R14). -/
def execW1cClear (a ones sets : Nat) (s : State) : Host.Outcome State Fault Refusal :=
  occurs (s.barOpen && decide (a % 4 = 0)) s fun s => s.writeOnes a ones sets

/-! ### Writes that the host interface may refuse (R311) -/

/-- The pages are in use: polling is enabled, or a descriptor is in progress. -/
def State.pagesUsed (s : State) : Bool := s.on HIF_CTL_EN || !s.descs.isEmpty

/-- The submission ring is in use: enabled, or with a descriptor in progress. -/
def State.sqUsed (s : State) (r : Nat) : Bool := s.on (HIF_SQ_CFG_EN r) || s.descs.any fun d => d.ring == r

/-- The completion ring is in use: enabled, or named by a submission ring with a descriptor in progress. -/
def State.cqUsed (s : State) (c : Nat) : Bool :=
  s.on (HIF_CQ_CFG_EN c) || (s.ringsOf c).any fun r => s.descs.any fun d => d.ring == r

/-- The read-write fields at an address but for a ring's EN would keep their values. -/
def State.sameFields (s : State) (a v : Nat) : Bool :=
  (regFields a).all fun p => p.2 != .rw || p.1.lo == 0 || s.get p.1 == v / 2 ^ p.1.lo % 2 ^ p.1.w

/-- A write of HIF_SQ_CFG: the ring's setting, while it is not in use, and EN (R311). -/
def State.sqConfig (s : State) (r v : Nat) : State :=
  let a := 0xD108 + 16 * r
  let en := v.testBit 0
  if s.sqUsed r && !s.sameFields a v then s.cfgReject a
  else if en && !s.on (HIF_SQ_CFG_EN r) && !s.on (HIF_CQ_CFG_EN (v / 16 % 16)) then s.cfgReject a
  else ((s.set (HIF_SQ_CFG_SIZE r) (v / 2)).set (HIF_SQ_CFG_CQ r) (v / 16)).sqEnable r en

/-- A write of HIF_CQ_CFG: the ring's setting, while it is not in use, and EN (R311). -/
def State.cqConfig (s : State) (c v : Nat) : State :=
  let a := 0xD208 + 16 * c
  let en := v.testBit 0
  if s.cqUsed c && !s.sameFields a v then s.cfgReject a
  else
    let s := (s.set (HIF_CQ_CFG_SIZE c) (v / 2)).set (HIF_CQ_CFG_VEC c) (v / 16)
    (s.set (HIF_CQ_CFG_IEN c) (v / 512)).cqEnable c en

/-- A write into the MSI-X table: a vector unmasked with its message pending sends it (R309, R320). -/
def State.msixWrite (s : State) (a v : Nat) : State :=
  let n := (a - 0xD800) / 16
  match a % 16 with
  | 0 => s.set (MSIX_ADDR_LO n) v
  | 4 => s.set (MSIX_ADDR_HI n) v
  | 8 => s.set (MSIX_DATA n) v
  | _ =>
    let s := s.set (MSIX_MASK n) v
    if !s.on (MSIX_MASK n) && s.on (MSIX_PENDING n) then (s.set (MSIX_PENDING n) 0).inc (V_MSG n) else s

/-- A write into the registers of the host interface (R311, R317 to R319). -/
def State.hifWrite (s : State) (a v : Nat) : State :=
  if a = 0xD004 then s.hifEnable (v.testBit 0)
  else if a = 0xD00C then
    if v % 1024 = 0 ∨ 1000 < v % 1024 then s.cfgReject a else s.set HIF_POLL_INTERVAL v
  else if 0xD010 ≤ a ∧ a < 0xD020 then if s.pagesUsed then s.cfgReject a else s.regStore a v
  else if 0xD100 ≤ a ∧ a < 0xD200 then
    let r := (a - 0xD100) / 16
    if a % 16 = 8 then s.sqConfig r v
    else if a % 16 = 12 then s
    else if s.sqUsed r then s.cfgReject a else s.regStore a v
  else if 0xD200 ≤ a ∧ a < 0xD300 then
    let c := (a - 0xD200) / 16
    if a % 16 = 8 then s.cqConfig c v
    else if a % 16 = 12 then s
    else if s.cqUsed c then s.cfgReject a else s.regStore a v
  else if 0xD800 ≤ a ∧ a < 0xDA00 then s.msixWrite a v
  else s.regStore a v

/-! ### Writes that submit something (R14) -/

/-- A write into the lane, scan, state, brake and power registers, whose fields are stored: what a 1 in a write-only field
submits (R77, R115, R117, R144, R145, R199, R263, R433). -/
def State.coreAction (s : State) (a v : Nat) : State :=
  let go := v.testBit 31
  if a = 0x1008 then if go then s.powerRequest (v % 8) 0 0xFFFF else s
  else if a = 0x2004 then if v.testBit 0 then s.tbCapture else s
  else if a = 0x302C then if go then s.modeRequest (v % 16) (v / 16 % 4) else s
  else if a = 0x3034 then
    if v % 8 = 0 then s else s.unRetire (v.testBit 0) (v.testBit 1) (v.testBit 2)
  else if a = 0x322C then if v.testBit 0 then s.padLatchClear else s
  else if a = 0x4014 then s.paceNote
  else if 0x4400 ≤ a ∧ a < 0x4800 ∧ a % 0x40 = 0x3C then if v.testBit 0 then s.maxClear ((a - 0x4400) / 0x40) else s
  else if a = 0x5004 then if go && !s.blk 2 then s.psRequest (v % 4) (v.testBit 2) 0 else s
  else if a = 0x5018 then if go && !s.blk 2 then s.taskRestart (v % 16) (v.testBit 4) 0 else s
  else if a = 0x7010 then if go then s.brakeReset (v % 65536) 0 else s
  else s

/-- The same of the network, CAN, bridge and twin registers (R231, R264, R287, R333, R349, R376). -/
def State.busAction (s : State) (a v : Nat) : State :=
  let go := v.testBit 31
  let n := (a - 0xC000) / 0x400
  if a = 0x9064 then
    if go then s.wakeBurst (s.get TN_WAKEMASK0_NODES + 2 ^ 32 * s.get TN_WAKEMASK1_NODES) (v % 65536) else s
  else if 0xC000 ≤ a ∧ a < 0xD000 ∧ a % 0x400 = 0x1C then if v.testBit 0 then s.canRecover n else s
  else if 0xC000 ≤ a ∧ a < 0xD000 ∧ a % 0x400 = 0x4C then if go then s.objClear n (v % 128) 0 else s
  else if a = 0xE03C then if v.testBit 0 then s.bridgeMaxClear else s
  else if a = 0x10020 then if go then s.soloRequest 0 else s
  else s

/-- A write of a word to BAR0: read-write fields are stored, a 1 in a write-only field submits what its command of its own
does, W1C fields are cleared, and read-only, set-loaded and unassigned bits ignore it. BR_SEMCMD does nothing through BAR0 (R14
to R18, R290, R311, R333). -/
def State.barWrite (s : State) (a v : Nat) : State :=
  if 0xD000 ≤ a ∧ a < 0xE000 then (s.hifWrite a v).writeOnes a v 0
  else if 0x5100 ≤ a ∧ a < 0x5500 then s.dbgTaskWrite (a - 0x5000) v
  else if a = 0x8020 then
    if v.testBit 31 then s.mdio (v / 2 ^ 21 % 32) (v / 2 ^ 16 % 32) (v % 65536) (v / 2 ^ 26 % 2) else s.regStore a v
  else (((s.regStore a v).coreAction a v).busAction a v).writeOnes a v 0

/-- A write of one aligned word of BAR0; a write of any other size or alignment is ignored and is no command (R14 to R18,
R290). -/
def execRegisterWrite (a v : Nat) (s : State) : Host.Outcome State Fault Refusal :=
  occurs (s.barOpen && decide (a % 4 = 0) && decide (v < 2 ^ 32)) s fun s => s.barWrite a v

end Sys2Proof.Machine
end

