-- ==== Sys2Proof/Machine/Staging.lean ====
section
/-! DEFINITION. A task's staging point, 8 µs before its action instant: deadlines and overruns, the image that is staged, and
the requests of its staged words that shared blocks judge there (R24, R33, R67, R71 to R73, R88, R110, R120, R124, R141, R220,
R230, R272, R355, R410, R419, R421). -/

namespace Sys2Proof.Machine
open Reg Hid

/-! ### Deadlines (R33, R71 to R73, R88) -/

/-- A scan overrun: a task that trips, or one that skips up to its limit (R72, R73). -/
def State.overrun (s : State) (t : Nat) : State :=
  let s := s.raise (TSK_EVT_OVERRUN t) (TSK_EVCNT0_OVERRUN_CNT t)
  let n := s.get (TSK_STATE_CONSEC t) + 1
  if s.isSafety t || !s.on (TSK_CFG_OVR t) then (s.ev 0x2001 0 (s.furlong % 2 ^ 32) t 0).trip t
  else if s.get (TSK_LATE_SKIP_LIMIT t) < n then (s.ev 0x2001 0 (s.furlong % 2 ^ 32) t 1).trip t
  else
    let s := ((s.set (TSK_STATE_CONSEC t) n).set (TSK_STATE_SKIPPING t) 1).raise (TSK_EVT_SKIP t) (TSK_EVCNT0_SKIP_CNT t)
    s.ev 0x2002 0 (s.furlong % 2 ^ 32) t n

/-- Two presentations that disagree, and no third by the deadline: the task trips, and the balance waits for the third until
the action instant (R88). -/
def State.deadlineDissent (s : State) (t : Nat) : State :=
  let s := (s.noMajority t 2).balLast t 5 0
  let s := s.setBal t { s.bal t with deadline := true }
  (((s.set (TSK_STATE_TRIPPED t) 1).set (TRIP_NEXT t) 0).set (SCANNING t) 0).paceNote

/-- What has become of the period's scan at the deadline (R33, R72, R73, R88, R123, R133). -/
def State.scanDeadline (s : State) (t : Nat) : State :=
  if s.ledElsewhere t then s.shadowDeadline t
  else if s.on (TRIP_NEXT t) then s.trip t
  else if s.halted t then s
  else if s.on (SCANNING t) then
    let seen := (s.bal t).seen.filter fun q => !s.exercised t q.1
    if s.prog == .stop || s.prog == .safe then s.abandonScan t
    else if 2 ≤ seen.length then s.deadlineDissent t
    else s.overrun t
  else if s.on (TSK_STATE_SKIPPING t) then s.set (TSK_STATE_SKIPPING t) 0
  else if s.scans t then s.set (TSK_STATE_CONSEC t) 0
  else s

/-! ### The staged image (R67, R68, R72, R73, R120, R121, R141, R355, R421) -/

/-- The tasks are being parked for a power state (R421). -/
def State.parking (s : State) : Bool := s.get PW_PHASE == 3 && s.get PWR_STATUS_STEP == 3

/-- The task stages a voted image: it runs, no restart is due, and it is not being parked. -/
def State.stagesVoted (s : State) (t : Nat) : Bool :=
  s.prog == .run && s.on (STARTED t) && !s.tripped t && !s.stopped t && !s.on (RESTART t) &&
    !s.parking && s.get (PARKED t) == 0

/-- The task stages the image it had before HOLD (R120). -/
def State.stagesHeld (s : State) (t : Nat) : Bool :=
  s.prog == .hold && !s.isSafety t && s.on (DBG_TCFG_HOLD_Q t) && s.on (STARTED t) && !s.tripped t && !s.stopped t &&
    !s.parking

/-- Stages a task's slice from an image, with its output forces; the values without them are kept for a safety force that is
removed at the action instant (R67, R141, R142). -/
def State.stageFrom (s : State) (t src : Nat) : State :=
  let lo := s.get (TSK_QSLICE_BASE t)
  let n := 4 * s.get (TSK_QSLICE_LEN t)
  (((s.copy (src + lo) (unforcedImg + lo) n).copy (src + lo) (stagedImg + lo) n).applyForces t true stagedImg).set (STG_KIND t) 1

/-- Nothing new is staged: a skipped period, or a frozen staging, launches the previous image again (R73, R355). -/
def State.restages (s : State) (t : Nat) (x : TwinStage) : Bool :=
  s.stagesVoted t && (x == .frozen || (x == .normal && s.on (TSK_STATE_SKIPPING t)))

/-- Stages the image that the task's state and the twin's give it. -/
def State.stageImage (s : State) (t : Nat) (x : TwinStage) : State :=
  let s := s.set (STG_AT t) (s.now + 1)
  if s.restages t x then s
  else if x == .normal && s.stagesVoted t then s.stageFrom t votedImg
  else if x == .normal && s.stagesHeld t then s.stageFrom t holdImg
  else (s.putSafe t stagedImg).set (STG_KIND t) 2

/-! ### What shared blocks take from the staged words (R24, R220, R230, R272, R419) -/

/-- The output-fed SEND flows of a task: their data are ready, where the context passes its check (R24, R217, R220). -/
def State.outputFed (s : State) (t : Nat) : State :=
  s.each (s.flows.filter fun f =>
      let x := s.flow f
      x.dir == 1 && x.space == 0 && x.en && x.task == t) fun s f =>
    if !s.ctxFit f then s.ctxCheck f 0
    else if (s.alone t).isSome && (s.flow f).safety then s.refuseAlone t 8 f
    else s.sendReady f (s.bytes (stagedImg + (s.flow f).off) (s.flow f).len)

/-- The CAN requests of a task's staged entries (R24, R272). -/
def State.stageCan (s : State) (t : Nat) : State :=
  if (s.alone t).isSome then
    s.each cans fun s n => s.each (s.canSends n t) fun s k =>
      if (s.canObj n k).safety then s.refuseAlone t 12 (128 * n + k) else s.canStageObj n k
  else s.canStage t

/-- The switch words of the bound task, judged at every staging: a switch is armed, refused or cancelled (R230, log 34). Where the task has become SINGLE, the network engine refuses a switch that
its words ask for (R24, R146). -/
def State.switchWords (s : State) (t : Nat) : State :=
  if s.on TN_SWBIND_EN && s.get TN_SWBIND_TASK == t && (s.alone t).isSome then
    if (s.byte (stagedImg + s.get TN_SWBIND_OFFSET)).getLsbD 0 then s.refuseAlone t 8 0 else s
  else if s.on TN_SWBIND_EN && s.get TN_SWBIND_TASK == t && s.isTriple t then
    let w := s.rd (stagedImg + s.get TN_SWBIND_OFFSET) 4
    let f := s.rd (stagedImg + s.get TN_SWBIND_OFFSET + 4) 4
    let bank := w / 2 % 2
    let ahead := (f + 2 ^ 32 - s.furlong % 2 ^ 32) % 2 ^ 32
    let pend := s.on TN_BANK_PENDING
    let refuse := fun (s : State) (r : Nat) => (s.raise TN_EVT_SWREF TN_EVCNT1_SCHED_CNT).ev 0x500F 0 f r
    if w % 2 = 0 then
      let left := (s.get TN_SWF_F_SW + 2 ^ 32 - s.furlong % 2 ^ 32) % 2 ^ 32
      if pend && decide (1 ≤ left) && decide (left < 2 ^ 31) then s.set TN_BANK_PENDING 0 else s
    else if pend then refuse s 1
    else if bank = s.get TN_BANK_ACTIVE then refuse s 2
    else if 2 ≤ ahead ∧ ahead < 2 ^ 31 then ((s.set TN_BANK_PENDING 1).set TN_BANK_TARGET bank).set TN_SWF_F_SW f
    else refuse s 0
  else s

/-- The power request that the request task's lanes presented: it counts when it differs from the one before (R61, R62, R419). -/
def State.stagePower (s : State) (t : Nat) : State :=
  if s.get PWR_CFG_RTASK = t then
    let s := s.set PW_FWD 0
    match s.on PWR_CFG_RTASK_EN && s.isTriple t, (s.bal t).voted with
    | true, some (.image _ p) =>
      let v := if 5 < p then 0 else p - 1
      if p = 0 ∨ v = s.get PW_STG then s else (s.set PW_STG v).set PW_FWD 1
    | _, _ => s
  else s

/-- The state copy of a task that leaves a lane starts after the staging of its next completed scan; a staging point that finds
it complete lets the hand-over take place at the action instant, and after four periods the request is refused (R108, R110). -/
def State.stageMode (s : State) (t : Nat) : State :=
  if s.on MODE_PEND && s.get MODE_PT == t && s.modeNeedsCopy then
    match s.get MODE_COPY with
    | 0 => if s.on (SCANNING t) then s else (s.set MODE_COPY 1).set MODE_TRY 0
    | 1 =>
      let n := s.get MODE_TRY + 1
      if n < 4 then s.set MODE_TRY n
      else
        let s := ((s.set MODE_PEND 0).set MODE_COPY 0).modeRefuse t (s.get MODE_PM) 6
        s.settle 0x7A (fun _ => true) stRefused 6
    | _ => s.set MODE_COPY 3
  else s

/-- A request for STOP or HOLD has taken effect in the task, and a task that is being parked has staged its safe values (R124,
R421). -/
def State.stageState (s : State) (t : Nat) : State :=
  let s := if s.on PS_PEND && (s.prog == .stop || s.prog == .hold) && !s.idleTask t then s.psReached t else s
  if s.parking && s.get (PARKED t) == 0 then s.set (PARKED t) 1 else s

/-- What the shared blocks take from a staging; a skipped or frozen one brings them nothing new, and a unit that is not ACTIVE
makes no CAN request for its twin tasks (R73, R220, R230, R272, R355, R410). -/
def State.stageBlocks (s : State) (t : Nat) (x : TwinStage) : State :=
  if s.restages t x then s
  else
    let s := s.outputFed t
    let s := if x == .normal then s.stageCan t else s
    (s.switchWords t).confirmAt t

/-- A task's staging point (R67). -/
def execStaging (t : Nat) (s : State) : Host.Outcome State Fault Refusal :=
  occurs (decide (t < 16) && s.enabled t && s.on CFG_ON && !s.on ACT_STEP && !s.blk 3 && s.get (PARKED t) != 2) s fun s =>
    let a := s.instantFrom t (s.get (A_FROM t))
    let s := s.elapseNet (a - 8 * grainsUs)
    let s := s.set (NEXT_A t) (s.now + (a - s.netTime))
    let s := (((s.lateDue t).scanDeadline t).forceCheck none).takeForces t
    let x := s.twinStage t a
    let s := (s.showFrozen t x).stageImage t x
    let s := ((s.stageBlocks t x).stagePower t).stageMode t
    ((s.stageState t).snapCheck t).leaseStaged t

end Sys2Proof.Machine
end

