-- ==== Sys2Proof/Machine/Start.lean ====
section
/-! DEFINITION. Supplies, resets, start-up, the TAP, PERST_N and the tick of operating time (R5, R9, R202, R263, R291, R382,
R438 to R444, R450, R451). -/

namespace Sys2Proof.Machine
open Reg Hid

/-! ### Supplies and resets (R438, R442, R444, R451) -/

/-- A supply is lost: 0 PG_CORE, 1 PG_IO, 2 VDD_SOC by the device's monitor, 3 VDD_MRAM, 4 VIO_GP. The device is in internal
reset; in OFF these supplies are down already (R442). -/
def execSupplyLoss (which : Nat) (s : State) : Host.Outcome State Fault Refusal :=
  happens (decide (which < 5) && decide (s.get PW_STATE ≤ 3)) s fun s =>
    let s := s.deviceReset 0
    if which = 0 then s.set GLB_SUPPLY_PG_CORE 0
    else if which = 1 then s.set GLB_SUPPLY_PG_IO 0
    else if which = 3 then s.set GLB_SUPPLY_MRAM_OK 0
    else if which = 4 then s.set GLB_SUPPLY_GP_OK 0
    else s

/-- PG_CORE and PG_IO are valid again: a new S (R442). -/
def execPgValid (s : State) : Host.Outcome State Fault Refusal :=
  happens (s.on IN_RESET) s fun s =>
    (((s.set GLB_SUPPLY_PG_CORE 1).set GLB_SUPPLY_PG_IO 1).set GLB_SUPPLY_MRAM_OK 1).set GLB_SUPPLY_GP_OK 1

/-- A lane rail falls below 0.70 V: the lane's sampling front and engine are held in reset, its scans end without a result
and its enables go de-energised (R165, R442). -/
def execLaneRailLow (l : Lane) (s : State) : Host.Outcome State Fault Refusal :=
  happens (!s.on (LANE_RESET l.idx)) s fun s =>
    let s := (s.set (LANE_RESET l.idx) 1).set (GLB_SUPPLY_LANE_OK l.idx) 0
    if s.powered then (s.each tasks fun s t => s.dropScan l t).driveOff l else s

/-- A lane rail returns (R442). -/
def execLaneRailRestored (l : Lane) (s : State) : Host.Outcome State Fault Refusal :=
  happens (s.on (LANE_RESET l.idx)) s fun s => (s.set (LANE_RESET l.idx) 0).set (GLB_SUPPLY_LANE_OK l.idx) 1

/-- TEST_EN rises: a device reset that holds while it is high (R438, R442). -/
def execTestEnRise (s : State) : Host.Outcome State Fault Refusal :=
  happens (!s.on TEST_EN) s fun s =>
    let s := s.set TEST_EN 1
    if s.get PW_STATE ≤ 2 then s.deviceReset 2 else s

/-- TEST_EN falls: the boundary-scan instructions act as BYPASS again (R438). -/
def execTestEnFall (s : State) : Host.Outcome State Fault Refusal :=
  happens (s.on TEST_EN) s fun s =>
    let s := s.set TEST_EN 0
    if 2 ≤ s.get TAP_IR then (s.set TAP_IR 0).set TAP_DR 0 else s

/-- VIO_AON is applied or returns: the always-on domain has lost everything and starts the device as a wake from OFF (R433,
R444). -/
def execAonPowerOn (s : State) : Host.Outcome State Fault Refusal :=
  .next (
    let s := s.remains 0
    let s := (((s.set AON_OPT 0).set AON_PCYC 0).set AON_OK 0).set WK_KEEP 0
    let s := s.resetRegs 0x1010 8
    let s := (((s.restore WF_N 1).restore (WF_CODE 0) 8).restore WF_DROPS 1).restore WF_FINAL 1
    let s := (((s.set WK_SRC 0).set WK_FROM 4).set WK_US 0).set WK_TRY 0
    let s := (((s.set WK_STEP 1).set WK_DOWN 0).set WK_LOST 0).restore (WK_FAIL 0) 3
    ((s.set PCIE_WAKE 0).set GLB_SUPPLY_PFAIL 0).set PW_STATE 4)

/-- PORST_N is recognised low: a device reset, deferred while PFAIL_N's sequence runs, ignored in DEEP SLEEP and OFF (R451). -/
def execPorstN (s : State) : Host.Outcome State Fault Refusal :=
  happens (!s.on PORST_LOW) s fun s =>
    let s := s.set PORST_LOW 1
    if 3 ≤ s.get PW_STATE then s
    else if s.powered && s.on GLB_SUPPLY_PFAIL && s.on PFAIL_SEQ then s.set PORST_DEFER 1
    else s.deviceReset 1

/-- PORST_N is released: a start that waited for it counts from here (R451). -/
def execPorstNRelease (s : State) : Host.Outcome State Fault Refusal :=
  happens (s.on PORST_LOW) s fun s => s.set PORST_LOW 0

/-! ### Start-up (R450) -/

/-- Nothing holds internal reset any longer. -/
def State.mayStart (s : State) : Bool :=
  !s.on RELEASED && decide (s.get PW_STATE = 0) && s.on GLB_SUPPLY_PG_CORE && s.on GLB_SUPPLY_PG_IO && s.on GLB_SUPPLY_MRAM_OK &&
    s.on GLB_SUPPLY_GP_OK && !s.on TEST_EN && !s.on PORST_LOW

/-- Internal reset is released `us` microseconds after S, at most 500, with the straps as sampled and the lanes that fail
their self-check (R99, R439, R450, R465). -/
def execInternalResetRelease (devid side us : Nat) (fail : List Lane) (s : State) : Host.Outcome State Fault Refusal :=
  happens (s.mayStart && decide (devid < 4) && decide (side < 2) && decide (us ≤ 500)) s fun s => s.release450 devid side us fail

/-- A copy of the floor record with a correct CRC and its epoch (R400). -/
def State.floorCopy (s : State) (i : Nat) : Option (Nat × Nat) :=
  let b := s.bytes (floorRec i) 72
  if ofLe (b.drop 68) = crc32c (b.take 68) then some (i, ofLe (slice b 64 4)) else none

/-- The floors as a copy of the record holds them. -/
def State.takeFloors (s : State) (i : Nat) : State :=
  s.each (upto 4) fun s k => s.setFloor k (s.rd (floorRec i + 8 * k) 8)

/-- The floor record at start-up: the one of this epoch, that of an interrupted raise, which is completed, or none (R400). -/
def State.recoverFloors (s : State) : State :=
  let n := s.get NV_FUSE
  let cs := (upto 2).filterMap s.floorCopy
  match cs.find? fun c => c.2 == n, cs.find? fun c => c.2 + 1 == n with
  | some c, _ => (s.takeFloors c.1).set UPD_FUSE_RECOK 1
  | none, some c =>
    let s := s.takeFloors c.1
    let s := s.each ((upto 4).filter fun k => s.on (KIND_OK k)) fun s k =>
      s.setFloor k (max (s.floorOf k) (s.runningHdr k).floor)
    s.writeFloors.set UPD_FUSE_RECOK 1
  | none, none =>
    let epoch := s.rd (floorRec 0 + 64) 4
    let s := s.each (upto 4) fun s k => s.setFloor k (s.runSvn k)
    ((s.set UPD_FUSE_RECOK 0).raise UPD_EVT_FLOOR UPD_EVCNT_OTHER_CNT).ev 0x900F 0 n epoch

/-- A kind has never been written: the first word of its place is zero. -/
def State.kindEmpty (s : State) (k : Nat) : Bool := (s.runningHdr k).marker == 0

/-- The inactive settings copy holds a valid image that has not been marked invalid (R408, R416). -/
def State.inactiveValid (s : State) : Bool :=
  !s.on NV_SETBAD && (s.set UPD_ACTSET_ACTIVE (1 - s.get UPD_ACTSET_ACTIVE)).kindValid 3

/-- MRAM is ready: settings pointer and fuse count are read, an interrupted session or an unconfirmed probation is undone,
the running images are checked, the floors recovered and the keys shown; the recorder's search may begin (R400, R407, R408,
R412, R417, R450). -/
def execMramReady (s : State) : Host.Outcome State Fault Refusal :=
  occurs (s.on RELEASED && s.get START_STEP == 0) s fun s =>
    let s := ((s.set UPD_ACTSET_ACTIVE (s.get NV_SETACT)).set UPD_FUSE_USED (s.get NV_FUSE)).set START_STEP 1
    let j := s.get NV_JSTATE
    let s := s.set UPD_STAT_JSTATE j
    let s := if j = 1 ∨ j = 2 then s.replay (maskKinds 5 (s.get NV_JKINDS)) 3
      else if j = 3 then s.updUndo 1 else s
    let s := s.each (upto 4) fun s k =>
      if s.kindEmpty k then s
      else if s.kindValid k then s.set (KIND_OK k) 1
      else ((s.set (KIND_OK k) 0).set (START_BAD k) 1).ev 0x9010 0 k
    (s.recoverFloors.put UPD_ACTSET_PREV s.inactiveValid).showKeys.showImages

/-- The logic image is loaded into every lane in the vote and checked; at a start-up an image that fails leaves none running,
in the pause of an activation it starts fallback (R407, R409, R412, R417, R450). -/
def execLogicImageLoaded (ok : Bool) (s : State) : Host.Outcome State Fault Refusal :=
  let act := s.get ACT_STEP == 2 || (s.get ACT_STEP == 1 && !s.actKinds.testBit 0)
  occurs (s.get START_STEP == 1 || act) s fun s =>
    if s.get START_STEP = 1 then
      let s := if ok || !s.on (KIND_OK 1) then s
        else ((s.set (KIND_OK 1) 0).set (START_BAD 1) 1).ev 0x9010 0 1
      s.loadLogic.showImages.set START_STEP 2
    else if !ok then s.updFallback 3
    else (if s.actKinds.testBit 1 then s.loadLogic else s).set ACT_STEP 3

/-- The configuration set is applied: the PHYs leave reset, and at a start-up the settings windows are loaded and the restart
is chosen (R128, R129, R203, R409, R411, R450). -/
def execConfigurationSetApplied (ok : Bool) (s : State) : Host.Outcome State Fault Refusal :=
  occurs (s.get START_STEP == 2 || s.get ACT_STEP == 3) s fun s =>
    if s.get START_STEP = 2 then
      let s := if ok || !s.on (KIND_OK 2) then s
        else ((s.set (KIND_OK 2) 0).set (START_BAD 2) 1).ev 0x9010 0 2
      let s := ((s.loadConfig.set PHYRST 1).set START_STEP 3).set HIF_STATUS_READY 1
      let s := (s.set START_OP (s.opTime % 2 ^ 32)).set OPT_OP s.opTime
      let s := s.set GLB_START_CFG_MS ((s.get START_US + s.now / grainsUs) / 1000)
      let s := if s.get START_CAUSE = 1 ∨ s.get START_CAUSE = 2 then s else s.wakeRebroadcast
      (s.loadWindow (Lane.all.filter s.inVote)).chooseRestart
    else if !ok then s.updFallback 3
    else (if s.actKinds.testBit 2 then s.loadConfig else s).set ACT_STEP 4

/-! ### The TAP (R5, R9, R438) -/

/-- The TAP has power. -/
def State.tapOn (s : State) : Bool := decide (s.get PW_STATE ≤ 2)

/-- BYPASS: one register bit that captures 0 (R9, R438). -/
def State.bypass (s : State) : State := (s.set TAP_IR 0).set TAP_DR 0

/-- TAP BYPASS (R438). -/
def execBypass (s : State) : Host.Outcome State Fault Refusal := happens s.tapOn s State.bypass

/-- TAP IDCODE (R5). -/
def execIdcode (s : State) : Host.Outcome State Fault Refusal :=
  happens s.tapOn s fun s => (s.set TAP_IR 1).set TAP_DR 0x13C64E7B

/-- The boundary register takes what is shifted in at TDI: the command does not carry it, so it is free (R9, log 101). -/
def State.preload (s : State) : State :=
  let (v, s) := s.free 128
  s.set TAP_BSR v

/-- TAP SAMPLE/PRELOAD: with TEST_EN low it acts as BYPASS; else the boundary register is preloaded (R9, R438). -/
def execSamplePreload (s : State) : Host.Outcome State Fault Refusal :=
  happens s.tapOn s fun s => if s.on TEST_EN then s.preload.set TAP_IR 2 else s.bypass

/-- TAP EXTEST: with TEST_EN low it acts as BYPASS; else the field pins carry the boundary register's levels, those preloaded where
SAMPLE/PRELOAD came just before (R9, R438). -/
def execExtest (s : State) : Host.Outcome State Fault Refusal :=
  happens s.tapOn s fun s =>
    if s.on TEST_EN then (if s.get TAP_IR = 2 then s else s.preload).set TAP_IR 3 else s.bypass

/-! ### PERST_N (R291, R401, R450) -/

/-- The ring state that no register holds goes back to reset. -/
def State.ringsReset (s : State) : State :=
  let s := ((s.restore (SQ_TAIL 0) 16).restore (CQ_HEAD 0) 16).restore SQ_TURN 1
  let s := ((s.restore DB_FAILS 1).restore POLL_AT 1).restore BURST_END 1
  let s := ((s.restore (V_CNT 0) 32).restore (V_AT 0) 32).restore (SNAP_TRY 0) 16
  ((s.restore HEART_AT 1).restore D3 1).restore PCIE_AT 1

/-- PERST_N is asserted: the host interface is reset, its descriptors are abandoned, snapshots dropped, and its update session
is released; nothing else changes (R291). -/
def execPerstNAssertion (s : State) : Host.Outcome State Fault Refusal :=
  happens (!s.on PERST) s fun s =>
    let s := s.set PERST 1
    if s.on IN_RESET || decide (3 ≤ s.get PW_STATE) then s
    else
      let n := s.descs.length
      let snaps := (tasks.filter fun t => s.on (HIF_SNAP_PENDING t)).length
      let held := s.get UPD_SESSION_HOLDER == 1
      let s := if held then s.release 2 else s
      let s := s.relayEnd.ringsReset
      let s := State.resetRegs { s with descs := [], shadowQ := [] } 0xD000 0x1000
      (s.raise HIF_EVT_PERST HIF_EVCNT_FAULT_CNT).ev 0x7003 0 n snaps (bit held)

/-- PERST_N is released: the endpoint can train again (R291, R450). -/
def execPerstNRelease (s : State) : Host.Outcome State Fault Refusal :=
  happens (s.on PERST) s fun s => (s.set PERST 0).put HIF_STATUS_READY (s.get START_STEP == 3)

/-! ### Ports, timebase, operating time -/

/-- A port's SGMII receiver gains or loses code-group synchronisation, or its control word changes. The code errors that a loss
is made of are a collision in the window of a coldstart (R202, R203, R251). -/
def execCodeGroupSynchronisation (p : Nat) (sync gig : Bool) (s : State) : Host.Outcome State Fault Refusal :=
  occurs (decide (p < 4)) s fun s =>
    let was := s.portUp p
    let s := if !sync && s.used p && s.get TN_SYNCST_STATE == 2 then s.collision p 0xFFFFFFFF 0 else s
    let s := ((s.put (TN_PORT_SYNC p) sync).put (PHY_SPEED p) gig).put (TN_PORT_LINK p) (s.on (PHY_LINK p) && gig)
    s.portChange p was (if !sync then 1 else 2)

/-- The timebase PLL loses lock (R263). -/
def execPllLostLock (s : State) : Host.Outcome State Fault Refusal :=
  occurs (s.on TB_STATUS_PLL_LOCK) s fun s => (s.set TB_STATUS_PLL_LOCK 0).raise TB_EVT_PLL_UNLOCK TB_EVCNT_PLL_CNT

/-- Seconds left until `end_` grains, rounded up. -/
def State.secondsTo (s : State) (end_ : Nat) : Nat := ceilDiv (end_ - s.now) (1000 * grainsMs)

/-- A counter of milliseconds that reads all ones until it has started. -/
def State.ageMs (s : State) (f : Fld) : State := if s.get f = 2 ^ 32 - 1 then s else s.inc f

/-- The four die temperatures are measured anew: free values (R455, log 4). -/
def State.temperatures (s : State) : State :=
  s.each [GLB_TEMP_T_LA, GLB_TEMP_T_LB, GLB_TEMP_T_LC, GLB_TEMP_T_SOC] fun s f =>
    let x := s.free 8
    x.2.set f x.1

/-- Operating time advances by 1 ms, with everything that counts in it or is updated every millisecond (R103, R131, R199,
R382, R401, R410, R455). -/
def execOperatingTimeTick (s : State) : Host.Outcome State Fault Refusal :=
  occurs true s fun s =>
    let s := s.elapseTo (s.get TICK_AT)
    let s := (s.set TICK_AT (s.now + grainsMs)).setOpTime (s.opTime + 1)
    let s := s.each (upto 16) fun s g => (s.ageMs (BRK_DARKAGE_AGE g)).ageMs (BRK_BRIGHTAGE_AGE g)
    let s := s.each Lane.all fun s l => s.set (LN_TRANS_T24 l.idx) (min 15 (s.recentTransients l).length)
    let s := s.setIf (s.on DBG_PSTATE_UNLOCK) DBG_PSTATE_UNLOCK_S (s.secondsTo (s.get UNLOCK_AT + 600 * 1000 * grainsMs))
    let s := s.setIf (s.on UPD_SESSION_HOLDER) UPD_SESSION_LAPSE_S (s.secondsTo (s.get SES_AT + 60 * 1000 * grainsMs))
    let s := s.setIf (s.on UPD_STAT_PROB) UPD_STAT_CONF_S
      (ceilDiv (s.get PROB_FROM + 1000 * s.get UPD_CFG_CWIN - s.opTime) 1000)
    s.temperatures

end Sys2Proof.Machine
end

