-- ==== Sys2Proof/Machine/Update.lean ====
section
/-! DEFINITION. What carries session commands: the host ring's opcodes, the messages of the maintenance flow and of the twin,
and the relay to the partner (R301, R401 to R403). -/

namespace Sys2Proof.Machine
open Reg Hid

/-! ### The relay (R403) -/

/-- Sends the next piece of the relayed command. -/
def State.relayPiece (s : State) (p0 : Nat) : State :=
  let pos := s.get REL_POS
  let id := (s.get REL_ID + 1) % 65536
  let s := (s.set REL_ID id).set REL_BUSY 1
  s.twinSend 0x160000 (updMsg (s.get REL_OP) 0 id p0 (s.get REL_OFF + pos) (s.bytes (relayBuf + pos) (min 16384 (s.get REL_LEN - pos))))

/-- A host command goes to the partner; its descriptor waits for the answer. -/
def State.relay (s : State) (d : Desc) (data : List Byte) : State :=
  if s.twinLink.isNone then s.finish d stAborted
  else if s.on REL_BUSY then s.finish d stBusy
  else
    let s := (((s.set REL_ON 1).set REL_OP d.op).set REL_OFF d.p0).set REL_POS 0
    (((s.set REL_LEN data.length).setBytes relayBuf data).await d).relayPiece (if d.op = 0x60 then d.p0 % 16 else d.p0)

/-- The partner's answer: the next piece, or the completion. -/
def State.relayAnswer (s : State) (status result : Nat) : State :=
  let op := s.get REL_OP
  let pos := s.get REL_POS + 16384
  let s := s.set REL_BUSY 0
  if op = 0x61 ∧ status = stSuccess ∧ pos < s.get REL_LEN then (s.set REL_POS pos).relayPiece (s.get REL_OFF)
  else
    let s := s.settle op (fun _ => true) status (if op = 0x61 ∧ status = stSuccess then s.get REL_LEN else result)
    if (op = 0x60 ∧ status ≠ stSuccess) ∨ (op = 0x65 ∧ status = stSuccess) then s.set REL_ON 0 else s

/-! ### The host ring (R301) -/

/-- A session command of the host: relayed, or done here. -/
def State.hostUpd (s : State) (d : Desc) (data : List Byte) : State :=
  if (if d.op = 0x60 then d.p0.testBit 4 else s.on REL_ON) then s.relay d data
  else
    let a := State.updCmd (if d.op = 0x60 then s.set REL_ON 0 else s) 1 d.op d.p0 d.p0 data
    if a.wait then a.st.await d else a.st.finish d a.status a.result

/-- 0x60 UPD_OPEN (R301, R401). -/
def execUpdOpen (r : Nat) (s : State) : Host.Outcome State Fault Refusal := .next (s.start r 0x60 fun s d => s.hostUpd d [])

/-- 0x61 UPD_WRITE: the offset is a multiple of 4096 (R301, R402). -/
def execUpdWrite (r : Nat) (data : Option (List Byte)) (s : State) : Host.Outcome State Fault Refusal :=
  .next (s.startRead r 0x61 data fun s d bs => if d.p0 % 4096 ≠ 0 then s.finish d stBadParam else s.hostUpd d bs)

/-- 0x62 UPD_VERIFY (R301, R402). -/
def execUpdVerify (r : Nat) (s : State) : Host.Outcome State Fault Refusal := .next (s.start r 0x62 fun s d => s.hostUpd d [])

/-- 0x63 UPD_ACTIVATE (R301, R409). -/
def execUpdActivate (r : Nat) (s : State) : Host.Outcome State Fault Refusal := .next (s.start r 0x63 fun s d => s.hostUpd d [])

/-- 0x64 UPD_APPLY_ONLINE (R135, R301). -/
def execUpdApplyOnline (r : Nat) (s : State) : Host.Outcome State Fault Refusal :=
  .next (s.start r 0x64 fun s d => s.hostUpd d [])

/-- 0x65 UPD_CLOSE (R301, R401). -/
def execUpdClose (r : Nat) (s : State) : Host.Outcome State Fault Refusal := .next (s.start r 0x65 fun s d => s.hostUpd d [])

/-- The session lock lapses 60 s after the last command accepted from its holder (R401). -/
def execSessionLapse (s : State) : Host.Outcome State Fault Refusal :=
  occurs (s.on UPD_SESSION_HOLDER) s fun s => (s.elapseTo (s.get SES_AT + 60000 * grainsMs)).release 1

/-! ### Messages (R403) -/

/-- A session message is discarded: 0 CRC, 1 layout. -/
def State.updDiscard (s : State) (src why : Nat) : State := s.ev 0x9011 0 src why

/-- Acts on a message of a source, read from its bytes: an answer to a relayed command, a copy of the last request, or a new
request. -/
def State.updMessage (s : State) (src : Nat) (b : List Byte) : State :=
  let w := fun (i n : Nat) => ofLe (slice b i n)
  let n := w 16 2
  let op := w 4 1
  let id := w 6 2
  if (if src = 2 then 1440 else 16384) < n then s.updDiscard src 1
  else if w (20 + n) 4 ≠ crc32c (b.take (20 + n)) then s.updDiscard src 0
  else if w 0 4 ≠ 0x54575550 ∨ w 18 2 ≠ 0 ∨ op < 0x60 ∨ 0x65 < op ∨ (op ≠ 0x61 ∧ n ≠ 0) then s.updDiscard src 1
  else if src = 3 ∧ s.on REL_BUSY = true ∧ op = s.get REL_OP ∧ id = s.get REL_ID then s.relayAnswer (w 5 1) (w 12 4)
  else if w 5 1 ≠ 0 then s.updDiscard src 1
  else if s.get (UPD_ID src) = id + 1 then
    if s.get OLC_ASK = src then s
    else s.sendUpd src (updMsg (s.get (UPD_LOP src)) (s.get (UPD_LST src)) id 0 (s.get (UPD_LRES src)) [])
  else
    let a := State.updCmd ((s.set (UPD_ID src) (id + 1)).set (UPD_LOP src) op) src op (w 8 4) (w 12 4) (slice b 20 n)
    if a.wait then a.st else a.st.updReply src a.status a.result

/-- A message of the maintenance flow, or one that the partner has written over the TWIN link (R401, R403). -/
def execUpdateSessionMessage (net : Bool) (s : State) : Host.Outcome State Fault Refusal :=
  occurs (if net then s.on UPD_NET_NETEN else s.twinLink.isSome) s fun s =>
    if net then s.updMessage 2 (s.bytes (flowBuf (s.get UPD_NET_RXFLOW)) 1464)
    else s.updMessage 3 (s.bytes (twinWin 0x160000) 16408)

end Sys2Proof.Machine
end

