-- ==== Sys2Proof/Machine/Dispatch.lean ====
section
/-! DEFINITION. The dispatch of a command to its meaning, one arm for each constructor. -/

namespace Sys2Proof.Machine

/-- What a command does: one call of its meaning. -/
def exec (i : Instr) (s : State) : Host.Outcome State Fault Refusal :=
  match i with
  | .nop l => Sys2Proof.Machine.execNop l s
  | .ld l o => Sys2Proof.Machine.execLd l o s
  | .ldn l o => Sys2Proof.Machine.execLdn l o s
  | .andBit l o => Sys2Proof.Machine.execAndBit l o s
  | .andn l o => Sys2Proof.Machine.execAndn l o s
  | .orBit l o => Sys2Proof.Machine.execOrBit l o s
  | .orn l o => Sys2Proof.Machine.execOrn l o s
  | .xorBit l o => Sys2Proof.Machine.execXorBit l o s
  | .notBit l => Sys2Proof.Machine.execNotBit l s
  | .st l r => Sys2Proof.Machine.execSt l r s
  | .stn l r => Sys2Proof.Machine.execStn l r s
  | .set l r => Sys2Proof.Machine.execSet l r s
  | .rst l r => Sys2Proof.Machine.execRst l r s
  | .andOpen l o => Sys2Proof.Machine.execAndOpen l o s
  | .orOpen l o => Sys2Proof.Machine.execOrOpen l o s
  | .xorOpen l o => Sys2Proof.Machine.execXorOpen l o s
  | .close l => Sys2Proof.Machine.execClose l s
  | .edgr l e => Sys2Proof.Machine.execEdgr l e s
  | .edgf l e => Sys2Proof.Machine.execEdgf l e s
  | .ldw l o => Sys2Proof.Machine.execLdw l o s
  | .stw l r => Sys2Proof.Machine.execStw l r s
  | .ldwb l o => Sys2Proof.Machine.execLdwb l o s
  | .add l o => Sys2Proof.Machine.execAdd l o s
  | .sub l o => Sys2Proof.Machine.execSub l o s
  | .mul l o => Sys2Proof.Machine.execMul l o s
  | .div l o => Sys2Proof.Machine.execDiv l o s
  | .wopAnd l => Sys2Proof.Machine.execWopAnd l s
  | .wopOr l => Sys2Proof.Machine.execWopOr l s
  | .wopXor l => Sys2Proof.Machine.execWopXor l s
  | .inv l => Sys2Proof.Machine.execInv l s
  | .neg l => Sys2Proof.Machine.execNeg l s
  | .abs l => Sys2Proof.Machine.execAbs l s
  | .mod l => Sys2Proof.Machine.execMod l s
  | .swap l => Sys2Proof.Machine.execSwap l s
  | .tob l => Sys2Proof.Machine.execTob l s
  | .fromb l => Sys2Proof.Machine.execFromb l s
  | .btst l => Sys2Proof.Machine.execBtst l s
  | .btow l => Sys2Proof.Machine.execBtow l s
  | .ceq l o => Sys2Proof.Machine.execCeq l o s
  | .cne l o => Sys2Proof.Machine.execCne l o s
  | .cgt l o => Sys2Proof.Machine.execCgt l o s
  | .cge l o => Sys2Proof.Machine.execCge l o s
  | .clt l o => Sys2Proof.Machine.execClt l o s
  | .cle l o => Sys2Proof.Machine.execCle l o s
  | .shl l o => Sys2Proof.Machine.execShl l o s
  | .shr l o => Sys2Proof.Machine.execShr l o s
  | .sar l o => Sys2Proof.Machine.execSar l o s
  | .rol l o => Sys2Proof.Machine.execRol l o s
  | .min l o => Sys2Proof.Machine.execMin l o s
  | .max l o => Sys2Proof.Machine.execMax l o s
  | .limit l o => Sys2Proof.Machine.execLimit l o s
  | .sel l o => Sys2Proof.Machine.execSel l o s
  | .ldx l r => Sys2Proof.Machine.execLdx l r s
  | .stx l r => Sys2Proof.Machine.execStx l r s
  | .ldf l f clear => Sys2Proof.Machine.execLdf l f clear s
  | .jmp l target => Sys2Proof.Machine.execJmp l target s
  | .jmpc l target => Sys2Proof.Machine.execJmpc l target s
  | .jmpcn l target => Sys2Proof.Machine.execJmpcn l target s
  | .call l pou => Sys2Proof.Machine.execCall l pou s
  | .callc l pou => Sys2Proof.Machine.execCallc l pou s
  | .callcn l pou => Sys2Proof.Machine.execCallcn l pou s
  | .ret l => Sys2Proof.Machine.execRet l s
  | .retc l => Sys2Proof.Machine.execRetc l s
  | .ton l n => Sys2Proof.Machine.execTon l n s
  | .tof l n => Sys2Proof.Machine.execTof l n s
  | .tp l n => Sys2Proof.Machine.execTp l n s
  | .cu l k n => Sys2Proof.Machine.execCu l k n s
  | .cd l k n => Sys2Proof.Machine.execCd l k n s
  | .counterR l k n => Sys2Proof.Machine.execCounterR l k n s
  | .counterLd l k n => Sys2Proof.Machine.execCounterLd l k n s
  | .qd l k n => Sys2Proof.Machine.execQd l k n s
  | .eval l k n => Sys2Proof.Machine.execEval l k n s
  | .receiveAge l f => Sys2Proof.Machine.execReceiveAge l f s
  | .senderAge l f => Sys2Proof.Machine.execSenderAge l f s
  | .stale l f => Sys2Proof.Machine.execStale l f s
  | .repeatFlag l f => Sys2Proof.Machine.execRepeatFlag l f s
  | .lanes l => Sys2Proof.Machine.execLanes l s
  | .sync l => Sys2Proof.Machine.execSync l s
  | .lease l => Sys2Proof.Machine.execLease l s
  | .lane l => Sys2Proof.Machine.execLane l s
  | .period l => Sys2Proof.Machine.execPeriod l s
  | .first l => Sys2Proof.Machine.execFirst l s
  | .power l => Sys2Proof.Machine.execPower l s
  | .furlong l => Sys2Proof.Machine.execFurlong l s
  | .ldh l v => Sys2Proof.Machine.execLdh l v s
  | .endScan l => Sys2Proof.Machine.execEndScan l s
  | .illegalWord l w => Sys2Proof.Machine.execIllegalWord l w s
  | .actionInstant t padDiff padMiss crcBad => Sys2Proof.Machine.execActionInstant t padDiff padMiss crcBad s
  | .staging t => Sys2Proof.Machine.execStaging t s
  | .inputAgreement t flips bad missing odd => Sys2Proof.Machine.execInputAgreement t flips bad missing odd s
  | .preemption l => Sys2Proof.Machine.execPreemption l s
  | .presentation t l missing => Sys2Proof.Machine.execPresentation t l missing s
  | .lateWindowClose t => Sys2Proof.Machine.execLateWindowClose t s
  | .verdict t l v => Sys2Proof.Machine.execVerdict t l v s
  | .laneEnableMinority l c side grains atLaunch => Sys2Proof.Machine.execLaneEnableMinority l c side grains atLaunch s
  | .exchangeHandshakeTimeout link blamed => Sys2Proof.Machine.execExchangeHandshakeTimeout link blamed s
  | .wrongLengthTransfer link blamed => Sys2Proof.Machine.execWrongLengthTransfer link blamed s
  | .exchangeKeepalive l m => Sys2Proof.Machine.execExchangeKeepalive l m s
  | .safeokToggle l => Sys2Proof.Machine.execSafeokToggle l s
  | .timeCheckWindow l count => Sys2Proof.Machine.execTimeCheckWindow l count s
  | .paceComparison busyA busyB busyC => Sys2Proof.Machine.execPaceComparison busyA busyB busyC s
  | .assayStepEnd l pass => Sys2Proof.Machine.execAssayStepEnd l pass s
  | .assayTimeout l => Sys2Proof.Machine.execAssayTimeout l s
  | .seedCopy l t => Sys2Proof.Machine.execSeedCopy l t s
  | .seedCopyDone l t => Sys2Proof.Machine.execSeedCopyDone l t s
  | .probationComplete l => Sys2Proof.Machine.execProbationComplete l s
  | .modeRequest t mode => Sys2Proof.Machine.execModeRequest t mode s
  | .modeHandOver t => Sys2Proof.Machine.execModeHandOver t s
  | .stateCopyComplete t => Sys2Proof.Machine.execStateCopyComplete t s
  | .unRetire a b c => Sys2Proof.Machine.execUnRetire a b c s
  | .padCellFaultClear => Sys2Proof.Machine.execPadCellFaultClear s
  | .tskMaxclr t => Sys2Proof.Machine.execTskMaxclr t s
  | .stopRequest => Sys2Proof.Machine.execStopRequest s
  | .runRequest cold => Sys2Proof.Machine.execRunRequest cold s
  | .holdRequest => Sys2Proof.Machine.execHoldRequest s
  | .autorun => Sys2Proof.Machine.execAutorun s
  | .taskRestartRequest t cold => Sys2Proof.Machine.execTaskRestartRequest t cold s
  | .periodicSnapshot => Sys2Proof.Machine.execPeriodicSnapshot s
  | .snapshotWriteDone mramError => Sys2Proof.Machine.execSnapshotWriteDone mramError s
  | .step t => Sys2Proof.Machine.execStep t s
  | .cont t => Sys2Proof.Machine.execCont t s
  | .haltreq t => Sys2Proof.Machine.execHaltreq t s
  | .haltReport t l => Sys2Proof.Machine.execHaltReport t l s
  | .unlockLapse => Sys2Proof.Machine.execUnlockLapse s
  | .unlockLockoutEnd => Sys2Proof.Machine.execUnlockLockoutEnd s
  | .olcCopyConfirmed l ok => Sys2Proof.Machine.execOlcCopyConfirmed l ok s
  | .olcSwitch => Sys2Proof.Machine.execOlcSwitch s
  | .debounceEnd l c a b => Sys2Proof.Machine.execDebounceEnd l c a b s
  | .discrepancyTimeout l c => Sys2Proof.Machine.execDiscrepancyTimeout l c s
  | .sdWindowComplete l c j sum edge loop => Sys2Proof.Machine.execSdWindowComplete l c j sum edge loop s
  | .sdClockFault l c cause => Sys2Proof.Machine.execSdClockFault l c cause s
  | .sdClockRestored l c j => Sys2Proof.Machine.execSdClockRestored l c j s
  | .speedEdgeAccepted l c e => Sys2Proof.Machine.execSpeedEdgeAccepted l c e s
  | .standstill l c => Sys2Proof.Machine.execStandstill l c s
  | .bankSupplyFault b => Sys2Proof.Machine.execBankSupplyFault b s
  | .bankSupplyRestored b => Sys2Proof.Machine.execBankSupplyRestored b s
  | .testDue g dark => Sys2Proof.Machine.execTestDue g dark s
  | .darkTest g => Sys2Proof.Machine.execDarkTest g s
  | .brightTest g => Sys2Proof.Machine.execBrightTest g s
  | .pulseEnd g => Sys2Proof.Machine.execPulseEnd g s
  | .testWindowEnd g => Sys2Proof.Machine.execTestWindowEnd g s
  | .maintenanceReset mask => Sys2Proof.Machine.execMaintenanceReset mask s
  | .phyPoll p answer full1000 => Sys2Proof.Machine.execPhyPoll p answer full1000 s
  | .mdioRead phy reg => Sys2Proof.Machine.execMdioRead phy reg s
  | .mdioWrite phy reg v => Sys2Proof.Machine.execMdioWrite phy reg v s
  | .mdioAccessDone answer => Sys2Proof.Machine.execMdioAccessDone answer s
  | .sendDelayRequest p => Sys2Proof.Machine.execSendDelayRequest p s
  | .delayRequest p fr sfd => Sys2Proof.Machine.execDelayRequest p fr sfd s
  | .delayResponse p fr sfd => Sys2Proof.Machine.execDelayResponse p fr sfd s
  | .delayMeasurementRetry p => Sys2Proof.Machine.execDelayMeasurementRetry p s
  | .sendRod ch idx => Sys2Proof.Machine.execSendRod ch idx s
  | .forward p fr sfd => Sys2Proof.Machine.execForward p fr sfd s
  | .dataFrame p fr sfd => Sys2Proof.Machine.execDataFrame p fr sfd s
  | .syncFrame p fr sfd => Sys2Proof.Machine.execSyncFrame p fr sfd s
  | .coldstartFrame p fr sfd => Sys2Proof.Machine.execColdstartFrame p fr sfd s
  | .statusFrame p fr sfd => Sys2Proof.Machine.execStatusFrame p fr sfd s
  | .wakeFrame p fr sfd => Sys2Proof.Machine.execWakeFrame p fr sfd s
  | .openFrame p fr sfd => Sys2Proof.Machine.execOpenFrame p fr sfd s
  | .openRod ch idx => Sys2Proof.Machine.execOpenRod ch idx s
  | .rodEnd ch idx => Sys2Proof.Machine.execRodEnd ch idx s
  | .syncCorrection => Sys2Proof.Machine.execSyncCorrection s
  | .furlongBoundary => Sys2Proof.Machine.execFurlongBoundary s
  | .listenTimeout => Sys2Proof.Machine.execListenTimeout s
  | .tbCapture => Sys2Proof.Machine.execTbCapture s
  | .wakeBurstRequest reason => Sys2Proof.Machine.execWakeBurstRequest reason s
  | .wakeFrameSend => Sys2Proof.Machine.execWakeFrameSend s
  | .transmitSelection n => Sys2Proof.Machine.execTransmitSelection n s
  | .canTxComplete n sof loop => Sys2Proof.Machine.execCanTxComplete n sof loop s
  | .arbitrationLost n => Sys2Proof.Machine.execArbitrationLost n s
  | .canError n e => Sys2Proof.Machine.execCanError n e s
  | .canFrameReceived n f sof => Sys2Proof.Machine.execCanFrameReceived n f sof s
  | .remoteFrame n => Sys2Proof.Machine.execRemoteFrame n s
  | .protocolException n id => Sys2Proof.Machine.execProtocolException n id s
  | .busOffRecovered n => Sys2Proof.Machine.execBusOffRecovered n s
  | .recover n => Sys2Proof.Machine.execRecover n s
  | .objectClear n k => Sys2Proof.Machine.execObjectClear n k s
  | .doorbellPoll page => Sys2Proof.Machine.execDoorbellPoll page s
  | .descriptorAccepted r bytes shOk => Sys2Proof.Machine.execDescriptorAccepted r bytes shOk s
  | .ringNop r => Sys2Proof.Machine.execRingNop r s
  | .flowRead r memOk => Sys2Proof.Machine.execFlowRead r memOk s
  | .flowWrite r data => Sys2Proof.Machine.execFlowWrite r data s
  | .openSend r data => Sys2Proof.Machine.execOpenSend r data s
  | .openRecv r memOk => Sys2Proof.Machine.execOpenRecv r memOk s
  | .canSend r data => Sys2Proof.Machine.execCanSend r data s
  | .canWithdraw r => Sys2Proof.Machine.execCanWithdraw r s
  | .canRead r memOk => Sys2Proof.Machine.execCanRead r memOk s
  | .canRecover r => Sys2Proof.Machine.execCanRecover r s
  | .canObjclr r => Sys2Proof.Machine.execCanObjclr r s
  | .snapshot r => Sys2Proof.Machine.execSnapshot r s
  | .snapshotCapture t consistent memOk => Sys2Proof.Machine.execSnapshotCapture t consistent memOk s
  | .recRead r memOk => Sys2Proof.Machine.execRecRead r memOk s
  | .recInfo r memOk => Sys2Proof.Machine.execRecInfo r memOk s
  | .updOpen r => Sys2Proof.Machine.execUpdOpen r s
  | .updWrite r data => Sys2Proof.Machine.execUpdWrite r data s
  | .updVerify r => Sys2Proof.Machine.execUpdVerify r s
  | .updActivate r => Sys2Proof.Machine.execUpdActivate r s
  | .updApplyOnline r => Sys2Proof.Machine.execUpdApplyOnline r s
  | .updClose r => Sys2Proof.Machine.execUpdClose r s
  | .attest r nonce memOk => Sys2Proof.Machine.execAttest r nonce memOk s
  | .identity r memOk => Sys2Proof.Machine.execIdentity r memOk s
  | .unlockChallenge r memOk => Sys2Proof.Machine.execUnlockChallenge r memOk s
  | .unlockResponse r data => Sys2Proof.Machine.execUnlockResponse r data s
  | .unlockRelease r => Sys2Proof.Machine.execUnlockRelease r s
  | .forceSet r data => Sys2Proof.Machine.execForceSet r data s
  | .forceRemove r => Sys2Proof.Machine.execForceRemove r s
  | .forceRead r memOk => Sys2Proof.Machine.execForceRead r memOk s
  | .dbgWrite r => Sys2Proof.Machine.execDbgWrite r s
  | .pstateReq r => Sys2Proof.Machine.execPstateReq r s
  | .taskRestart r => Sys2Proof.Machine.execTaskRestart r s
  | .modeReq r => Sys2Proof.Machine.execModeReq r s
  | .brakeMrst r => Sys2Proof.Machine.execBrakeMrst r s
  | .powerReq r => Sys2Proof.Machine.execPowerReq r s
  | .wakeBurst r => Sys2Proof.Machine.execWakeBurst r s
  | .completionPost r slot ok shOk => Sys2Proof.Machine.execCompletionPost r slot ok shOk s
  | .msixModerationTimeout v => Sys2Proof.Machine.execMsixModerationTimeout v s
  | .msixUnmask v => Sys2Proof.Machine.execMsixUnmask v s
  | .shadowHeartbeat ok => Sys2Proof.Machine.execShadowHeartbeat ok s
  | .hostInterfaceEnable en => Sys2Proof.Machine.execHostInterfaceEnable en s
  | .submissionRingEnable r en => Sys2Proof.Machine.execSubmissionRingEnable r en s
  | .completionRingEnable c en => Sys2Proof.Machine.execCompletionRingEnable c en s
  | .perstNAssertion => Sys2Proof.Machine.execPerstNAssertion s
  | .pcieLinkChange speed width => Sys2Proof.Machine.execPcieLinkChange speed width s
  | .retryRead idx far addr len => Sys2Proof.Machine.execRetryRead idx far addr len s
  | .heldRead idx far addr len => Sys2Proof.Machine.execHeldRead idx far addr len s
  | .farSideData far tag data => Sys2Proof.Machine.execFarSideData far tag data s
  | .unclaimedDataTimeout idx addr len => Sys2Proof.Machine.execUnclaimedDataTimeout idx addr len s
  | .holdTimeout idx => Sys2Proof.Machine.execHoldTimeout idx s
  | .nearSideWrite idx far addr data => Sys2Proof.Machine.execNearSideWrite idx far addr data s
  | .flushReadCompletion tag ok => Sys2Proof.Machine.execFlushReadCompletion tag ok s
  | .completionTimeout tag => Sys2Proof.Machine.execCompletionTimeout tag s
  | .writeTimeout k tag => Sys2Proof.Machine.execWriteTimeout k tag s
  | .alertPoll k word => Sys2Proof.Machine.execAlertPoll k word s
  | .alertHeartbeat => Sys2Proof.Machine.execAlertHeartbeat s
  | .semaphoreTake n tag => Sys2Proof.Machine.execSemaphoreTake n tag s
  | .semaphoreRelease n tag => Sys2Proof.Machine.execSemaphoreRelease n tag s
  | .semaphoreTimeout n => Sys2Proof.Machine.execSemaphoreTimeout n s
  | .brMaxclr => Sys2Proof.Machine.execBrMaxclr s
  | .read k p => Sys2Proof.Machine.execRead k p s
  | .readData k p => Sys2Proof.Machine.execReadData k p s
  | .write k p => Sys2Proof.Machine.execWrite k p s
  | .writeAck k p => Sys2Proof.Machine.execWriteAck k p s
  | .errorRsp k p => Sys2Proof.Machine.execErrorRsp k p s
  | .time k p sfd => Sys2Proof.Machine.execTime k p sfd s
  | .delayReq k p sfd => Sys2Proof.Machine.execDelayReq k p sfd s
  | .delayRsp k p sfd => Sys2Proof.Machine.execDelayRsp k p sfd s
  | .credit k p => Sys2Proof.Machine.execCredit k p s
  | .train k p who => Sys2Proof.Machine.execTrain k p who s
  | .badPacket k ours => Sys2Proof.Machine.execBadPacket k ours s
  | .alignmentLost k => Sys2Proof.Machine.execAlignmentLost k s
  | .linkWaitEnd k => Sys2Proof.Machine.execLinkWaitEnd k s
  | .importRead idx => Sys2Proof.Machine.execImportRead idx s
  | .leaseMessage net => Sys2Proof.Machine.execLeaseMessage net s
  | .soloRequest => Sys2Proof.Machine.execSoloRequest s
  | .recordA t => Sys2Proof.Machine.execRecordA t s
  | .recordB t => Sys2Proof.Machine.execRecordB t s
  | .snapshotRequest => Sys2Proof.Machine.execSnapshotRequest s
  | .stateChunk => Sys2Proof.Machine.execStateChunk s
  | .resyncTimeout t => Sys2Proof.Machine.execResyncTimeout t s
  | .recordCommit ok => Sys2Proof.Machine.execRecordCommit ok s
  | .recordRewrite seq => Sys2Proof.Machine.execRecordRewrite seq s
  | .recorderStartSearch => Sys2Proof.Machine.execRecorderStartSearch s
  | .operatingTimeTick => Sys2Proof.Machine.execOperatingTimeTick s
  | .operatingTimeSave => Sys2Proof.Machine.execOperatingTimeSave s
  | .mramRefresh => Sys2Proof.Machine.execMramRefresh s
  | .sessionLapse => Sys2Proof.Machine.execSessionLapse s
  | .updateSessionMessage net => Sys2Proof.Machine.execUpdateSessionMessage net s
  | .activationPauseEnd ok => Sys2Proof.Machine.execActivationPauseEnd ok s
  | .firmwareSelfTest ok => Sys2Proof.Machine.execFirmwareSelfTest ok s
  | .confirmWindowExpiry => Sys2Proof.Machine.execConfirmWindowExpiry s
  | .powerRequest target => Sys2Proof.Machine.execPowerRequest target s
  | .powerWithdraw => Sys2Proof.Machine.execPowerWithdraw s
  | .blockAnswer fails => Sys2Proof.Machine.execBlockAnswer fails s
  | .blockAnswerTimeout => Sys2Proof.Machine.execBlockAnswerTimeout s
  | .wakePin src => Sys2Proof.Machine.execWakePin src s
  | .pcieActivityWake => Sys2Proof.Machine.execPcieActivityWake s
  | .wakeStepReady us fail lost => Sys2Proof.Machine.execWakeStepReady us fail lost s
  | .wakeStepTimeout => Sys2Proof.Machine.execWakeStepTimeout s
  | .wakeRetry => Sys2Proof.Machine.execWakeRetry s
  | .pfailAssert => Sys2Proof.Machine.execPfailAssert s
  | .pfailRelease => Sys2Proof.Machine.execPfailRelease s
  | .supplyLoss which => Sys2Proof.Machine.execSupplyLoss which s
  | .laneRailLow l => Sys2Proof.Machine.execLaneRailLow l s
  | .testEnRise => Sys2Proof.Machine.execTestEnRise s
  | .aonPowerOn => Sys2Proof.Machine.execAonPowerOn s
  | .porstN => Sys2Proof.Machine.execPorstN s
  | .internalResetRelease devid side us fail => Sys2Proof.Machine.execInternalResetRelease devid side us fail s
  | .mramReady => Sys2Proof.Machine.execMramReady s
  | .logicImageLoaded ok => Sys2Proof.Machine.execLogicImageLoaded ok s
  | .configurationSetApplied ok => Sys2Proof.Machine.execConfigurationSetApplied ok s
  | .bypass => Sys2Proof.Machine.execBypass s
  | .idcode => Sys2Proof.Machine.execIdcode s
  | .samplePreload => Sys2Proof.Machine.execSamplePreload s
  | .extest => Sys2Proof.Machine.execExtest s
  | .w1cClear a ones sets => Sys2Proof.Machine.execW1cClear a ones sets s
  | .registerWrite a v => Sys2Proof.Machine.execRegisterWrite a v s
  | .pgValid => Sys2Proof.Machine.execPgValid s
  | .laneRailRestored l => Sys2Proof.Machine.execLaneRailRestored l s
  | .perstNRelease => Sys2Proof.Machine.execPerstNRelease s
  | .porstNRelease => Sys2Proof.Machine.execPorstNRelease s
  | .testEnFall => Sys2Proof.Machine.execTestEnFall s
  | .commaDetection k => Sys2Proof.Machine.execCommaDetection k s
  | .codeGroupSynchronisation p sync gig => Sys2Proof.Machine.execCodeGroupSynchronisation p sync gig s
  | .pllLostLock => Sys2Proof.Machine.execPllLostLock s
  | .d3hot d3 => Sys2Proof.Machine.execD3hot d3 s
  | .syncRodSend ch idx => Sys2Proof.Machine.execSyncRodSend ch idx s
  | .statusRodSend ch idx => Sys2Proof.Machine.execStatusRodSend ch idx s

end Sys2Proof.Machine
end

