-- ==== Sys2Proof/Safety.lean ====
section
/-! DEFINITION. What claims are stated in: the canonical form of the tables and of memory, and what a command can see of the
queue. -/

namespace Sys2Proof.Machine
open Reg Hid

/-- The canonical form of memory: addresses strictly rising, and no entry equal to what an unlisted address reads as. -/
def Memory.wf (junk : List Junk) (m : List Host.Cell) : Bool :=
  Sparse.rising 0 m && m.all fun p => p.2 != unwritten junk p.1

/-- The tables of registers and records list their keys in rising order, each once. -/
def State.tablesWf (s : State) : Bool :=
  Sparse.rising 0 s.fld && Sparse.rising 0 s.ctxs && Sparse.rising 0 s.pres && Sparse.rising 0 s.bals &&
    Sparse.rising 0 s.sysLatch && Sparse.rising 0 s.flowLatch && Sparse.rising 0 s.runs

/-- The canonical form of a state: its tables and its memory. -/
def State.wf (s : State) : Bool := s.tablesWf && Memory.wf s.junk s.mem

/-! ### What a lane's next instruction meets -/

/-- A lane executes a task, and no breakpoint halts it before its next instruction (R69, R132). -/
def State.executes (s : State) (l : Lane) (t : Nat) : Prop := s.running l = some t ∧ s.bpHit t (s.ctx l t) = none

/-- The context in which an instruction of weight `w` takes effect: the breakpoints at PC counted as passed in HOLD, PC at
the next index, the weight counted (R36, R63, R132). -/
def State.fetched (s : State) (l : Lane) (t w : Nat) : Ctx :=
  let c := s.ctx l t
  (if s.prog == .hold && !c.passed then c.pass (s.bpsAt t c.pc) else c).step w

/-- The state in which a lane has taken an instruction of weight `w` that leaves the context `c` and nothing else. -/
def State.scanned (s : State) (l : Lane) (t w : Nat) (c : Ctx) : State := (s.add (PACE_W l.idx) w).setCtx l t c

/-! ### What a ring command leaves of its descriptor and in host memory (R294, R295) -/

/-- The descriptor has ended, with a status and a result. -/
def State.answered (u : State) (d : Desc) (status : Nat) (result : Nat := 0) : Prop := { d with st := .done status result } ∈ u.descs

/-- The descriptor waits for the outcome of what it asked for. -/
def State.waits (u : State) (d : Desc) : Prop := { d with st := .waiting } ∈ u.descs

/-- Host memory holds these bytes from an address on. -/
def State.hostHas (u : State) (a : Nat) (bs : List Byte) : Prop := ∀ k, k < bs.length → Sparse.get u.hostMem (a + k) 0 = bs.getD k 0

/-- A count one higher, held at the top of its field. -/
def State.counted (s : State) (f : Fld) : Nat := min (s.get f + 1) (2 ^ f.w - 1)

/-! ### What a command leaves as it was -/

/-- The fields that recording an event may change (R384, R387, R388). -/
def recorderFields : List Fld :=
  [REC_MERGE_COUNT, REC_LOSS_COUNT, REC_LCODE, REC_LSRC, REC_LOST, REC_EVT_QLOSS, REC_EVCNT_QLOSS_CNT, REC_ID, REC_NEXT,
    REC_STAT_QDEPTH]

/-- The fields in which time passes: the free count, the network times of the lanes, the rate's fraction and the slew (R233, R242). -/
def timeFields : List Fld := [FREE, TNET 0, TNET 1, TNET 2, RATE_FRAC, SLEW_T, SLEW_N]

/-- `t` is `s` but for the listed fields. -/
def State.only (s t : State) (fs : List Fld) : Prop :=
  { t with fld := s.fld } = s ∧ ∀ f : Fld, (∀ g ∈ fs, f.key ≠ g.key) → t.get f = s.get f

/-- `t` is `s` but for the listed fields and what recording events changes. -/
def State.onlyAndEvents (s t : State) (fs : List Fld) : Prop :=
  { t with fld := s.fld, recQ := s.recQ, recRecent := s.recRecent, recRew := s.recRew } = s ∧
    ∀ f : Fld, (∀ g ∈ fs ++ recorderFields, f.key ≠ g.key) → t.get f = s.get f

/-- `t` is `s` but for the listed fields and the bytes of the listed ranges, each a first address and a length. -/
def State.onlyAt (s t : State) (fs : List Fld) (ms : List (Nat × Nat)) : Prop :=
  { t with fld := s.fld, mem := s.mem, junk := s.junk } = s ∧
    (∀ f : Fld, (∀ g ∈ fs, f.key ≠ g.key) → t.get f = s.get f) ∧
    ∀ a, (∀ m ∈ ms, a < m.1 ∨ m.1 + m.2 ≤ a) → t.byte a = s.byte a

end Sys2Proof.Machine
end

