-- ==== Sys2Proof/Certificates/Slice0/Obligations.lean ====
section
/-! DEFINITION. The statements for the provers: what the commands do, family by family. -/

open Sys2Proof Sys2Proof.Machine Sys2Proof.Machine.Reg Sys2Proof.Machine.Hid

/-- A step takes the command at the front of the queue and is that command's meaning on the state with the queue's
rest; the queue is first in, first out. (The queue is the model's own, log 28.) -/
def Obligations.StepRunsTheFrontCommand : Prop :=
  ∀ (s : State) (c : Instr) (rest : List Instr), s.pending = c :: rest → step s = exec c { s with pending := rest }

/-- The model's choice (log 28): on an empty queue a device with power, whose slew has no step due and whose rate does
not carry, counts one grain of the timebase: FREE and the network time of the three lanes advance by 1, and every
other field, every byte and every record stays. A device without power stays as it is. -/
def Obligations.IdleStepIsOneGrain : Prop :=
  ∀ s : State, s.pending = [] →
    (s.powered = false → step s = .next s) ∧
    (s.powered = true → s.get SLEW_N = 0 → s.get SLEW_T = 0 → s.get TN_RATE_RATE = 0 → s.get RATE_FRAC < 2 ^ 32 → s.get FREE + 1 < 2 ^ FREE.w →
      (∀ l : Lane, s.get (TNET l.idx) + 1 < 2 ^ (TNET l.idx).w) →
      ∃ u, step s = .next u ∧ u.get FREE = s.get FREE + 1 ∧ (∀ l : Lane, u.get (TNET l.idx) = s.get (TNET l.idx) + 1) ∧
        { u with fld := s.fld } = s ∧
        ∀ f : Fld, f.key ≠ FREE.key → (∀ l : Lane, f.key ≠ (TNET l.idx).key) → u.get f = s.get f)

/-- From any state in canonical form every step answers a next state in canonical form: no command ends in a fault or
a refusal, registers and records keep their keys in rising order, memory lists rising addresses and no byte equal
to what an unlisted address reads as, and the queue has lost exactly its front command. -/
def Obligations.EveryStepKeepsTheCanonicalForm : Prop :=
  ∀ s : State, s.wf = true → ∃ t, step s = .next t ∧ t.wf = true ∧ t.pending = s.pending.tail

/-- The state right after internal reset is in canonical form; its queue is empty, its memory lists nothing, the
program state is STOP, no lane executes a task and no lane is in the vote beyond its START. -/
def Obligations.ResetIsCanonical : Prop :=
  State.reset.wf = true ∧ State.reset.pending = [] ∧ State.reset.mem = [] ∧ State.reset.get DBG_PSTATE_STATE = 0 ∧
    State.reset.get LN_STATUS_SAFE = 0 ∧ ∀ l : Lane, State.reset.running l = none ∧ State.reset.lane l = .start

/-- Where a lane executes a task and the task may use the bit operand, each bit-logic instruction puts the table's
function of BA and the operand into BA, advances PC and counts weight 1; nothing else changes. NOP changes nothing
but PC and the weight; NOT inverts BA; LDH replaces WA[31:16]; LDF puts CY, OV or DZ into BA and, with its clear
bit, then clears that flag. -/
def Obligations.BitLogicInstructions : Prop :=
  (∀ (s : State) (l : Lane) (t : Nat) (o : BitOp), s.executes l t → o.wf = true → s.bitOpOk t o = true →
    let c := s.fetched l t 1
    let v := s.bitVal l o
    ∀ p ∈ [(Instr.ld l o, v), (.ldn l o, !v), (.andBit l o, c.ba && v), (.andn l o, c.ba && !v), (.orBit l o, c.ba || v),
        (.orn l o, c.ba || !v), (.xorBit l o, xor c.ba v)],
      exec p.1 s = .next (s.scanned l t 1 { c with ba := p.2 })) ∧
  (∀ (s : State) (l : Lane) (t : Nat), s.executes l t →
    let c := s.fetched l t 1
    exec (.nop l) s = .next (s.scanned l t 1 c) ∧
    exec (.notBit l) s = .next (s.scanned l t 1 { c with ba := !c.ba }) ∧
    (∀ v : BitVec 16, ∃ w : Word, exec (.ldh l v) s = .next (s.scanned l t 1 { c with wa := w }) ∧
      w.toNat = v.toNat * 65536 + c.wa.toNat % 65536) ∧
    (∀ p ∈ [(FlagSel.CY, c.cy), (.OV, c.ov), (.DZ, c.dz)], exec (.ldf l p.1 false) s = .next (s.scanned l t 1 { c with ba := p.2 })) ∧
    exec (.ldf l .CY true) s = .next (s.scanned l t 1 { c with ba := c.cy, cy := false }) ∧
    exec (.ldf l .OV true) s = .next (s.scanned l t 1 { c with ba := c.ov, ov := false }) ∧
    exec (.ldf l .DZ true) s = .next (s.scanned l t 1 { c with ba := c.dz, dz := false }))

/-- ST stores BA, STN its inverse; SET stores 1 and RST stores 0 where BA is 1 and nothing where it is 0. The bit
stored is the operand's in the lane's memory; every other bit of every byte, every record but the context, and
every field but the weight counter of the lane stay; BA is left as it was. -/
def Obligations.BitStores : Prop :=
  ∀ (s : State) (l : Lane) (t : Nat) (r : BitRef), s.executes l t → r.wfStore = true → s.bitStoreOk t r = true →
    let c := s.fetched l t 1
    ∀ p ∈ [(Instr.st l r, c.ba), (.stn l r, !c.ba), (.set l r, c.ba || s.bitAt l r), (.rst l r, !c.ba && s.bitAt l r)],
      ∃ u, exec p.1 s = .next u ∧ u.bitAt l r = p.2 ∧
        (∀ (a k : Nat), (a ≠ bitAddr r l ∨ k ≠ r.num) → (u.byte a).getLsbD k = (s.byte a).getLsbD k) ∧
        { u with mem := s.mem } = s.scanned l t 1 c

/-- With fewer than 32 entries on the stack an open instruction pushes BA with its operator and loads the operand; the
close instruction pops the entry and combines it with BA by the entry's operator. So an open instruction followed
at once by a close leaves the operator's value of the old BA and the operand, and the stack as it was. -/
def Obligations.NestingInstructions : Prop :=
  ∀ (s : State) (l : Lane) (t : Nat) (o : BitOp), s.executes l t →
    let c := s.fetched l t 1
    (o.wf = true → s.bitOpOk t o = true → c.nest.length < 32 →
      ∀ p ∈ [(Instr.andOpen l o, NestOp.and), (.orOpen l o, .or), (.xorOpen l o, .xor)],
        exec p.1 s = .next (s.scanned l t 1 { c with nest := ⟨c.ba, p.2⟩ :: c.nest, ba := s.bitVal l o })) ∧
    (∀ (b : Bool) (r : List NestEntry),
      (c.nest = ⟨b, .and⟩ :: r → exec (.close l) s = .next (s.scanned l t 1 { c with nest := r, ba := b && c.ba })) ∧
      (c.nest = ⟨b, .or⟩ :: r → exec (.close l) s = .next (s.scanned l t 1 { c with nest := r, ba := b || c.ba })) ∧
      (c.nest = ⟨b, .xor⟩ :: r → exec (.close l) s = .next (s.scanned l t 1 { c with nest := r, ba := xor b c.ba })))

/-- EDGR returns BA and not E, EDGF not BA and E; both leave the old BA in E. While the task's first scan primes its
edge bits, or at the first execution of a new bit, they return 0 and leave the old BA in E all the same. Every
other bit of memory stays. -/
def Obligations.EdgeInstructions : Prop :=
  ∀ (s : State) (l : Lane) (t e : Nat), s.executes l t → e < 16384 →
    let c := s.fetched l t 1
    let old := s.edgeBit l c.old e
    let prime := s.primes l t e
    ∀ p ∈ [(Instr.edgr l e, !prime && c.ba && !old), (.edgf l e, !prime && !c.ba && old)],
      ∃ u, exec p.1 s = .next u ∧ u.ctx l t = { c with ba := p.2 } ∧ u.edgeBit l c.old e = c.ba ∧
        (∀ (a k : Nat), (a ≠ edgeBase l + oldBank c.old + e / 8 ∨ k ≠ e % 8) → (u.byte a).getLsbD k = (s.byte a).getLsbD k) ∧
        (∀ (m : Lane) (x : Nat), (m ≠ l ∨ x ≠ t) → x < 16 → u.ctx m x = s.ctx m x)

/-- LDW and LDWB load WA and WB; MIN and MAX keep the smaller and the larger of WA and the operand as signed numbers;
LIMIT raises WA to WB and then lowers it to the operand, which wins; SEL loads WA where BA is 1. A comparison puts
its truth into BA, comparing WA with the operand as two's complement numbers; nothing else changes. -/
def Obligations.WordMovesAndComparisons : Prop :=
  (∀ (s : State) (l : Lane) (t : Nat) (o : WordOp), s.executes l t → o.wf = true → s.wordOpOk t o = true →
    let c := s.fetched l t 1
    let v := s.wordVal l o
    exec (.ldw l o) s = .next (s.scanned l t 1 { c with wa := v }) ∧
    exec (.ldwb l o) s = .next (s.scanned l t 1 { c with wb := v }) ∧
    (∃ w : Word, exec (.min l o) s = .next (s.scanned l t 1 { c with wa := w }) ∧ w.toInt = min c.wa.toInt v.toInt) ∧
    (∃ w : Word, exec (.max l o) s = .next (s.scanned l t 1 { c with wa := w }) ∧ w.toInt = max c.wa.toInt v.toInt) ∧
    (∃ w : Word, exec (.limit l o) s = .next (s.scanned l t 1 { c with wa := w }) ∧
      w.toInt = min (max c.wa.toInt c.wb.toInt) v.toInt) ∧
    exec (.sel l o) s = .next (s.scanned l t 1 { c with wa := if c.ba then v else c.wa })) ∧
  (∀ (s : State) (l : Lane) (t : Nat) (o : WordOp), s.executes l t → o.wf = true → s.wordOpOk t o = true →
    let c := s.fetched l t 1
    let a := c.wa.toInt
    let v := (s.wordVal l o).toInt
    ∀ p ∈ [(Instr.ceq l o, decide (a = v)), (.cne l o, decide (a ≠ v)), (.cgt l o, decide (a > v)), (.cge l o, decide (a ≥ v)),
        (.clt l o, decide (a < v)), (.cle l o, decide (a ≤ v))],
      exec p.1 s = .next (s.scanned l t 1 { c with ba := p.2 }))

/-- Arithmetic wraps modulo 2^32. ADD sets CY to the carry out of the unsigned sum and SUB to the borrow, MUL clears
it; each sets OV exactly when the wrapped result, read as signed, is not the exact one. DIV truncates toward zero,
its remainder goes to WB, OV is set for the most negative number by -1 alone, which gives that number and
remainder 0; by zero it gives 0 and 0, sets DZ, and counts in TSK_EVCNT1 with TSK_EVT.DZ set. CY is left by DIV; a
divide by zero is no trip: the scan goes on. (That the n-th division by zero of a scan counts once for all lanes
is the model's reading, log 20: it is counted here for a lane that is the first to meet it.) -/
def Obligations.Arithmetic : Prop :=
  ∀ (s : State) (l : Lane) (t : Nat) (o : WordOp), s.executes l t → o.wf = true → s.wordOpOk t o = true →
    let v := s.wordVal l o
    (∀ c, c = s.fetched l t 1 →
      exec (.add l o) s = .next (s.scanned l t 1 { c with wa := c.wa + v, cy := decide (2 ^ 32 ≤ c.wa.toNat + v.toNat), ov := decide ((c.wa + v).toInt ≠ c.wa.toInt + v.toInt) }) ∧
      exec (.sub l o) s = .next (s.scanned l t 1 { c with wa := c.wa - v, cy := decide (c.wa.toNat < v.toNat), ov := decide ((c.wa - v).toInt ≠ c.wa.toInt - v.toInt) })) ∧
    (∀ c, c = s.fetched l t 2 →
      exec (.mul l o) s = .next (s.scanned l t 2 { c with wa := c.wa * v, cy := false, ov := decide ((c.wa * v).toInt ≠ c.wa.toInt * v.toInt) })) ∧
    (∀ c, c = s.fetched l t 8 →
      (v ≠ 0 → ¬ (c.wa = Word.minInt ∧ v = -1) → ∃ q r : Word, exec (.div l o) s = .next (s.scanned l t 8 { c with wa := q, wb := r, ov := false }) ∧
        q.toInt = c.wa.toInt.tdiv v.toInt ∧ r.toInt = c.wa.toInt.tmod v.toInt) ∧
      (c.wa = Word.minInt → v = -1 → exec (.div l o) s = .next (s.scanned l t 8 { c with wb := 0, ov := true })) ∧
      (v = 0 → ∃ u, exec (.div l o) s = .next u ∧ u.ctx l t = { c with wa := 0, wb := 0, ov := false, dz := true, dzCount := c.dzCount + 1 } ∧
        (s.get (DZ_SEEN t) ≤ c.dzCount → u.get (TSK_EVT_DZ t) = 1 ∧
          u.get (TSK_EVCNT1_DZ_CNT t) = min (s.get (TSK_EVCNT1_DZ_CNT t) + 1) (2 ^ (TSK_EVCNT1_DZ_CNT t).w - 1))))

/-- Each function of WOP does what the table says, on WA and WB alone; NEG and ABS write OV and leave CY; MOD takes
the sign of WA, and with WB = 0 gives 0 and sets DZ; the functions 12 to 15 decode to no instruction, and 0 to 11
to the instructions of this statement, in the table's order. -/
def Obligations.WordOperations : Prop :=
  ∀ (s : State) (l : Lane) (t : Nat), s.executes l t →
    (∀ c, c = s.fetched l t 1 →
      (∀ p ∈ [(Instr.wopAnd l, { c with wa := c.wa &&& c.wb }), (.wopOr l, { c with wa := c.wa ||| c.wb }),
          (.wopXor l, { c with wa := c.wa ^^^ c.wb }), (.inv l, { c with wa := ~~~c.wa }),
          (.swap l, { c with wa := c.wb, wb := c.wa }), (.tob l, { c with wb := c.wa }), (.fromb l, { c with wa := c.wb }),
          (.btst l, { c with ba := c.wa.toNat.testBit (c.wb.toNat % 32) }), (.btow l, { c with wa := if c.ba then 1 else 0 })],
        exec p.1 s = .next (s.scanned l t 1 p.2)) ∧
      exec (.neg l) s = .next (s.scanned l t 1 { c with wa := 0 - c.wa, ov := decide (c.wa.toInt = -2147483648) }) ∧
      (∃ w : Word, exec (.abs l) s = .next (s.scanned l t 1 { c with wa := w, ov := decide (c.wa.toInt = -2147483648) }) ∧
        w.toNat = c.wa.toInt.natAbs)) ∧
    (∀ c, c = s.fetched l t 8 →
      (c.wb ≠ 0 → ∃ w : Word, exec (.mod l) s = .next (s.scanned l t 8 { c with wa := w }) ∧ w.toInt = c.wa.toInt.tmod c.wb.toInt) ∧
      (c.wb = 0 → ∃ u, exec (.mod l) s = .next u ∧ u.ctx l t = { c with wa := 0, dz := true, dzCount := c.dzCount + 1 })) ∧
    (∀ n : Nat, 12 ≤ n → n < 16 → decodeScan l (BitVec.ofNat 32 (0x1A * 2 ^ 26 + 3 * 2 ^ 24 + n)) = none) ∧
    (List.range 12).map (fun n => decodeScan l (BitVec.ofNat 32 (0x1A * 2 ^ 26 + 3 * 2 ^ 24 + n))) =
      [Instr.wopAnd l, .wopOr l, .wopXor l, .inv l, .neg l, .abs l, .mod l, .swap l, .tob l, .fromb l, .btst l, .btow l].map some

/-- The table of R47 for every count: the word left in WA and the last bit moved out in CY. ROL's carry is also bit 0
of its result. LIMIT takes its lower bound from WB and its upper from the operand, which wins where the bounds
cross. -/
def Obligations.Shifts : Prop :=
  ∀ (s : State) (l : Lane) (t : Nat) (o : WordOp), s.executes l t → o.wf = true → s.wordOpOk t o = true →
    let c := s.fetched l t 1
    let n := (s.wordVal l o).toNat
    let out := fun (w : Word) (b : Bool) => Host.Outcome.next (s.scanned l t 1 { c with wa := w, cy := b })
    (n = 0 → ∀ i ∈ [Instr.shl l o, .shr l o, .sar l o, .rol l o], exec i s = out c.wa false) ∧
    (1 ≤ n → n ≤ 31 → exec (.shl l o) s = out (c.wa <<< n) (c.wa.getLsbD (32 - n)) ∧
      exec (.shr l o) s = out (c.wa >>> n) (c.wa.getLsbD (n - 1)) ∧
      exec (.sar l o) s = out (BitVec.ofInt 32 (c.wa.toInt / 2 ^ n)) (c.wa.getLsbD (n - 1))) ∧
    (n = 32 → exec (.shl l o) s = out 0 (c.wa.getLsbD 0) ∧ exec (.shr l o) s = out 0 (c.wa.getLsbD 31)) ∧
    (33 ≤ n → exec (.shl l o) s = out 0 false ∧ exec (.shr l o) s = out 0 false) ∧
    (32 ≤ n → exec (.sar l o) s = out (if c.wa.getLsbD 31 then BitVec.allOnes 32 else 0) (c.wa.getLsbD 31)) ∧
    (n % 32 = 0 → exec (.rol l o) s = out c.wa false) ∧
    (n % 32 ≠ 0 → ∃ w : Word, exec (.rol l o) s = out w (w.getLsbD 0) ∧
      ∀ k, k < 32 → w.getLsbD ((k + n) % 32) = c.wa.getLsbD k) ∧
    (∃ w : Word, exec (.limit l o) s = .next (s.scanned l t 1 { c with wa := w }) ∧ w.toInt = min (max c.wa.toInt c.wb.toInt) (s.wordVal l o).toInt ∧
      (c.wb.toInt > (s.wordVal l o).toInt → w = s.wordVal l o))

/-- STW stores WA at the operand; LDX loads and STX stores the word at base + WB, where WB is a multiple of 4 and the
word lies in the task's slice or window. A store changes the four bytes it stores to and no other byte; PC
advances; nothing else changes. -/
def Obligations.IndexedAccess : Prop :=
  ∀ (s : State) (l : Lane) (t : Nat) (r : WordRef), s.executes l t → r.wf = true → s.owns t r.sp r.addr 4 = true →
    (∀ c, c = s.fetched l t 1 → r.wfStore = true → ∃ u, exec (.stw l r) s = .next u ∧ u.word (wordAddr r l) = c.wa ∧
      (∀ a, (a < wordAddr r l ∨ wordAddr r l + 4 ≤ a) → u.byte a = s.byte a) ∧ { u with mem := s.mem } = s.scanned l t 1 c) ∧
    (∀ c, c = s.fetched l t 2 → c.wb.toNat % 4 = 0 → s.owns t r.sp (r.addr + c.wb.toNat) 4 = true →
      exec (.ldx l r) s = .next (s.scanned l t 2 { c with wa := s.word (wordAddr r l + c.wb.toNat) }) ∧
      (r.wfStore = true → ∃ u, exec (.stx l r) s = .next u ∧ u.word (wordAddr r l + c.wb.toNat) = c.wa ∧
        (∀ a, (a < wordAddr r l + c.wb.toNat ∨ wordAddr r l + c.wb.toNat + 4 ≤ a) → u.byte a = s.byte a) ∧
        { u with mem := s.mem } = s.scanned l t 2 c))

/-- A taken jump puts its target into PC, one not taken goes on; a taken call with fewer than 16 entries pushes the
index after it with the nesting depth and goes to the POU's entry; a taken return pops its entry and goes on
there, when the nesting depth is the one saved with it. -/
def Obligations.JumpsAndCalls : Prop :=
  ∀ (s : State) (l : Lane) (t : Nat), s.executes l t →
    (∀ c, c = s.fetched l t 1 → ∀ target, target < 262144 → s.jumpOk (s.ctx l t) target = true →
      ∀ p ∈ [(Instr.jmp l target, true), (.jmpc l target, c.ba), (.jmpcn l target, !c.ba)],
        exec p.1 s = .next (s.scanned l t 1 (if p.2 then { c with pc := target } else c))) ∧
    (∀ c, c = s.fetched l t 2 →
      (∀ pou, pou < 1024 → s.callOk (s.ctx l t) pou = true → ∀ p ∈ [(Instr.call l pou, true), (.callc l pou, c.ba), (.callcn l pou, !c.ba)],
        (p.2 = false → exec p.1 s = .next (s.scanned l t 2 c)) ∧
        (p.2 = true → c.call.length < 16 →
          exec p.1 s = .next (s.scanned l t 2 { c with call := ⟨c.pc, c.nest.length⟩ :: c.call, pc := s.pouEntry c pou }))) ∧
      (∀ (e : CallEntry) (r : List CallEntry), c.call = e :: r → c.nest.length = e.depth →
        exec (.ret l) s = .next (s.scanned l t 2 { c with call := r, pc := e.ret }) ∧
        (c.ba = true → exec (.retc l) s = .next (s.scanned l t 2 { c with call := r, pc := e.ret }))) ∧
      (c.ba = false → exec (.retc l) s = .next (s.scanned l t 2 c)))

/-- With an empty nesting stack END ends the scan from any POU, and so do RET and a taken RETC with an empty call
stack: the scan has ended and the lane presents its output slice with the scan's power request to the balance of a
TRIPLE task; the image of a SINGLE task is voted at once. -/
def Obligations.ScanEnd : Prop :=
  ∀ (s : State) (l : Lane) (t : Nat), s.executes l t → (s.fetched l t 0).nest = [] →
    ∀ i ∈ [Instr.endScan l, .ret l, .retc l],
      (i ≠ .endScan l → (s.fetched l t 0).call = []) → (i = .retc l → (s.fetched l t 0).ba = true) →
      ∃ u, exec i s = .next u ∧ (u.ctx l t).phase = .ended ∧
        (s.isTriple t = true → u.presOf l t = some (.image (s.outSlice l t) (s.fetched l t 0).power) ∧ u.mem = s.mem) ∧
        (s.isTriple t = false → u.presOf l t = none ∧ (u.bal t).voted = some (.image (s.outSlice l t) 0))

/-- An open instruction with 32 entries on the stack, a close with none, an END or a scan-ending return with a nesting
stack that is not empty, a return at another nesting depth, a taken call with 16 entries, and an indexed access
that is not aligned or lies outside the task's slice or window end the scan: the lane presents "trip" for a TRIPLE
task, and a SINGLE task trips at its next action instant. -/
def Obligations.TripConditions : Prop :=
  ∀ (s : State) (l : Lane) (t : Nat), s.executes l t → ∀ c, c = s.fetched l t 0 → ∀ i : Instr,
    ((∃ o : BitOp, o.wf = true ∧ s.bitOpOk t o = true ∧ 32 ≤ c.nest.length ∧ (i = .andOpen l o ∨ i = .orOpen l o ∨ i = .xorOpen l o)) ∨
     (c.nest = [] ∧ i = .close l) ∨
     (c.nest ≠ [] ∧ i = .endScan l) ∨
     (c.nest ≠ [] ∧ c.call = [] ∧ (i = .ret l ∨ (i = .retc l ∧ c.ba = true))) ∨
     ((∃ e r, c.call = e :: r ∧ c.nest.length ≠ e.depth) ∧ (i = .ret l ∨ (i = .retc l ∧ c.ba = true))) ∨
     (∃ p, p < 1024 ∧ s.callOk (s.ctx l t) p = true ∧ 16 ≤ c.call.length ∧
       (i = .call l p ∨ (i = .callc l p ∧ c.ba = true) ∨ (i = .callcn l p ∧ c.ba = false))) ∨
     (∃ r : WordRef, s.owns t r.sp r.addr 4 = true ∧ (c.wb.toNat % 4 ≠ 0 ∨ s.owns t r.sp (r.addr + c.wb.toNat) 4 = false) ∧
       ((r.wf = true ∧ i = .ldx l r) ∨ (r.wfStore = true ∧ i = .stx l r)))) →
    ∃ u, exec i s = .next u ∧ (u.ctx l t).phase = .ended ∧ u.presOf l t = some .trip ∧ u.mem = s.mem ∧
      (s.isTriple t = false → u.get (TRIP_NEXT t) = 1)

/-- At its first execution in a scan a timer restates its elapsed time in the task's present period, then follows the
pseudocode of R51 with the preset of R50: BA is its output, WB its elapsed milliseconds, WA stays, and its
instance holds the new state. Every byte outside the instance stays. -/
def Obligations.Timers : Prop :=
  ∀ (s : State) (l : Lane) (t n : Nat), s.executes l t → n < 4096 → (s.ctx l t).timersDone.contains n = false → s.periodUs t < 2 ^ 32 →
    let c := s.fetched l t 4
    let T := s.periodUs t
    let p := presetPeriods c.wa T
    let x := (s.timer l c.old n).rescale T
    let one := fun (e : Nat) => min (e + 1) (2 ^ 32 - 1)
    let ton : TimerInst :=
      if c.ba then
        let e := if x.prev = false then 0 else if x.et < p then one x.et else x.et
        { x with et := e, q := decide (e ≥ p), prev := true }
      else { x with et := 0, q := false, prev := false }
    let tof : TimerInst :=
      if c.ba then { x with et := 0, q := true, prev := true }
      else
        let e := if x.prev then 0 else if x.et < p then one x.et else x.et
        { x with et := e, q := if e ≥ p then false else x.q, prev := false }
    let tp : TimerInst :=
      if x.q then { x with et := one x.et, q := if one x.et ≥ p then false else true, prev := c.ba }
      else if c.ba = true ∧ x.prev = false ∧ x.et = 0 then { x with q := decide (p > 0), prev := true }
      else if c.ba = false ∧ x.et ≥ p then { x with et := 0, prev := false }
      else { x with prev := c.ba }
    ∀ i ∈ [(Instr.ton l n, ton), (.tof l n, tof), (.tp l n, tp)],
      ∃ u, exec i.1 s = .next u ∧ u.timer l c.old n = i.2 ∧
        u.ctx l t = { c with ba := i.2.q, wb := BitVec.ofNat 32 (min (i.2.et * T / 1000) 2147483647), timersDone := n :: c.timersDone } ∧
        ∀ a, (a < timerBase l + oldBank c.old + 16 * n ∨ timerBase l + oldBank c.old + 16 * n + 16 ≤ a) → u.byte a = s.byte a

/-- CU, CD, R and LD latch BA in their flag of the instance and change no other bit of memory; the port QD of CTUD
puts the QD flag of the last evaluation into BA. -/
def Obligations.CounterPorts : Prop :=
  ∀ (s : State) (l : Lane) (t n : Nat) (k : CtrKind), s.executes l t → n < 4096 →
    let c := s.fetched l t 4
    let a := counterBase l + oldBank c.old + 16 * n + 11
    (∀ p ∈ [(Instr.cu l k n, 0, k.hasUp), (.cd l k n, 1, k.hasDown), (.counterR l k n, 2, k.hasUp), (.counterLd l k n, 3, k.hasDown)], p.2.2 = true →
      ∃ u, exec p.1 s = .next u ∧ { u with mem := s.mem } = s.scanned l t 4 c ∧ (u.byte a).getLsbD p.2.1 = c.ba ∧
        ∀ (b j : Nat), (b ≠ a ∨ j ≠ p.2.1) → (u.byte b).getLsbD j = (s.byte b).getLsbD j) ∧
    (k = .ctud → exec (.qd l k n) s = .next (s.scanned l t 4 { c with ba := s.ctrFlag l c.old n 7 }))

/-- EVAL follows R55: reset before load before counting; an edge of CU counts up below 2147483647, an edge of CD down
above -2147483648; then QU := CV >= PV and QD := CV <= 0, the previous inputs are kept, and the latched inputs
stay. BA is QU, of CTD QD; WB is CV. -/
def Obligations.CounterEvaluation : Prop :=
  ∀ (s : State) (l : Lane) (t n : Nat) (k : CtrKind), s.executes l t → n < 4096 →
    let c := s.fetched l t 4
    let a := counterBase l + oldBank c.old + 16 * n
    let f := s.ctrFlag l c.old n
    let cv0 := (s.word a).toInt
    let up := if f 0 && !f 4 && decide (cv0 < 2147483647) then cv0 + 1 else cv0
    let cv := if f 2 then 0 else if f 3 then c.wa.toInt else if f 1 && !f 5 && decide (up > -2147483648) then up - 1 else up
    ∃ u, exec (.eval l k n) s = .next u ∧ (u.word a).toInt = cv ∧ u.word (a + 4) = c.wa ∧
      (List.range 8).map (u.ctrFlag l c.old n) = [f 0, f 1, f 2, f 3, f 0, f 1, decide (cv ≥ c.wa.toInt), decide (cv ≤ 0)] ∧
      u.ctx l t = { c with ba := if k = .ctd then decide (cv ≤ 0) else decide (cv ≥ c.wa.toInt), wb := u.word a } ∧
      ∀ b, (b < a ∨ a + 16 ≤ b) → u.byte b = s.byte b

/-- The FLOW functions read the ages, the stale and the repeat flag latched for the task, the SYS functions the system
values latched for it; SYS POWER in a TRIPLE task puts the request into the presentation, values 5 to 7 as 0, and
BA is the latched forwarding result; in a SINGLE task it is refused with TSK_EVT.REFUSED and BA is 0. -/
def Obligations.FlowAndSysFunctions : Prop :=
  ∀ (s : State) (l : Lane) (t : Nat), s.executes l t →
    let c := s.fetched l t 4
    let y := s.sys t
    (∀ f, f < 512 → ∀ p ∈ [(Instr.receiveAge l f, { c with wa := BitVec.ofNat 32 (s.flowSeen t f).rxAge }),
        (.senderAge l f, { c with wa := BitVec.ofNat 32 (s.flowSeen t f).sndAge }), (.stale l f, { c with ba := (s.flowSeen t f).stale }),
        (.repeatFlag l f, { c with ba := (s.flowSeen t f).rep })], exec p.1 s = .next (s.scanned l t 4 p.2)) ∧
    (∀ p ∈ [(Instr.lanes l, { c with wa := y.lanes, ba := y.allIn }), (.sync l, { c with wa := y.sync, ba := y.inSync }),
        (.lease l, { c with wa := y.lease, ba := y.active }), (.lane l, { c with wa := y.lane }),
        (.period l, { c with wa := BitVec.ofNat 32 y.period }), (.first l, { c with wa := y.first, ba := decide (y.first ≠ 0) }),
        (.furlong l, { c with wa := y.furlong })], exec p.1 s = .next (s.scanned l t 4 p.2)) ∧
    (s.isTriple t = true → exec (.power l) s =
      .next (s.scanned l t 4 { c with ba := y.powerFwd, power := (if c.wa.toNat % 8 < 5 then c.wa.toNat % 8 else 0) + 1 })) ∧
    (s.isTriple t = false → ∃ u, exec (.power l) s = .next u ∧ u.get (TSK_EVT_REFUSED t) = 1 ∧ u.ctx l t = { c with ba := false })

/-- A lane that decodes a word which stands for no instruction, or for one whose operand lies outside the task's slice
or window, ends the scan and presents "illegal" for a TRIPLE task; its bit in SCN_EVT is set and its counter
counts; no byte of memory changes. A SINGLE task's lane, in the vote with the others, does as much and enters assay with cause 12.
The meaning of an instruction whose operand the task may not use presents "illegal" too. -/
def Obligations.IllegalWords : Prop :=
  ∀ (s : State) (l : Lane) (t : Nat) (w : Word), s.running l = some t →
    ((decodeScan l w = none ∨ (∃ i, decodeScan l w = some i ∧ s.usable t (s.ctx l t) i = false)) →
      (s.isTriple t = true → ∃ u, exec (.illegalWord l w) s = .next u ∧ u.presOf l t = some .illegal ∧ (u.ctx l t).phase = .ended ∧
        u.get (SCN_EVT_ILL l.idx) = 1 ∧ u.get (SCN_ILLCNT_CNT l.idx) = min (s.get (SCN_ILLCNT_CNT l.idx) + 1) (2 ^ (SCN_ILLCNT_CNT l.idx).w - 1) ∧
        u.mem = s.mem) ∧
      (s.isTriple t = false → s.safe = false → (∀ m : Lane, s.lane m = .vote) →
        ∃ u, exec (.illegalWord l w) s = .next u ∧ u.get (SCN_EVT_ILL l.idx) = 1 ∧ u.lane l = .assay ∧ u.get LN_ASSAY_CAUSE = 12)) ∧
    (s.isTriple t = true → ∀ o : WordOp, s.bpHit t (s.ctx l t) = none → (o.wf = false ∨ s.wordOpOk t o = false) → ∀ i ∈ [Instr.ldw l o, .add l o, .div l o, .ceq l o, .shl l o],
      ∃ u, exec i s = .next u ∧ u.presOf l t = some .illegal ∧ (u.ctx l t).phase = .ended ∧ u.mem = s.mem)

/-- Every scan instruction whose operands lie where its encoding admits them has a word, and decoding that word on its
lane gives the instruction back with every operand; no other well-formed instruction of the lane has the same
word. -/
def Obligations.ScanWordsRoundTrip : Prop :=
  ∀ (i : Instr) (l : Lane), i.scanLane = some l → i.wf = true →
    ∃ w, encodeScan i = some w ∧ decodeScan l w = some i ∧
      ∀ j : Instr, j.scanLane = some l → j.wf = true → encodeScan j = some w → j = i

/-- LDW M 0x1000, LDN K 1, FLOW stale of flow 17, SYS FURLONG, the QD port of counter 5, and END, each written out
from the tables of R39 to R61; a word of the reserved opcode 0x3D, a bit constant of 2 and a store to I decode to
none. -/
def Obligations.ScanWordsDecode : Prop :=
  ∀ l : Lane, decodeScan l 0x4E001000 = some (.ldw l (.at ⟨.M, 0x1000⟩)) ∧ decodeScan l 0x0B000001 = some (.ldn l (.k true)) ∧
    decodeScan l 0xEB002011 = some (.stale l 17) ∧ decodeScan l 0xEF000007 = some (.furlong l) ∧
    decodeScan l 0xE7006005 = some (.qd l .ctud 5) ∧ decodeScan l 0xFF000000 = some (.endScan l) ∧
    decodeScan l 0xF7000000 = none ∧ decodeScan l 0x07000002 = none ∧ decodeScan l 0x24000000 = none

/-- At the action instant of an enabled task time has reached T = F x F_g + OFFSET; forces are checked, samples are
latched before anything is launched, a due restart takes effect, the staged outputs are launched, the next
period's inputs are latched for agreement, and a forwarded power request reaches the controller. The next instant is sought after
this one, and the furlong of this one is kept. Where every lane is in the vote and nothing is due but the task's own scan, a
TRIPLE task's samples wait for input agreement, and what its staging point staged as a voted image is launched byte by byte. -/
def Obligations.ActionInstant : Prop :=
  ∀ (s : State) (t : Nat) (pads : List (Lane × Nat × Nat)) (miss : Bool) (crc : Option Lane), s.powered = true → t < 16 →
    s.enabled t = true → s.on CFG_ON = true → s.on ACT_STEP = false → s.blk 3 = false →
    let a := s.instantFrom t (s.get (A_FROM t))
    let s1 := (((((s.elapseNet a).handOverDue t).forceInstant t crc).shadowInstant t).atInstant t a).padReadback pads t
    let s1 := s1.joinSeeded t
    let n := s1.samples t
    let x := s1.latchTask t n pads
    let s2 := ((x.reachedIdle t).restartTask t).outputsInstant t
    let s3 := ((((if n = 1 then s2.olcCarry t (x.restartsNow t) else s2).leaveStart t).seededAll).pacePeriod t).inputsInstant t n a miss
    exec (.actionInstant t pads miss crc) s =
      .next ((if s3.on PW_FWD && s3.get PWR_CFG_RTASK == t then s3.powerRequest (s3.get PW_STG) 2 t else s3).leaseInstant t a) ∧
    ∃ u, exec (.actionInstant t pads miss crc) s = .next u ∧ u.get (A_FROM t) = (a + 1) % 2 ^ (A_FROM t).w ∧
      u.get (LAST_F t) = (a / s.furlongGrains) % 2 ^ (LAST_F t).w ∧
      (pads = [] → crc = none → s.on MODE_PEND = false → s.on TW_CFG_EN = false → s.twinOn = false → s.on PW_FWD = false → (∀ l : Lane, s.lane l = .vote) → s.safe = false →
        (∀ c, c < 64 → s.get (FC_CFG_MODE c) = 0) → (s.forces forceEntry) = [] → s.isTriple t = true → s.on (RESTART t) = false → s.samples t = 1 →
        u.get (AGREE t) = 1 ∧
        (s.get (STG_KIND t) = 1 → s.get (TSK_QSLICE_BASE t) + 4 * s.get (TSK_QSLICE_LEN t) ≤ 65536 → ∀ k, k < 4 * s.get (TSK_QSLICE_LEN t) →
          u.byte (launchedImg + s.get (TSK_QSLICE_BASE t) + k) = s.byte (stagedImg + s.get (TSK_QSLICE_BASE t) + k)))

/-- At the staging point of an enabled task time has reached A - 8 us; a late window that is over is closed, what has become of
the scan is judged, the forces are checked and taken up, the image that the task's and the twin's state give is staged, and the
shared blocks take what the staged words ask for. In STOP a task outside the twin has its safe values staged; in RUN, with its
scan voted in time and no force, its voted image is staged byte by byte. -/
def Obligations.StagingPoint : Prop :=
  ∀ (s : State) (t : Nat), s.powered = true → t < 16 → s.enabled t = true → s.on CFG_ON = true → s.on ACT_STEP = false →
    s.blk 3 = false → s.get (PARKED t) ≠ 2 →
    let a := s.instantFrom t (s.get (A_FROM t))
    let s0 := s.elapseNet (a - 2000)
    let s1 := ((((s0.set (NEXT_A t) (s0.now + (a - s0.netTime))).lateDue t).scanDeadline t).forceCheck none).takeForces t
    let x := s1.twinStage t a
    let s2 := (s1.showFrozen t x).stageImage t x
    exec (.staging t) s = .next ((((((s2.stageBlocks t x).stagePower t).stageMode t).stageState t).snapCheck t).leaseStaged t) ∧
    (s.on TW_CFG_EN = false → s.on (LATE_AT t) = false →
      (s.prog = .stop → ∃ u, exec (.staging t) s = .next u ∧ u.get (STG_KIND t) = 2) ∧
      (s.prog = .run → s.on (STARTED t) = true → s.on (RESTART t) = false → s.tripped t = false → s.stopped t = false → s.on (TRIP_NEXT t) = false →
        s.on (SCANNING t) = false → s.on (TSK_STATE_SKIPPING t) = false → s.on PW_PHASE = false → s.get (PARKED t) = 0 → (s.forces forceEntry) = [] →
        s.get (TSK_QSLICE_BASE t) + 4 * s.get (TSK_QSLICE_LEN t) ≤ 65536 →
        ∃ u, exec (.staging t) s = .next u ∧ u.get (STG_KIND t) = 1 ∧ ∀ k, k < 4 * s.get (TSK_QSLICE_LEN t) →
          u.byte (stagedImg + s.get (TSK_QSLICE_BASE t) + k) = s.byte (votedImg + s.get (TSK_QSLICE_BASE t) + k)))

/-- When every import has been dealt with, the lanes that sampled exchange their copies, agree source by source, and
the agreed values with their forces become the input slice, after which the permits are judged and the scan
begins. Whatever they held before, the agreement is over; outside the twin, every lane that agreed holds the agreed image as its
input slice. A task of smaller priority number that waits takes the lane from the running one, whose context is kept;
no other context changes. -/
def Obligations.InputAgreementAndPreemption : Prop :=
  (∀ (s : State) (t : Nat) (flips : List (Lane × Nat × Nat)) (bad missing odd : List Lane), s.powered = true → t < 16 → s.get (AGREE t) = 1 →
    ((s.inputImports t).all fun i => s.on (IMP_DONE i)) = true → s.agreeTurn t = true →
    let ls := s.agreeLanes t
    let s1 := (((s.each flips fun s f => s.flip f.1 f.2.1 f.2.2).exerciseCopy t).exchange t ls).agreeTask t ls bad missing
    exec (.inputAgreement t flips bad missing odd) s = .next (((s1.writeInputs t ls).permitTask t odd).inputsReady t ls) ∧
    ∃ u, exec (.inputAgreement t flips bad missing odd) s = .next u ∧ u.get (AGREE t) = 0 ∧
      (s.on TW_CFG_EN = false → s.on GRP_CFG_EN = false → s.get DBG_PERMIT_TASK ≠ t → s.get (TSK_ISLICE_BASE t) + 4 * s.get (TSK_ISLICE_LEN t) ≤ 65536 →
        ∀ l ∈ ls, ∀ k, k < 4 * s.get (TSK_ISLICE_LEN t) →
          u.byte (inBase l + s.get (TSK_ISLICE_BASE t) + k) = u.byte (agreedImg + s.get (TSK_ISLICE_BASE t) + k))) ∧
  (∀ (s : State) (l : Lane) (t u : Nat), s.powered = true → s.running l = some t → s.byPriority.find? (s.waiting l) = some u →
    s.get (TSK_CFG_PRIO u) < s.get (TSK_CFG_PRIO t) → t < 16 → u < 16 →
    ∃ v, exec (.preemption l) s = .next v ∧ v.ctx l t = { s.ctx l t with phase := .preempted } ∧
      v.ctx l u = { s.ctx l u with phase := .running } ∧ { v with ctxs := s.ctxs } = s ∧
      ∀ (m : Lane) (x : Nat), x < 16 → (m ≠ l ∨ (x ≠ t ∧ x ≠ u)) → v.ctx m x = s.ctx m x)

/-- A lane's presentation that no other agrees with yet, with others still to come, is kept by the balance and leaves
the lane; without a presentation the row has no effect. A verdict signature is kept until those of all lanes in
the vote are there; when all are equal they are cleared and nothing is attributed. When the late window closes, a lane in the
vote that has presented nothing is late: it is flagged and counted, and the instant of the close is kept; where every lane has
presented, the window ends and the balance was of all. -/
def Obligations.Presentations : Prop :=
  (∀ (s : State) (t : Nat) (l : Lane) (m : List Lane), s.powered = true → t < 16 →
    (s.presOf l t = none → exec (.presentation t l m) s = .next s) ∧
    (∀ p, s.presOf l t = some p → s.safe = false → s.votes l t = true → (s.bal t).closed = false → (s.bal t).voted = none → s.on (LATE_AT t) = false →
      s.exercised t l = false → s.partner t l p = none → (s.bal t).seen.length + 1 < (s.voters t).length →
      exec (.presentation t l m) s = .next ((s.setPres l t none).setBal t { s.bal t with seen := (s.bal t).seen ++ [(l, p)] }))) ∧
  (∀ (s : State) (t : Nat) (l : Lane) (x : Verdict), s.powered = true → t < 16 → s.votes l t = true → s.safe = false →
    let vs := ((s.bal t).verdicts.filter fun v => v.1 != l) ++ [(l, x)]
    (vs.length < (s.voters t).length → exec (.verdict t l x) s = .next (s.setBal t { s.bal t with verdicts := vs })) ∧
    ((s.voters t).length ≤ vs.length → 2 ≤ vs.length → (∀ v ∈ vs, v.2 = x) →
      exec (.verdict t l x) s = .next (s.setBal t { s.bal t with verdicts := [] }))) ∧
  (∀ (s : State) (t : Nat), s.powered = true → t < 16 → s.on (LATE_AT t) = true → s.halted t = false →
    ((∀ l ∈ s.voters t, (s.bal t).seen.any (fun q => q.1 == l) = true) →
      exec (.lateWindowClose t) s = .next ((((s.elapseTo (s.get (LATE_AT t))).set (LATE_AT t) 0)).balLast t 6 0)) ∧
    (∀ l, s.awaited t = some l →
      ∃ u, exec (.lateWindowClose t) s = .next u ∧ u.get (LATE_AT t) = 0 ∧ u.get (CLOSED_AT t) = s.get (LATE_AT t) ∧ u.get (LN_EVT_LATE l.idx) = 1 ∧
        u.get (LN_CNT_LATE_CNT l.idx) = min (s.get (LN_CNT_LATE_CNT l.idx) + 1) (2 ^ (LN_CNT_LATE_CNT l.idx).w - 1)))

/-- A handshake timeout and a transfer of the wrong length set the link's flag and count; the timeout also takes the
link down (log 27); with no lane to blame nothing else happens but the event. A keep-alive marks both links up and
counts for each lane whose partner is in the vote. A SAFEOK change comes at its next multiple of 125,000 grains (log 93): the
output toggles where the lane drives it, its last keep-alive lies at most 200 us back and nothing is against it, and goes low where
a condition fails; nothing but time changes beside it. -/
def Obligations.ExchangeRows : Prop :=
  (∀ (s : State) (k : Nat), s.powered = true → k < 6 →
    (∃ u, exec (.exchangeHandshakeTimeout k none) s = .next u ∧ u.get (XCH_EVT_PROTO k) = 1 ∧ u.get (XCH_STATUS_LINK_UP k) = 0 ∧
      u.get XCH_PROTOCNT_CNT = min (s.get XCH_PROTOCNT_CNT + 1) (2 ^ XCH_PROTOCNT_CNT.w - 1) ∧
      s.onlyAndEvents u [XCH_EVT_PROTO k, XCH_STATUS_LINK_UP k, XCH_PROTOCNT_CNT]) ∧
    (∃ u, exec (.wrongLengthTransfer k none) s = .next u ∧ u.get (XCH_EVT_PROTO k) = 1 ∧
      u.get XCH_PROTOCNT_CNT = min (s.get XCH_PROTOCNT_CNT + 1) (2 ^ XCH_PROTOCNT_CNT.w - 1) ∧
      s.onlyAndEvents u [XCH_EVT_PROTO k, XCH_PROTOCNT_CNT])) ∧
  (∀ (s : State) (l m : Lane), s.powered = true → l ≠ m →
    ∃ u, exec (.exchangeKeepalive l m) s = .next u ∧ u.get (XCH_STATUS_LINK_UP (linkNo l m)) = 1 ∧ u.get (XCH_STATUS_LINK_UP (linkNo m l)) = 1 ∧
      u.get (KEEP_AT l.idx) = (if s.inVote m then (s.now + 1) % 2 ^ (KEEP_AT l.idx).w else s.get (KEEP_AT l.idx)) ∧
      u.get (KEEP_AT m.idx) = (if s.inVote l then (s.now + 1) % 2 ^ (KEEP_AT m.idx).w else s.get (KEEP_AT m.idx)) ∧
      s.only u [XCH_STATUS_LINK_UP (linkNo l m), XCH_STATUS_LINK_UP (linkNo m l), KEEP_AT l.idx, KEEP_AT m.idx]) ∧
  (∀ (s : State) (l : Lane), s.powered = true →
    let due := s.safeokDue l
    due < 2 ^ 64 →
    ∃ u, exec (.safeokToggle l) s = .next u ∧ s.now ≤ due ∧ due % 125000 = 0 ∧ u.now = due ∧ u.get (SAFEOK_AT l.idx) = due ∧
      (s.voting l = true → s.on (KEEP_AT l.idx) = true → due + 1 ≤ s.get (KEEP_AT l.idx) + 50000 → s.on (TBF l.idx) = false → s.safe = false →
        s.get PWR_STATUS_STATE = 0 → u.on (SAFEOK l.idx) = !s.on (SAFEOK l.idx)) ∧
      ((s.voting l = false ∨ s.on (KEEP_AT l.idx) = false ∨ s.get (KEEP_AT l.idx) + 50000 ≤ due ∨ s.on (TBF l.idx) = true ∨ s.safe = true ∨
        s.get PWR_STATUS_STATE ≠ 0) → u.get (SAFEOK l.idx) = 0) ∧
      s.only u [FREE, TNET 0, TNET 1, TNET 2, RATE_FRAC, SLEW_T, SLEW_N, SAFEOK_AT l.idx, SAFEOK l.idx])

/-- The first 1 ms window of a reporting lane takes its count as calibration. Where a reference's period has ended, the pace
monitor shows each voting lane that was busy its weighted instructions over the us it was busy, and counts anew; with no scanning
TRIPLE task it sets NONE and clears VALID of each lane. A lane-enable minority on a driven cell in VOTE, outside launch skew, holds
and exercises, is lane dissent, counted, with event 0x100B, and takes a lane of a full vote to assay with cause 9. -/
def Obligations.LaneMonitors : Prop :=
  (∀ (s : State) (l : Lane) (n : Nat), s.powered = true → s.timeReporter l = true → s.safe = false → s.get (TCAL l.idx) = 0 →
    n * 1000000 < 2 ^ (TRATIO l.idx).w → n < 2 ^ (TCAL l.idx).w →
    ∃ u, exec (.timeCheckWindow l n) s = .next u ∧ u.get (TCAL l.idx) = n ∧ u.get (TRATIO l.idx) = n * 1000000 ∧
      s.only u [TCAL l.idx, TRATIO l.idx]) ∧
  (∀ (s : State) (a b c : Nat), s.powered = true → s.on PACE_DUE = true →
    (s.paceRef = none → ∃ u, exec (.paceComparison a b c) s = .next u ∧ u.get SCN_CFG_NONE = 1 ∧ (∀ l : Lane, u.get (LN_PACE_VALID l.idx) = 0) ∧
      s.only u [SCN_CFG_NONE, SCN_CFG_SUBST, PACE_NEW, PACE_DUE, LN_PACE_VALID 0, LN_PACE_VALID 1, LN_PACE_VALID 2]) ∧
    (∀ t, s.paceRef = some t → ∃ u, exec (.paceComparison a b c) s = .next u ∧ u.get SCN_CFG_NONE = 0 ∧ u.get SCN_CFG_USED = t ∧
      ∀ p ∈ [(Lane.la, a), (.lb, b), (.lc, c)], u.get (PACE_W p.1.idx) = 0 ∧ (p.1 ∈ s.voters t → p.2 ≠ 0 →
        u.get (LN_PACE_PACE p.1.idx) = min 65535 (s.get (PACE_W p.1.idx) / p.2) ∧ u.get (LN_PACE_VALID p.1.idx) = 1))) ∧
  (∀ (s : State) (l : Lane) (c side grains : Nat) (at_ : Bool), s.powered = true → c < 64 → side < 2 → s.get (BAL_FOLLOW c) = 0 →
    s.voting l = true → s.on (LAUNCHED l.idx c) = true → s.heldChannel c = false →
    (∀ t, t < 16 → ¬ (s.get (VEX_CELL t) = 2 * c + side + 1 ∧ s.get (VEX_NOW t) = l.code)) → (at_ = false ∨ 4 < grains) →
    exec (.laneEnableMinority l c side grains at_) s =
      .next (((s.raise (LN_EVT_DISSENT l.idx) (LN_CNT_DISSENT_CNT l.idx)).ev 0x100B l.code c side).trigger l 9 (s.outTask c)) ∧
    ((∀ m : Lane, s.lane m = .vote) → s.safe = false → ∃ u, exec (.laneEnableMinority l c side grains at_) s = .next u ∧ u.lane l = .assay ∧
      u.get LN_ASSAY_CAUSE = 9 ∧ u.get (LN_EVT_DISSENT l.idx) = 1 ∧ u.get (LN_CNT_DISSENT_CNT l.idx) = s.counted (LN_CNT_DISSENT_CNT l.idx)))

/-- A passed step 3, 4 or 5 of an assay only advances the step; a failed step and the 30 ms limit end the assay with
their result and retire the lane. A task whose state is alike in the two healthy lanes is copied to the seeding
lane; a copy that ends before the task's next A - 8 us lets the lane join the task's vote at that instant, a late one is counted
and repeated. Sixteen agreeing periods of every TRIPLE task return the lane to the vote. -/
def Obligations.AssayAndSeeding : Prop :=
  (∀ (s : State) (l : Lane), s.powered = true → s.lane l = .assay → s.safe = false →
    (s.now ≤ s.get (ASSAY_T0 l.idx) + 7500000 →
      (∀ k ∈ [3, 4, 5], s.get (ASSAY_STEP l.idx) = k →
        ∃ u, exec (.assayStepEnd l true) s = .next u ∧ u.get (ASSAY_STEP l.idx) = k + 1 ∧ s.only u [ASSAY_STEP l.idx]) ∧
      (∀ k, 3 ≤ k → s.get (ASSAY_STEP l.idx) = k →
        ∃ u, exec (.assayStepEnd l false) s = .next u ∧ u = s.assayFailed l (if k ≤ 6 then k else 7) ∧ u.lane l = .retired ∧
          u.get LN_ASSAY_RESULT = (if k ≤ 6 then k else 7) ∧ u.get (NV_RETIRED l.idx) = 1 ∧ u.get (LN_EVT_RETIRE l.idx) = 1)) ∧
    (∃ u, exec (.assayTimeout l) s = .next u ∧ u = (s.elapseTo (s.get (ASSAY_T0 l.idx) + 7500000)).assayFailed l 7 ∧ u.lane l = .retired ∧
      u.get LN_ASSAY_RESULT = 7 ∧ u.get (NV_RETIRED l.idx) = 1 ∧ u.get (LN_EVT_RETIRE l.idx) = 1)) ∧
  (∀ (s : State) (l a b : Lane) (t : Nat) (ws : List Word) (p : Nat), s.powered = true → s.lane l = .seeding → s.safe = false →
    s.nextSeed l = some t → (s.bal t).voted = some (.image ws p) → s.healthy l = [a, b] →
    (s.seedRegions t).all (s.sameIn a b) = true → s.sameEdges a b t = true →
    ∃ u, exec (.seedCopy l t) s = .next u ∧ u.get (SEED_BUSY l.idx t) = 1 ∧
      u.mem = (s.seedTask a l t).mem ∧ u.ctxs = s.ctxs ∧ u.bals = s.bals) ∧
  (∀ (s : State) (l : Lane) (t : Nat), s.powered = true → s.lane l = .seeding → s.safe = false → t < 16 → s.on (SEED_BUSY l.idx t) = true →
    (s.now + 2000 < s.get (NEXT_A t) →
      ∃ u, exec (.seedCopyDone l t) s = .next u ∧ u.get (SEED_BUSY l.idx t) = 0 ∧ u.get (SEED_JOIN l.idx t) = 1 ∧
        s.only u [SEED_BUSY l.idx t, SEED_JOIN l.idx t]) ∧
    (s.get (NEXT_A t) ≤ s.now + 2000 → s.get (SEED_TRY l.idx t) < 4 →
      ∃ u, exec (.seedCopyDone l t) s = .next u ∧ u.get (SEED_BUSY l.idx t) = 0 ∧ s.only u [SEED_BUSY l.idx t, SEED_RETRY l.idx])) ∧
  (∀ (s : State) (l : Lane), s.powered = true → s.lane l = .probation → s.safe = false →
    (∀ t ∈ s.tripleTasks, s.get (PROB_N l.idx t) = 16) →
    ∃ u, exec (.probationComplete l) s = .next u ∧ u.lane l = .vote ∧ s.only u [LN_STATUS_ST l.idx, LN_STATUS_DUPLEX])

/-- A mode request that nothing refuses is taken up as pending; the hand-over, at the task's action instant, gives the task
its new mode, its non-safety cells that mode, and marks the request done; the state copy gives every other lane the task's output
slice before it. With the permit and the unlock
scope the chosen lanes are marked for un-retirement; the pad-cell latches that are set are marked for clearing;
TSK_CLR clears the task's maximum and margin. -/
def Obligations.ModesAndMaintenance : Prop :=
  (∀ (s : State) (t m : Nat), s.powered = true → t < 16 → m < 4 → s.modeRefusal t m = 0 →
    ∃ u, exec (.modeRequest t m) s = .next u ∧ u.get LN_MODESTAT_OUTCOME = 1 ∧ u.get LN_MODESTAT_TASK = t ∧ u.get LN_MODESTAT_MODE = m ∧
      u.get MODE_PEND = 1 ∧ u.get MODE_PT = t ∧ u.get MODE_PM = m ∧
      s.only u [LN_MODEREQ_TASK, LN_MODEREQ_MODE, LN_MODESTAT_TASK, LN_MODESTAT_MODE, LN_MODESTAT_REASON, LN_MODESTAT_OUTCOME, MODE_PEND,
        MODE_PT, MODE_PM, MODE_AT, MODE_COPY, MODE_TRY]) ∧
  (∀ (s : State) (t : Nat), s.powered = true → t < 16 → s.on MODE_PEND = true → s.get MODE_PT = t → s.safe = false →
    (let a := s.instantFrom t (s.get (A_FROM t))
     s.enabled t = true → s.get MODE_AT + 2000 ≤ s.now + (a - s.netTime) → (s.isTriple t = true ∨ s.get MODE_COPY = 3) →
      ∃ u, exec (.modeHandOver t) s = .next u ∧ u.get (TSK_STATE_MODE t) = s.get MODE_PM ∧ u.get MODE_PEND = 0 ∧ u.get LN_MODESTAT_OUTCOME = 2 ∧
        (∀ c, c < 64 → s.on (FC_QBIND_EN c) = true → s.get (FC_QBIND_TASK c) = t →
          u.get (BAL_FOLLOW c) = if s.on (FC_CFG_SAFETY c) then s.get (BAL_FOLLOW c) else s.get MODE_PM) ∧
        u.descs = (s.settle 0x7A (fun _ => true) stSuccess 0).descs ∧ u.mem = s.mem) ∧
    (∀ l, s.singleLane t = some l → s.get MODE_COPY = 1 →
      ∃ u, exec (.stateCopyComplete t) s = .next u ∧ u = (s.each l.others fun s m => s.seedTask l m t).set MODE_COPY 2 ∧ u.get MODE_COPY = 2 ∧
        (s.image = none → s.get (TSK_QSLICE_BASE t) + 4 * s.get (TSK_QSLICE_LEN t) ≤ 65536 → s.get (TSK_MWIN_BASE t) + s.get (TSK_MWIN_LEN t) ≤ 8192 →
          ∀ m ∈ l.others, ∀ k, k < 4 * s.get (TSK_QSLICE_LEN t) →
            u.byte (outBase m + s.get (TSK_QSLICE_BASE t) + k) = s.byte (outBase l + s.get (TSK_QSLICE_BASE t) + k)))) ∧
  (∀ s : State, s.powered = true →
    (s.maintPermit = true → s.unlocked 3 = true → ∀ a b c : Bool,
      ∃ u, exec (.unRetire a b c) s = .next u ∧ (a = true → u.get (NV_UNRET 0) = 1) ∧ (b = true → u.get (NV_UNRET 1) = 1) ∧
        (c = true → u.get (NV_UNRET 2) = 1) ∧ s.onlyAndEvents u [NV_UNRET 0, NV_UNRET 1, NV_UNRET 2, UNLOCK_AT]) ∧
    (s.maintPermit = true → ∃ u, exec .padCellFaultClear s = .next u ∧ (∀ c, c < 64 → s.on (BAL_PADF c) = true → u.get (PADCLR c) = 1) ∧
      s.only u ((List.range 64).map PADCLR)) ∧
    (∀ t, t < 16 → ∃ u, exec (.tskMaxclr t) s = .next u ∧ u.get (TSK_MAX_N_N t) = 0 ∧ u.get (TSK_MARGIN_MIN_SLACK t) = 0x7FFFFF ∧
      s.only u [TSK_MAX_N_N t, TSK_MARGIN_MIN_SLACK t]))

/-- A request for STOP, RUN or HOLD that R124 refuses leaves its target, its reason and the outcome REFUSED, sets the
event flag and counts it; the program state and everything else but the event record stay. An accepted request is
pending until it has taken effect in every enabled task; STOP enters STOP, HOLD keeps the voted image as the held
one, RUN from STOP enters RUN by the restart kind that applies and from HOLD restarts every task warm; the state then shows it. AUTORUN
enters RUN by itself. A task restart of a tripped task in RUN is planned 8 us ahead. -/
def Obligations.ProgramStateRequests : Prop :=
  (∀ (s : State) (cold : Bool), s.powered = true → s.blk 2 = false →
    ∀ p ∈ [(Instr.stopRequest, 0), (.runRequest cold, 1), (.holdRequest, 2)], s.psRefusal p.2 ≠ 0 →
      ∃ u, exec p.1 s = .next u ∧ u.get DBG_PSSTAT_TARGET = p.2 ∧ u.get DBG_PSSTAT_REASON = s.psRefusal p.2 ∧ u.get DBG_PSSTAT_OUTCOME = 3 ∧
        u.get DBG_EVT_REFUSED = 1 ∧ u.get DBG_PSTATE_STATE = s.get DBG_PSTATE_STATE ∧
        s.onlyAndEvents u [DBG_PSREQ_TARGET, DBG_PSREQ_COLD, DBG_PSSTAT_TARGET, DBG_PSSTAT_REASON, DBG_PSSTAT_OUTCOME, DBG_EVT_REFUSED, DBG_EVCNT_REFUSED_CNT]) ∧
  (∀ (s : State), s.powered = true → s.blk 2 = false →
    let taken := fun (s : State) (cold : Bool) => State.each ((((s.set DBG_PSSTAT_OUTCOME 1).set PS_PEND 1).put PS_COLD cold).olcAbort 3) tasks fun s t => s.put (PS_REACHED t) (!s.enabled t)
    let shown := fun (s : State) (n : Nat) => (s.set DBG_PSSTAT_TARGET n).set DBG_PSSTAT_REASON 0
    (s.psRefusal 0 = 0 → exec .stopRequest s = .next (((taken (shown (s.set DBG_PSREQ_TARGET 0) 0) false).enterStop 0).psSettle) ∧
      ∃ u, exec .stopRequest s = .next u ∧ u.get DBG_PSTATE_STATE = 0 ∧ u.get DBG_PSSTAT_TARGET = 0 ∧ u.get DBG_PSSTAT_OUTCOME = 1 ∧ u.get SNAP_BUSY = 1 ∧
        ∀ t, t < 16 → u.get (RESTART t) = 0) ∧
    (s.psRefusal 2 = 0 → ∃ u, exec .holdRequest s = .next u ∧ u.get DBG_PSTATE_STATE = 2 ∧ u.get DBG_PSSTAT_TARGET = 2 ∧
      ∀ k, k < 65536 → u.byte (holdImg + k) = s.byte (votedImg + k)) ∧
    (∀ cold, s.psRefusal 1 = 0 → ∃ u, exec (.runRequest cold) s = .next u ∧ u.get DBG_PSTATE_STATE = 1 ∧ u.get DBG_PSSTAT_TARGET = 1) ∧
    (s.psRefusal 2 = 0 → exec .holdRequest s =
      .next ((((taken (shown (s.set DBG_PSREQ_TARGET 2) 2) false).setProg .hold 0).copy votedImg holdImg 65536).psSettle)) ∧
    (∀ cold, s.psRefusal 1 = 0 →
      let u := taken (shown ((s.set DBG_PSREQ_TARGET 1).put DBG_PSREQ_COLD cold) 1) cold
      exec (.runRequest cold) s = .next (if u.prog = .hold then ((u.dropHalted.setProg .run 0).restartAll 1 3).psSettle
        else ((u.setProg .run 0).enterRun cold).psSettle))) ∧
  (∀ s : State, s.powered = true → s.prog = .stop → s.on DBG_RCFG_AUTORUN = true → s.on AUTO_DUE = true → s.image.isSome = true →
    s.on CFG_ON = true → s.safe = false → s.on PS_PEND = false → s.on ACT_STEP = false → s.on FB_PEND = false → s.startBad = false →
    exec .autorun s = .next ((s.setProg .run 1).enterRun false) ∧ ∃ u, exec .autorun s = .next u ∧ u.get DBG_PSTATE_STATE = 1 ∧ u.get AUTO_DUE = 0) ∧
  (∀ (s : State) (t : Nat) (cold : Bool), s.powered = true → t < 16 → s.blk 2 = false → s.safe = false → s.prog = .run → s.enabled t = true →
    s.tripped t = true → (s.isSafety t = false ∨ s.standPermit = true) →
    ∃ u, exec (.taskRestartRequest t cold) s = .next u ∧ u.get DBG_TRSTAT_OUTCOME = 1 ∧ u.get DBG_TRSTAT_REASON = 0 ∧ u.get DBG_TRSTAT_TASK = t ∧
      u.get (RESTART t) = (if cold then 2 else 1) ∧ u.get (RESTART_OCC t) = 5 ∧
      s.only u [DBG_TRESTART_TASK, DBG_TRESTART_COLD, DBG_TRSTAT_TASK, DBG_TRSTAT_REASON, DBG_TRSTAT_OUTCOME, RESTART t, RESTART_OCC t, RESTART_AT t, PS_REACHED t])

/-- A periodic snapshot that is due goes to the slot with the older sequence number. The end of a write whose lanes agree and
whose MRAM wrote leaves the slot with header and data from the lowest-lettered lane in the vote, the header's marker first; a
failed one leaves nothing usable, sets the flag and counts. -/
def Obligations.SnapshotsOfRetainedWords : Prop :=
  (∀ s : State, s.powered = true → s.image.isSome = true → s.snapDue = true → s.on SNAP_BUSY = false →
    ∃ u, exec .periodicSnapshot s = .next u ∧ u.get SNAP_BUSY = 1 ∧ u.get SNAP_SLOT = (if s.slotSeq 1 < s.slotSeq 0 then 1 else 0) ∧
      s.only u [SNAP_BUSY, SNAP_SLOT, SNAP_OP]) ∧
  (∀ (s : State) (e : Bool), s.powered = true → s.on SNAP_BUSY = true → s.on SNAP_AGAIN = false →
    let i := s.get SNAP_SLOT
    let s1 := if s.copiesDiffer then ((s.destroy (snapSlot i) 0x20000).raise DBG_EVT_SNAPFAIL DBG_EVCNT_FAULT_CNT).ev 0x2015 0 i 0
      else if e then ((s.destroy (snapSlot i) 0x20000).raise DBG_EVT_SNAPFAIL DBG_EVCNT_FAULT_CNT).ev 0x2015 0 i 1
      else s.writeSlot i ((Lane.all.find? s.inVote).getD .la)
    s1.on SNAP_AGAIN = false →
    let s2 := (((s1.set SNAP_BUSY 0).set PS_SNAP 0).psSettle).powerSnapDone
    exec (.snapshotWriteDone e) s = .next (if s2.on FB_PEND then s2.fallbackNow (s2.get FB_CAUSE) else s2).pfailStep) ∧
  (∀ s : State, s.powered = true → s.on SNAP_BUSY = true → s.on SNAP_AGAIN = false → s.on FB_PEND = false → s.on PFAIL_SEQ = false → s.get PW_PHASE = 0 →
    s.get SNAP_SLOT < 2 →
    (s.copiesDiffer = false → ∃ u, exec (.snapshotWriteDone false) s = .next u ∧ u.get SNAP_BUSY = 0 ∧ u.get PS_SNAP = 0 ∧
      u.bytes (snapSlot (s.get SNAP_SLOT)) 4 = [0x31#8, 0x4E#8, 0x54#8, 0x52#8] ∧
      let data := wordBytes (s.committed ((Lane.all.find? s.inVote).getD .la))
      u.bytes (snapSlot (s.get SNAP_SLOT) + 32) data.length = data) ∧
    (∃ u, exec (.snapshotWriteDone true) s = .next u ∧ u.get SNAP_BUSY = 0 ∧ u.get DBG_EVT_SNAPFAIL = 1 ∧ u.get DBG_EVCNT_FAULT_CNT = s.counted DBG_EVCNT_FAULT_CNT))

/-- Without HOLD and an unlock of its scope the debug commands change nothing. With them, a halt request of a task
outside its scan waits for the next scan; STEP runs exactly one instruction of a halted task on each of its halted
lanes: where each has a NOP before it, each is at the next index, halted again; CONT lets them go on: none of them is halted. The
first report of a halt is kept; two that agree, or a SINGLE task's own report, define the halt, which the registers show. -/
def Obligations.DebugOfAHeldTask : Prop :=
  ∀ (s : State) (t : Nat), s.powered = true → t < 16 →
    (s.debugs = false → ∀ i ∈ [Instr.step t, .cont t, .haltreq t], exec i s = .next s) ∧
    (s.debugs = true → s.halted t = false → ((s.lanesOf t).filter fun l => s.inScan l t) = [] →
      ∃ u, exec (.haltreq t) s = .next u ∧ u.get (HREQ t) = 1 ∧ s.only u [HREQ t, UNLOCK_AT]) ∧
    (s.debugs = true → s.halted t = true →
      let ls := (s.lanesOf t).filter fun l => s.haltedIn l t
      let s0 := s.set UNLOCK_AT s.now
      exec (.step t) s = .next (((s0.each ls fun s l => s.stepLane l t).setHaltLanes t 0).haltSettle t) ∧
      exec (.cont t) s = .next ((((s0.each ls fun s l => (s.setCtx l t { s.ctx l t with phase := .preempted }).resume l).setHaltLanes t 0).set (LATE_AT t) 0).haltSettle t) ∧
      ((∀ l ∈ ls, s.running l = none ∧ decodeScan l (s.fetch l t) = some (.nop l)) → ∃ u, exec (.step t) s = .next u ∧ ∀ l ∈ ls,
        (u.ctx l t).pc = ((s.ctx l t).pc + 1) % 262144 ∧ (u.ctx l t).phase = .halted ∧ (u.ctx l t).wa = (s.ctx l t).wa) ∧
      (∃ u, exec (.cont t) s = .next u ∧ u.get (LATE_AT t) = 0 ∧ ∀ l ∈ ls, u.haltedIn l t = false)) ∧
    (∀ l : Lane, s.halted t = true → s.haltedIn l t = true → s.on (HALT_REP t l.idx) = false → s.safe = false → s.on (LATE_AT t) = false →
      let c := s.ctx l t
      let shows := fun (u : State) => u.get (DBG_HALT_PC t) = c.pc % 2 ^ (DBG_HALT_PC t).w ∧ u.get (DBG_HALT_HALTED t) = 1 ∧ u.get (DBG_HWA_WA t) = c.wa.toNat ∧
        u.get (DBG_HWB_WB t) = c.wb.toNat ∧ u.on (DBG_HFLAGS_BA t) = c.ba ∧ u.get (DBG_HALT_LANES t l.idx) = 1
      (s.isTriple t = false → exec (.haltReport t l) s = .next ((s.set (HALT_REP t l.idx) 1).showHalt t (2 ^ l.idx) (s.ctx l t)) ∧
        ∃ u, exec (.haltReport t l) s = .next u ∧ shows u) ∧
      (s.isTriple t = true → s.inVote l = true → s.haltLanes t = 0 →
        ((∀ m : Lane, s.on (HALT_REP t m.idx) = false) → 2 ≤ (s.voters t).length →
          exec (.haltReport t l) s = .next (s.set (HALT_REP t l.idx) 1)) ∧
        (∀ m : Lane, m ∈ s.voters t → m ≠ l → s.on (HALT_REP t m.idx) = true → s.haltedIn m t = true → (s.ctx m t).report = c.report →
          (∀ n : Lane, n ≠ m → s.on (HALT_REP t n.idx) = false) →
          ∃ u, exec (.haltReport t l) s = .next u ∧ shows u ∧ u.get (DBG_HALT_LANES t m.idx) = 1)))

/-- When its 600 s have passed, the unlock and its scopes are gone, and HOLD with them; outside HOLD nothing else
changes but the event. When its 60 s have passed the lockout ends with the count of failures at 0. A challenge
outside the lockout writes 32 free bytes and makes them the outstanding nonce; a response in time that some
enrolled key verifies, with the maintenance permit, grants its scope and uses the nonce up; a release drops the
unlock, and HOLD with it. ATTEST writes its report of 5140 bytes, IDENTITY the device certificate of 9972. -/
def Obligations.UnlockAndIdentity : Prop :=
  (∀ s : State, s.powered = true → s.on DBG_PSTATE_UNLOCK = true → s.get UNLOCK_AT + 150000000000 ≤ s.now → s.prog ≠ .hold →
    ∃ u, exec .unlockLapse s = .next u ∧ u.get DBG_PSTATE_UNLOCK = 0 ∧ (∀ b, b < 4 → u.get (DBG_PSTATE_SCOPE b) = 0) ∧
      s.onlyAndEvents u [DBG_PSTATE_SCOPE 0, DBG_PSTATE_SCOPE 1, DBG_PSTATE_SCOPE 2, DBG_PSTATE_SCOPE 3, DBG_PSTATE_UNLOCK, DBG_PSTATE_UNLOCK_S]) ∧
  (∀ s : State, s.powered = true → s.on DBG_UNLOCKSTAT_LOCKOUT = true → s.get LOCK_AT + 15000000000 ≤ s.now →
    ∃ u, exec .unlockLockoutEnd s = .next u ∧ u.get DBG_UNLOCKSTAT_LOCKOUT = 0 ∧ u.get DBG_UNLOCKSTAT_FAILS = 0 ∧
      s.only u [DBG_UNLOCKSTAT_LOCKOUT, DBG_UNLOCKSTAT_FAILS]) ∧
  (∀ (s : State) (r : Nat) (d : Desc), s.nextDesc r = some d →
    (d.op = 0x70 → s.on DBG_UNLOCKSTAT_LOCKOUT = false → 32 ≤ d.len →
      let u := ((s.destroy nonceAt 32).set NONCE_ON 1).set NONCE_AT s.now
      exec (.unlockChallenge r true) s = .next ((u.hostWrite d.buf (u.bytes nonceAt 32)).finish d stSuccess 32) ∧
      ∃ v, exec (.unlockChallenge r true) s = .next v ∧ v.get NONCE_ON = 1 ∧ v.get NONCE_AT = s.now % 2 ^ NONCE_AT.w ∧ v.hostHas d.buf (v.bytes nonceAt 32) ∧
        v.answered d stSuccess 32) ∧
    (∀ (bs : List Byte) (k : Nat), d.op = 0x71 → bs.length = d.len → ofLe (bs.take 4) < 16 → s.on DBG_UNLOCKSTAT_LOCKOUT = false → s.on NONCE_ON = true →
      s.now < s.get NONCE_AT + 60000 * grainsMs → s.unlockKey (bs.take 4) (bs.drop 4) = some k → s.maintPermit = true →
      exec (.unlockResponse r (some bs)) s = .next (((s.set NONCE_ON 0).set DBG_UNLOCKSTAT_FAILS 0).unlockGrant d (ofLe (bs.take 4)) k) ∧
      ∃ v, exec (.unlockResponse r (some bs)) s = .next v ∧ v.get DBG_PSTATE_UNLOCK = 1 ∧ v.get DBG_PSTATE_UNLOCK_S = 600 ∧ v.get NONCE_ON = 0 ∧
        v.get DBG_UNLOCKSTAT_FAILS = 0 ∧ (∀ b, b < 4 → v.on (DBG_PSTATE_SCOPE b) = (ofLe (bs.take 4)).testBit b) ∧ v.answered d stSuccess (ofLe (bs.take 4))) ∧
    (d.op = 0x72 → exec (.unlockRelease r) s = .next (s.unlockDrop.holdLost.finish d stSuccess) ∧
      ∃ v, exec (.unlockRelease r) s = .next v ∧ v.get DBG_PSTATE_UNLOCK = 0 ∧ (∀ b, b < 4 → v.get (DBG_PSTATE_SCOPE b) = 0) ∧ v.prog ≠ .hold ∧ v.answered d stSuccess) ∧
    (∀ n : List Byte, d.op = 0x68 → 5140 ≤ d.len → n.length = 32 →
      ∃ v, exec (.attest r (some n) true) s = .next v ∧ v = (s.hostWrite d.buf (s.attestReport n)).finish d stSuccess 5140 ∧ v.hostHas d.buf (s.attestReport n) ∧
        v.answered d stSuccess 5140) ∧
    (d.op = 0x69 → 9972 ≤ d.len → ∃ v, exec (.identity r true) s = .next v ∧ v = (s.hostWrite d.buf ((upto 9972).map deviceCert)).finish d stSuccess 9972 ∧
      v.hostHas d.buf ((upto 9972).map deviceCert) ∧ v.answered d stSuccess 9972))

/-- A lane that finds its copy wrong aborts the change; one that confirms it, while another lane in the vote has not,
holds the changed code; the last to confirm arms the switch for the first furlong that is at least one whole furlong away. At F every lane in the vote keeps its old instances and takes the new table; the new image
is the one that runs, and every enabled task's instances follow at its next action instant. -/
def Obligations.OnLineChange : Prop :=
  (∀ (s : State) (l : Lane) (im : LogicImage), s.powered = true → s.get DBG_OLC_STATE = 1 → s.inVote l = true → s.on (OLC_OK l.idx) = false →
    s.olcImage = some im →
    exec (.olcCopyConfirmed l false) s = .next (s.olcAbort 4) ∧
    ((∀ m : Lane, s.inVote m = true → m = l ∨ s.on (OLC_OK m.idx) = true) →
      ∃ v, exec (.olcCopyConfirmed l true) s = .next v ∧ v.get DBG_OLC_STATE = 2 ∧ v.get OLC_F = ceilDiv (s.netTime + s.furlongGrains) s.furlongGrains % 2 ^ OLC_F.w) ∧
    (let u := (s.loadChanged l im).set (OLC_OK l.idx) 1
     (∃ m : Lane, u.inVote m = true ∧ u.on (OLC_OK m.idx) = false) → exec (.olcCopyConfirmed l true) s = .next u)) ∧
  (∀ (s : State) (old im : LogicImage), s.powered = true → s.get DBG_OLC_STATE = 2 → s.image = some old → s.olcImage = some im →
    let s1 := s.elapseNet (s.get OLC_F * s.furlongGrains)
    let ls := Lane.all.filter s1.inVote
    let was := (s1.forces forceEntry).filter s1.inputBound
    let s2 := s1.each ls fun s l => s.keepOld l
    let s3 := State.showImage { s2 with oldImage := some old, image := some im, olcImage := none }
    let s4 := s3.each ls fun s l => (s.newVars old im l).set (OLC_OK l.idx) 0
    let s5 := ((((s4.set DBG_OLC_STATE 3).set OLC_CARRY 0).set OLC_INIT 0).set OLC_DROP 0).set OLC_DONE 0
    let s6 := s5.each tasks fun s t => (s.put (CL_PEND t) (s.enabled t)).set (OLC_BAL t) 0
    let s7 := (((s6.each (s6.forces forceEntry) (State.checkForce was)).showForces).setJournal 3 2).set (KIND_OK 1) 1
    exec .olcSwitch s = .next ((((((s7.set (UPD_SESSION_OPEN 1) 0).set (UPD_SESSION_VERIFIED 1) 0).set (SES_N 1) 0).set SES_APPLIED 0).beginProbation 2).showImages) ∧
    ∃ v, exec .olcSwitch s = .next v ∧ v.image = some im ∧ v.oldImage = some old ∧ v.olcImage = none ∧ v.get DBG_OLC_STATE = 3 ∧ v.get UPD_STAT_PROB = 1 ∧
      (∀ t, t < 16 → v.on (CL_PEND t) = s.enabled t))

/-- When the debounced levels of a DUAL_CONTACT channel change in a lane, the channel's state in that lane is NONDEM
with both contacts non-demand, DEM with both in demand, DISC_WAIT with one; from FAULT only both contacts in
demand lead, and to DEM; the pins are shown. A change comes no earlier than the debounce time of its pin; a discrepancy time that ended
in an earlier grain has latched the fault before it. The discrepancy time that ends in DISC_WAIT leads to FAULT with the lane's
flag set. Of a channel that no brake group takes a demand from, nothing else changes but time and the event record. -/
def Obligations.ContactStateMachine : Prop :=
  ∀ (s : State) (l : Lane) (c : Nat), s.powered = true → s.debounces c = true → s.get (FC_CFG_MODE c) = 1 → s.readbackGroups c = [] →
    (∀ g, g < 16 → s.get (BRK_CFG_OUTCH g) < 64 ∧ s.get (BRK_CFG_TASK g) < 16) →
    let touched := timeFields ++ [FC_STATUS_PINA c l.idx, FC_STATUS_PINB c l.idx, FC_STATUS_DC c l.idx, DEB l.idx c 0, DEB l.idx c 1, DEB_AT l.idx c 0,
      DEB_AT l.idx c 1, DISC_AT l.idx c, DISC_FROM l.idx c, DISC_FLAG l.idx c, DISC_EV c, DISC_SET_AT c, FC_EVT_DISC c, FC_EVCNT_DISC_CNT c]
    (∀ a b : Bool,
      let y := if s.get (FC_CFG_WIRING c) = 0 then b else !b
      let at_ := max s.now (max (s.debounceDue l c 0 a) (s.debounceDue l c 1 b))
      let was : DcState := if s.dc l c = .discWait ∧ s.discEnd l c < at_ then .fault else s.dc l c
      at_ < 2 ^ 64 →
      ∃ u, exec (.debounceEnd l c a b) s = .next u ∧ u.get (FC_STATUS_PINA c l.idx) = (if a then 1 else 0) ∧ u.get (FC_STATUS_PINB c l.idx) = (if b then 1 else 0) ∧
        u.now = at_ ∧ u.level l c 0 = a ∧ u.level l c 1 = b ∧
        (a = false → y = false → u.dc l c = .dem) ∧ (was ≠ .fault → a = true → y = true → u.dc l c = .nondem) ∧
        (was ≠ .fault → a ≠ y → u.dc l c = .discWait) ∧ (was = .fault → ¬ (a = false ∧ y = false) → u.dc l c = .fault) ∧
        (s.demandGroups c = [] → s.onlyAndEvents u touched)) ∧
    (s.dc l c = .discWait → ∃ u, exec (.discrepancyTimeout l c) s = .next u ∧ u.dc l c = .fault ∧ u.get (DISC_FLAG l.idx c) = 1 ∧
      (s.demandGroups c = [] → s.onlyAndEvents u touched))

/-- A good window of a sigma-delta channel keeps those before it and leaves its own 24-bit two's complement result
(sum - 2^(3m-1), scaled to 24 bits, 0x7FFFFF at most), its number and its edge, and whether it is over range. A clock fault of a
lane is marked, with loop delay 0xFF where there are no edges and as the window's own where its loop delay is above 250 grains;
its end is marked, and the windows before the clearing edge yield nothing. With fewer than two lanes in the vote concerned the
agreed event waits. (The levels that the window leaves in FC_STATUS are free, log 96.) -/
def Obligations.SigmaDeltaWindows : Prop :=
  ∀ (s : State) (l : Lane) (c j : Nat), s.powered = true → c < 64 → s.get (FC_CFG_MODE c) = 3 → s.bankFault c = false →
    let m := s.get (FC_CFG_OSR c) + 4
    let calm := (∀ n : Lane, n ≠ l → s.on (SD_CLKF n.idx c) = false) ∧ s.on (SD_CLKEV c) = false
    (∀ sum edge loop : Nat, s.get (FC_CFG_OSR c) ≤ 5 → s.on (SD_CLKF l.idx c) = false → s.get (SD_SKIP l.idx c) ≤ j + 1 → s.get (SD_WIN l.idx c) ≤ j →
      j + 1 < 2 ^ 64 → sum ≤ 2 ^ (3 * m) → edge = s.sdLastEdge c j →
      (loop ≤ 250 → s.on (SD_OVW c) = false →
        ∃ u, exec (.sdWindowComplete l c j sum edge loop) s = .next u ∧ (u.get (SD_R l.idx c) : Int) = min (sdResult m sum) 8388607 % 16777216 ∧
          u.get (SD_WIN l.idx c) = j + 1 ∧ u.get (SD_WIN2 l.idx c) = s.get (SD_WIN l.idx c) % 2 ^ 64 ∧ u.get (FC_LOOPD_L c l.idx) = loop ∧
          u.on (SD_OVR l.idx c) = decide (8388607 < sdResult m sum ∨ sdResult m sum = -8388608) ∧
          s.only { u with freeCount := s.freeCount } (timeFields ++ [SD_R3 l.idx c, SD_WIN3 l.idx c, SD_EDGE3 l.idx c, SD_OVR3 l.idx c, SD_R2 l.idx c, SD_WIN2 l.idx c,
            SD_EDGE2 l.idx c, SD_OVR2 l.idx c, SD_R l.idx c, SD_WIN l.idx c, SD_EDGE l.idx c, SD_OVR l.idx c, SD_OVW c, SD_OVL c, SD_OVH c, FC_LOOPD_L c l.idx,
            FC_STATUS_PINA c l.idx, FC_STATUS_PINB c l.idx])) ∧
      (250 < loop → calm →
        ∃ u, exec (.sdWindowComplete l c j sum edge loop) s = .next u ∧ u.get (SD_CLKF l.idx c) = 1 ∧ u.get (FC_STATUS_SDCLK_OK c l.idx) = 0 ∧
          s.only u (timeFields ++ [SD_CLKF l.idx c, SD_FLT_AT l.idx c, FC_STATUS_SDCLK_OK c l.idx]))) ∧
    (s.on (SD_CLKF l.idx c) = false → calm →
      ∃ u, exec (.sdClockFault l c 0) s = .next u ∧ u.get (SD_CLKF l.idx c) = 1 ∧ u.get (FC_STATUS_SDCLK_OK c l.idx) = 0 ∧ u.get (FC_LOOPD_L c l.idx) = 255 ∧
        s.only u (timeFields ++ [SD_CLKF l.idx c, SD_FLT_AT l.idx c, FC_STATUS_SDCLK_OK c l.idx, FC_LOOPD_L c l.idx])) ∧
    (s.on (SD_CLKF l.idx c) = true → calm → j + 1 < 2 ^ 64 →
      max s.now (s.sdClearAt l c j) < s.get SDCLK_T0 + s.sdDiv c * (j * 2 ^ m) + 250 →
      ∃ u, exec (.sdClockRestored l c j) s = .next u ∧ u.get (SD_CLKF l.idx c) = 0 ∧ u.get (FC_STATUS_SDCLK_OK c l.idx) = 1 ∧ u.get (SD_SKIP l.idx c) = j + 1 ∧
        s.only u (timeFields ++ [SD_CLKF l.idx c, FC_STATUS_SDCLK_OK c l.idx, SD_SKIP l.idx c, SD_WIN l.idx c, SD_WIN2 l.idx c, SD_WIN3 l.idx c]))

/-- An edge of phase B whose level before it held for MINPW grains leaves the phase and counts nothing; such a rising edge of A
counts up or down by its direction, keeps the time before and its own, and ends a standstill; one out of order is marked as a
phase error besides. A shorter pulse is no edge. No edge for STILL ms is a standstill. A
bank's fault clears its supply bit and begins its handling; its restoration sets it and restarts the inputs. -/
def Obligations.SpeedAndSupplies : Prop :=
  (∀ (s : State) (l : Lane) (c : Nat) (e : SpeedEdge), s.powered = true → c < 64 → s.get (FC_CFG_MODE c) = 4 → s.bankFault c = false →
    (s.pulseHeld l c e = false → exec (.speedEdgeAccepted l c e) s = .next s) ∧
    (s.get (FC_CFG_SPMODE c) < 2 → e.phaseA = false → s.pulseHeld l c e = true →
      ∃ u, exec (.speedEdgeAccepted l c e) s = .next u ∧ u.get (SPD_LASTPH l.idx c) = 2 ∧ u.get (SPD_EDGE l.idx c 1) = (e.at_ + 1) % 2 ^ (SPD_EDGE l.idx c 1).w ∧
        u.on (FC_STATUS_PINA c l.idx) = e.other ∧ u.on (FC_STATUS_PINB c l.idx) = e.rising ∧ (s.phaseError l c e = true → u.get (SPD_PHASE l.idx c) = 1) ∧
        s.only u (timeFields ++ [SPD_LASTPH l.idx c, SPD_LASTDIR l.idx c, SPD_EDGE l.idx c 1, FC_STATUS_PINA c l.idx, FC_STATUS_PINB c l.idx] ++
          if s.phaseError l c e then [SPD_PHASE l.idx c] else [])) ∧
    (s.get (FC_CFG_SPMODE c) < 3 → e.phaseA = true → e.rising = true → s.pulseHeld l c e = true →
      ∃ u, exec (.speedEdgeAccepted l c e) s = .next u ∧ u.get (SPD_LASTPH l.idx c) = 1 ∧ u.get (SPD_STILL l.idx c) = 0 ∧
        u.get (SPD_CNT l.idx c) = (s.get (SPD_CNT l.idx c) + (if s.edgeDir l c e = 1 then 1 else 2 ^ 32 - 1)) % 2 ^ 32 ∧
        u.get (SPD_LAST l.idx c) = (e.at_ + 1) % 2 ^ (SPD_LAST l.idx c).w ∧ (s.phaseError l c e = true → u.get (SPD_PHASE l.idx c) = 1) ∧
        s.only u (timeFields ++ [SPD_CNT l.idx c, SPD_DIR l.idx c, SPD_PREV l.idx c, SPD_LAST l.idx c, SPD_ONE l.idx c, SPD_STILL l.idx c, SPD_LASTPH l.idx c,
          SPD_LASTDIR l.idx c, SPD_EDGE l.idx c 0, FC_STATUS_PINA c l.idx, FC_STATUS_PINB c l.idx] ++ if s.phaseError l c e then [SPD_PHASE l.idx c] else [])) ∧
    (s.on (SPD_STILL l.idx c) = false →
      ∃ u, exec (.standstill l c) s = .next u ∧ u.get (SPD_STILL l.idx c) = 1 ∧ s.only u (timeFields ++ [SPD_STILL l.idx c]))) ∧
  (∀ (s : State) (b : Nat), s.powered = true → b < 2 →
    (s.on (BANKF b) = false → (∀ c, c < 64 → c / 32 = b → s.get (FC_CFG_MODE c) = 0) → (∀ g, g < 16 → s.grpOn g = false) →
      ∃ u, exec (.bankSupplyFault b) s = .next u ∧ u.get (BANKF b) = 1 ∧ u.get (GLB_SUPPLY_BANK_OK b) = 0 ∧ u.get (BANK_AT b) = s.now % 2 ^ 64 ∧
        (∀ c, c < 64 → c / 32 = b → u.get (FC_STATUS_BANK_OK c) = 0) ∧
        s.onlyAndEvents u ([BANKF b, BANK_AT b, GLB_SUPPLY_BANK_OK b] ++ ((List.range 64).filter fun c => c / 32 = b).map FC_STATUS_BANK_OK)) ∧
    (s.on (BANKF b) = true →
      ∃ u, exec (.bankSupplyRestored b) s = .next u ∧ u.get (BANKF b) = 0 ∧ u.get (GLB_SUPPLY_BANK_OK b) = 1 ∧
        ∀ c, c < 64 → c / 32 = b → u.get (FC_STATUS_BANK_OK c) = 1))

/-- A test that falls due, PER seconds after it last passed, is marked. At its instant a pulse starts unless a lane holds, which only cancels the start;
a dark pulse takes the released lanes in the vote, a bright one the applied ones, and opens the window; the pulse ends with each
pulsing lane back in the state it came from. A window in which every one of two or three
lanes saw the pulse is a pass: age 0, no longer due, result 1, counted. A reset request that R192 refuses leaves
its reason and the outcome REFUSED; an accepted one is pending for each group of its mask. -/
def Obligations.BrakeTests : Prop :=
  (∀ (s : State) (g : Nat), s.powered = true → g < 16 →
    (s.grpOn g = true → s.on (BRK_DARK_EN g) = true → 1000 * s.get (BRK_DARK_PER g) ≤ s.testAge g true →
      ∃ u, exec (.testDue g true) s = .next u ∧ u.get (BRK_STAT_DARKDUE g) = 1 ∧ s.only u [BRK_STAT_DARKDUE g]) ∧
    (s.grpOn g = true → s.on (BRK_BRIGHT_EN g) = true → 1000 * s.get (BRK_BRIGHT_PER g) ≤ s.testAge g false →
      ∃ u, exec (.testDue g false) s = .next u ∧ u.get (BRK_STAT_BRIGHTDUE g) = 1 ∧ s.only u [BRK_STAT_BRIGHTDUE g]) ∧
    (s.get (TEST_GO g) = 1 → s.blk 4 = false →
      ((s.unheld g = false ∨ s.safe = true) → exec (.darkTest g) s = .next (s.set (TEST_GO g) 0)) ∧
      (s.unheld g = true → s.safe = false → exec (.darkTest g) s = .next ((s.startPulse g 1 .released .dark).set (DARK_FORCE g) 0)) ∧
      (s.holders g = [] → s.safe = false → s.get (BRK_CFG_OUTCH g) < 64 →
        ∃ u, exec (.darkTest g) s = .next u ∧ u.get (PULSE g) = 1 ∧ u.get (WIN g) = 1 ∧ u.get (TEST_GO g) = 0 ∧ u.get (DARK_FORCE g) = 0 ∧
          ∀ l : Lane, u.grp g l = if s.voting l = true ∧ s.grp g l = .released then .dark else s.grp g l)) ∧
    (s.get (TEST_GO g) = 2 → s.blk 4 = false → s.on (AGREE (s.get (BRK_CFG_TASK g))) = false →
      ((s.unheld g = false ∨ s.safe = true) → exec (.brightTest g) s = .next (s.set (TEST_GO g) 0)) ∧
      (s.unheld g = true → s.safe = false → exec (.brightTest g) s = .next (s.startPulse g 2 .applied .bright)) ∧
      (s.holders g = [] → s.safe = false → s.get (BRK_CFG_OUTCH g) < 64 →
        ∃ u, exec (.brightTest g) s = .next u ∧ u.get (PULSE g) = 2 ∧ u.get (WIN g) = 2 ∧ u.get (TEST_GO g) = 0 ∧
          ∀ l : Lane, u.grp g l = if s.voting l = true ∧ s.grp g l = .applied then .bright else s.grp g l)) ∧
    (s.on (PULSE g) = true → s.get (BRK_CFG_OUTCH g) < 64 →
      ∃ u, exec (.pulseEnd g) s = .next u ∧ u.get (PULSE g) = 0 ∧ ∀ l : Lane, u.grp g l = if s.grp g l = .dark then .released else if s.grp g l = .bright then .applied else s.grp g l) ∧
    (s.get (WIN g) = 1 → s.get (BRK_CFG_OUTCH g) < 64 → (∀ l : Lane, s.inVote l = true → s.on (SEEN l.idx g) = true) →
      ∃ u, exec (.testWindowEnd g) s = .next u ∧ u.get (WIN g) = 0 ∧ u.get (BRK_DARKAGE_AGE g) = 0 ∧ u.get (BRK_STAT_DARKDUE g) = 0 ∧
        u.get (BRK_STAT_DARKRES g) = 1 ∧
        (s.on (PULSE g) = false → s.only u (timeFields ++ [WIN g, BRK_DARKAGE_AGE g, BRK_STAT_DARKDUE g, BRK_STAT_DARKRES g, BRK_TCNT_DARK_PASS g])))) ∧
  (∀ (s : State) (m : Nat), s.powered = true → m < 65536 →
    (s.resetRefusal m ≠ 0 → ∃ u, exec (.maintenanceReset m) s = .next u ∧ u.get BRK_MRSTAT_REASON = s.resetRefusal m ∧ u.get BRK_MRSTAT_OUTCOME = 3 ∧
      s.onlyAndEvents u [BRK_MRST_GROUPS, BRK_MRSTAT_REASON, BRK_MRSTAT_GROUPS, BRK_MRSTAT_OUTCOME]) ∧
    (s.resetRefusal m = 0 → ∃ u, exec (.maintenanceReset m) s = .next u ∧ u.get BRK_MRSTAT_OUTCOME = 1 ∧
      ∀ g, g < 16 → (m.testBit g = true → u.get (RST_PEND g) = 1) ∧ (m.testBit g = false → u.get (RST_PEND g) = s.get (RST_PEND g))))

/-- The next action instant of a task at or after a network time is T = F x F_g + OFFSET with F mod k equal to PHASE,
and lies less than one task period after that time or at the first furlong of that phase; k = KPER + 1 divides the
furlongs between two instants. -/
def Obligations.ActionInstantGrid : Prop :=
  ∀ (s : State) (t from_ : Nat), 0 < s.furlongGrains → s.get (TSK_OFFSET_PHASE t) ≤ s.get (TSK_CFG_KPER t) →
    let k := s.get (TSK_CFG_KPER t) + 1
    let o := s.get (TSK_OFFSET_OFFSET t)
    ∃ f : Nat, s.instantFrom t from_ = f * s.furlongGrains + o ∧ f % k = s.get (TSK_OFFSET_PHASE t) ∧ from_ ≤ f * s.furlongGrains + o ∧
      (k ≤ f → (f - k) * s.furlongGrains + o < from_)

/-- A poll that changes nothing in a port's standing shows link and speed alone; so does a control word. An MDIO
command stores its fields, and starts an access where none is pending, which keeps the direction it started with; the access ends
done with a read's data, or without a response. -/
def Obligations.PhyPortsAndMdio : Prop :=
  (∀ (s : State) (p : Nat) (a : Option (BitVec 16)) (full : Bool), s.powered = true → p < 4 → s.on PHYRST = true → s.on (TN_CFG_EN (p / 2)) = true →
    s.get TN_MDIOSTAT_OUTCOME ≠ 1 →
    let link := match a with
      | some v => v.getLsbD 2
      | none => false
    (link && full) = s.on (TN_PORT_LINK p) →
    ∃ u, exec (.phyPoll p a full) s = .next u ∧ u.on (PHY_LINK p) = link ∧ u.on (PHY_SPEED p) = full ∧ u.on (TN_PORT_LINK p) = (link && full) ∧
      s.only u [PHY_LINK p, PHY_SPEED p, TN_PORT_LINK p]) ∧
  (∀ (s : State) (p : Nat) (sync gig : Bool), s.powered = true → p < 4 → sync = s.on (TN_PORT_SYNC p) → (s.on (PHY_LINK p) && gig) = s.on (TN_PORT_LINK p) →
    ∃ u, exec (.codeGroupSynchronisation p sync gig) s = .next u ∧ u.on (TN_PORT_SYNC p) = sync ∧ u.on (PHY_SPEED p) = gig ∧
      s.only u [TN_PORT_SYNC p, PHY_SPEED p, TN_PORT_LINK p]) ∧
  (∀ (s : State) (phy reg : Nat) (v : BitVec 16), s.powered = true → phy < 32 → reg < 32 →
    ∃ x y, exec (.mdioRead phy reg) s = .next x ∧ exec (.mdioWrite phy reg v) s = .next y ∧
      x.get TN_MDIOSTAT_OUTCOME = 1 ∧ y.get TN_MDIOSTAT_OUTCOME = 1 ∧ x.get TN_MDIOCMD_WRITE = 0 ∧ y.get TN_MDIOCMD_WRITE = 1 ∧
      x.get TN_MDIOCMD_PHY = phy ∧ y.get TN_MDIOCMD_PHY = phy ∧ x.get TN_MDIOCMD_REG = reg ∧ y.get TN_MDIOCMD_REG = reg ∧ y.get TN_MDIOCMD_DATA = v.toNat ∧
      x.get MDIO_WRITE = (if s.get TN_MDIOSTAT_OUTCOME = 1 then s.get MDIO_WRITE else 0) ∧
      y.get MDIO_WRITE = (if s.get TN_MDIOSTAT_OUTCOME = 1 then s.get MDIO_WRITE else 1) ∧
      s.only x [TN_MDIOCMD_DATA, TN_MDIOCMD_REG, TN_MDIOCMD_PHY, TN_MDIOCMD_WRITE, TN_MDIOSTAT_OUTCOME, MDIO_WRITE] ∧
      s.only y [TN_MDIOCMD_DATA, TN_MDIOCMD_REG, TN_MDIOCMD_PHY, TN_MDIOCMD_WRITE, TN_MDIOSTAT_OUTCOME, MDIO_WRITE]) ∧
  (∀ (s : State), s.powered = true → s.get TN_MDIOSTAT_OUTCOME = 1 →
    (∃ u, exec (.mdioAccessDone none) s = .next u ∧ u.get TN_MDIOSTAT_OUTCOME = 3 ∧ s.only u [TN_MDIOSTAT_OUTCOME]) ∧
    (∀ v : BitVec 16, ∃ u, exec (.mdioAccessDone (some v)) s = .next u ∧ u.get TN_MDIOSTAT_OUTCOME = 2 ∧
      u.get TN_MDIOSTAT_DATA = (if s.on MDIO_WRITE then s.get TN_MDIOSTAT_DATA else v.toNat) ∧ s.only u [TN_MDIOSTAT_DATA, TN_MDIOSTAT_OUTCOME]))

/-- A request leaves every 16 us with the next number; a partner's valid request is answered with the times t2 and t3;
a valid response to the last request within 16 us is one exchange value, doubled round trip less the partner's
turn, until there are sixteen; another response has no effect; a failed measurement starts again after its 100 ms. -/
def Obligations.DelayMeasurement : Prop :=
  ∀ (s : State) (p : Nat), s.powered = true → p < 4 → s.portUp p = true →
    (∀ n, s.on (DLY_ON p) = true → s.get (DLY_REQ p) = n → n < 64 → s.get (DLY_AT p) < 2 ^ 64 →
      ∃ u, exec (.sendDelayRequest p) s = .next u ∧ u.now = max s.now (s.get (DLY_AT p)) ∧ u.get (DLY_REQ p) = n + 1 ∧
        u.get (DLY_AT p) = (u.now + 4000) % 2 ^ (DLY_AT p).w ∧ u.lastTx = Sparse.set s.lastTx p none (some (s.delayFrame p 1 n 0 0)) ∧
        s.only { u with lastTx := s.lastTx } (timeFields ++ [DLY_REQ p, DLY_T1 p, DLY_AT p])) ∧
    (∀ (fr : NetFrame) (sfd : Nat), s.delayValid fr 1 = true → sealOk (frPayload fr) = true →
      exec (.delayRequest p fr sfd) s =
        .next (s.transmit p (s.delayFrame p 2 ((frPayload fr).getD 1 0).toNat (sfd % 2 ^ 32) (s.now % 2 ^ 32))) ∧
      ∃ u f, exec (.delayRequest p fr sfd) s = .next u ∧ Sparse.get u.lastTx p none = some f ∧ f.etype = s.get TN_CFG_ETYPE ∧
        slice f.data 16 10 = [2#8, (frPayload fr).getD 1 0] ++ beBytes 4 (sfd % 2 ^ 32) ++ beBytes 4 (s.now % 2 ^ 32) ∧
        s.only { u with lastTx := s.lastTx } []) ∧
    (∀ (fr : NetFrame) (sfd t1 n : Nat), s.delayValid fr 2 = true → sealOk (frPayload fr) = true → s.on (DLY_ON p) = true →
      s.get (DLY_T1 p) = t1 + 1 → s.get (DLY_N p) = n → n < 15 → ofBe (slice (frPayload fr) 12 2) = s.get TN_SCHEDID_ID →
      (((frPayload fr).getD 1 0).toNat + 1 ≠ s.get (DLY_REQ p) → exec (.delayResponse p fr sfd) s = .next s) ∧
      (((frPayload fr).getD 1 0).toNat + 1 = s.get (DLY_REQ p) → sfd ≤ t1 + 4000 →
        ∃ u, exec (.delayResponse p fr sfd) s = .next u ∧ u.get (DLY_N p) = n + 1 ∧ u.get (DLY_T1 p) = 0 ∧
          u.get (DLY_X p n) = unsigned 40 ((sfd : Int) - t1 - unsigned 32 ((ofBe (slice (frPayload fr) 6 4) : Int) - ofBe (slice (frPayload fr) 2 4))) ∧
          s.only u [DLY_X p n, DLY_N p, DLY_T1 p])) ∧
    (s.on (DLY_ON p) = false → s.used p = false → s.on (DLY_AT p) = true → s.get (DLY_REQ p) = 64 →
      ∃ u, exec (.delayMeasurementRetry p) s = .next u ∧ u.get (DLY_ON p) = 1 ∧ u.get (DLY_REQ p) = 0 ∧ u.get (DLY_N p) = 0 ∧
        s.only u (timeFields ++ [DLY_ON p, DLY_REQ p, DLY_N p]))

/-- A SEND rod with something against it (the state, the window, the port, the safe state, no data) is missed with
that reason at its start, and counted; with nothing against it, a frame with the newest data that became ready in time leaves on
each of the rod's ports in use. A SYNC or STATUS rod of this node sends its frame on the rod's ports when the window is
open and the state admits it, and nothing otherwise; in an OPEN rod the one host frame queued leaves on the rod's ports in use where
its whole wire time ends before the rod's end less ACCEPT, and else stays queued. -/
def Obligations.RodsSent : Prop :=
  ∀ (s : State) (ch i : Nat), s.powered = true → ch < 2 → i < 1024 → s.on (TN_CFG_EN ch) = true → s.on (ROD_SKIP (rodKey s.bank ch i)) = false →
    let r := s.rod s.bank ch i
    let due := s.nextStart r.start
    let u := s.elapseNet due
    let c := if r.paired then 2 else ch
    r.crcOk = true →
    (∀ why, r.kind = 1 → s.on (FCTX_SKIP r.flow) = false → s.ctxFit r.flow = true → u.missReason ch due r = some why →
      exec (.sendRod ch i) s = .next (u.missed r.flow why) ∧
      ∃ v, exec (.sendRod ch i) s = .next v ∧ v.get (FL_MISS r.flow) = s.counted (FL_MISS r.flow) ∧ v.get TN_EVT_MISSED = 1 ∧ v.lastTx = s.lastTx) ∧
    (r.kind = 1 → s.on (FCTX_SKIP r.flow) = false → s.ctxFit r.flow = true → u.missReason ch due r = none → u.sendPick r.flow = some 0 →
      s.get (SND_LASTF r.flow) ≠ u.furlong + 1 → (s.flow r.flow).len ≤ 1984 →
      ∃ v, exec (.sendRod ch i) s = .next v ∧ v.get (SND_LASTF r.flow) = (u.furlong + 1) % 2 ^ (SND_LASTF r.flow).w ∧
        ∀ p ∈ u.txPorts ch r, ∃ f, Sparse.get v.lastTx p none = some f ∧ f.etype = s.get TN_CFG_ETYPE ∧
          slice f.data 16 (s.flow r.flow).len = s.bytes (sendBuf r.flow 0) (s.flow r.flow).len) ∧
    (r.kind = 4 → r.sender = s.get TN_CFG_NODE → s.on TN_SYNCCFG_SYNC_CAP = true →
      (u.windowOpen due = false → exec (.syncRodSend ch i) s = .next u) ∧
      (u.windowOpen due = true → u.inSync = true → exec (.syncRodSend ch i) s = .next ((u.txPorts ch r).foldl
        (fun x p => x.transmit p (u.frame (u.header 1 c 0 false false u.furlong i 0 16 ++ u.syncPayload r.start))) u) ∧
        ∃ v, exec (.syncRodSend ch i) s = .next v ∧ s.only { v with lastTx := s.lastTx } timeFields ∧ ∀ p ∈ u.txPorts ch r, ∃ f,
          Sparse.get v.lastTx p none = some f ∧ f.etype = s.get TN_CFG_ETYPE ∧ slice f.data 18 4 = beBytes 4 r.start)) ∧
    (r.kind = 6 → r.sender = s.get TN_CFG_NODE →
      (u.inSync = false → exec (.statusRodSend ch i) s = .next u) ∧
      (u.windowOpen due = true → u.inSync = true → exec (.statusRodSend ch i) s = .next ((u.txPorts ch r).foldl
        (fun x p => x.transmit p (u.frame (u.header 4 c 0 false false u.furlong i 0 16 ++ u.statusPayload))) u) ∧
        ∃ v, exec (.statusRodSend ch i) s = .next v ∧ s.only { v with lastTx := s.lastTx } timeFields ∧ ∀ p ∈ u.txPorts ch r, ∃ f,
          Sparse.get v.lastTx p none = some f ∧ f.etype = s.get TN_CFG_ETYPE ∧ slice f.data 16 2 = beBytes 2 s.lnStatus)) ∧
    (∀ f : NetFrame, r.kind = 5 → s.inSync = true → u.openRodNow ch = some (i, r) → s.openTx = [(ch, f)] → u.txPorts ch r ≠ [] →
      (∀ p ∈ u.txPorts ch r, s.get (OPEN_END p) ≤ u.netTime) →
      let stop := u.furlong * s.furlongGrains + r.start + r.len - s.get TN_WIN_ACCEPT
      (u.netTime + 2 * (38 + max 46 f.data.length) ≤ stop →
        ∃ v, exec (.openRod ch i) s = .next v ∧ v.openTx = [] ∧ v.get (TN_OPENSTAT_TXQ ch) = 0 ∧
          ∀ p ∈ u.txPorts ch r, Sparse.get v.lastTx p none = some f) ∧
      (stop < u.netTime + 2 * (38 + max 46 f.data.length) →
        ∃ v, exec (.openRod ch i) s = .next v ∧ v.openTx = s.openTx ∧ v.lastTx = s.lastTx ∧
          s.only v (timeFields ++ [TN_OPENSTAT_TXQ 0, TN_OPENSTAT_TXQ 1])))

/-- While a node is in no state that takes them, data and STATUS frames have no effect, and SYNC frames none without a
configured network. A scheduled data frame that no rod's window takes is judged against the nearest rod of its
sender; in a rod whose check fails the frame is not accepted; one of a non-safety flow that passes every check is the flow's held
copy, with its sender age. A SYNC frame that passes every check in its rod is measured in each lane whose offset lies within SWIN,
and gives a listening node its time, which integrates; so does the first COLDSTART of an attempt; a COLDSTART with a bad FCS is only traffic to a node
that is not coldstarting; an OPEN frame outside every OPEN rod has no effect; a frame that no forwarding rod takes
is not forwarded, and one that it takes leaves on the channel's other port; a WAKE frame has no effect on an unpowered node that is not asleep and, awake, in an OPEN rod. -/
def Obligations.FramesReceived : Prop :=
  ∀ (s : State) (p : Nat) (fr : NetFrame) (sfd : Nat), s.powered = true → p < 4 → s.used p = true →
    let h := frHdr fr
    (fr.etype = s.get TN_CFG_ETYPE →
      (h.crcOk = true → (h.kind = 0 ∨ 5 ≤ h.kind) → s.inSync = true →
        (s.rodAt p (s.arrival sfd) (s.get TN_WIN_ACCEPT) fun r => r.kind != 5) = none → exec (.dataFrame p fr sfd) s = .next (s.noRod p sfd fr (s.arrival sfd))) ∧
      (h.crcOk = true → (h.kind = 0 ∨ 5 ≤ h.kind) → s.inSync = true → ∀ i r o f,
        (s.rodAt p (s.arrival sfd) (s.get TN_WIN_ACCEPT) fun r => r.kind != 5) = some (i, r, o, f) →
        let v := s.elapseNet (s.frameEnd r p f)
        ((v.rodFrame p sfd i r f fr).2 = false → exec (.dataFrame p fr sfd) s = .next (v.rodFrame p sfd i r f fr).1) ∧
        (r.kind = 2 → r.rx p = true → r.crcOk = true → s.ctxFit r.flow = true → fr.fcsOk = true → s.headerFault h r p f = none → (s.flow r.flow).safety = false →
          h.age ≤ (s.flow r.flow).freshLim → s.get (FL_ACC r.flow) ≠ f.toNat + 1 → (s.flow r.flow).len ≤ 1984 →
          ∃ x, exec (.dataFrame p fr sfd) s = .next x ∧ x.bytes (flowBuf r.flow) (frPayload fr).length = frPayload fr ∧ x.get (FL_SAGE r.flow) = h.age ∧
            x.get (FL_ACC r.flow) = (f.toNat + 1) % 2 ^ (FL_ACC r.flow).w)) ∧
      (h.crcOk = true → h.kind = 1 → (frPayload fr).getD 0 0 = 0 →
        (s.get TN_SYNCST_STATE = 0 → exec (.syncFrame p fr sfd) s = .next s) ∧
        (s.listens = true → fr.fcsOk = true → exec (.syncFrame p fr sfd) s = .next (s.syncWhileListening p fr sfd)) ∧
        (s.inSync = true → exec (.syncFrame p fr sfd) s = .next (s.syncInRod p fr sfd)) ∧
        (∀ r, s.listens = true → fr.fcsOk = true → s.syncEntry p h.sender (ofBe (slice (frPayload fr) 2 4) % 2 ^ 25) = some r →
          h.mismatch r 1 (p / 2) 0 (some false) (decide (h.plen = 16)) h.furlong = none → s.syncFault (frPayload fr) r.start (r.hop p) = none →
          ∃ x, exec (.syncFrame p fr sfd) s = .next x ∧ x.get TN_SYNCST_STATE = 3 ∧ x.get TN_SYNCST_ADOPT_NODE = h.sender ∧ ∀ l : Lane, x.get (TNET l.idx) =
            ((h.furlong * s.furlongGrains + s.expected r p - signed 32 (ofBe (slice (frPayload fr) 6 4)) + ((s.now : Int) - sfd)).toNat) % 2 ^ 64) ∧
        (∀ i r o f, s.inSync = true → fr.fcsOk = true → s.rodAt p (s.arrival sfd) (s.get TN_SYNCCFG_SWIN) (fun r => r.kind == 4 && r.sender == h.sender && r.rx p) =
          some (i, r, o, f) → r.crcOk = true → s.headerFault h r p f = none → s.syncFault (frPayload fr) r.start (r.hop p) = none →
          ∃ x, exec (.syncFrame p fr sfd) s = .next x ∧ ∀ l : Lane, (s.offset r p (s.arrivalIn l sfd)).1.natAbs ≤ s.get TN_SYNCCFG_SWIN →
            s.on (MEAS l.idx h.sender) = false → x.get (MEAS l.idx h.sender) = 1 ∧ x.get (MEAS_M l.idx h.sender) =
              unsigned 32 ((s.offset r p (s.arrivalIn l sfd)).1 + signed 32 (ofBe (slice (frPayload fr) 6 4))))) ∧
      (h.crcOk = true → h.kind = 2 →
        (fr.fcsOk = false → s.get TN_SYNCST_STATE ≠ 2 → exec (.coldstartFrame p fr sfd) s = .next s.heard) ∧
        (fr.fcsOk = true → h.coldOk = true → s.coldFault (frPayload fr) = none → exec (.coldstartFrame p fr sfd) s = .next (s.coldFrame p fr sfd)) ∧
        (fr.fcsOk = true → h.coldOk = true → s.coldFault (frPayload fr) = none → s.listens = true → h.sender ≠ s.get TN_CFG_NODE →
          s.coldFirst h.sender ((frPayload fr).getD 0 0).toNat sfd = true →
          ∃ x, exec (.coldstartFrame p fr sfd) s = .next x ∧ x.get TN_SYNCST_STATE = 3 ∧ x.get TN_SYNCST_ADOPT_NODE = h.sender ∧ x.get TN_SYNCST_ADOPT_SRC = 1 ∧
            x.get (COLD_AT h.sender) = (sfd + 1) % 2 ^ (COLD_AT h.sender).w)) ∧
      (h.crcOk = true → h.kind = 4 →
        (s.listens = true → exec (.statusFrame p fr sfd) s = .next s.heard) ∧
        (s.inSync = true → (s.rodAt p (s.arrival sfd) (s.get TN_WIN_ACCEPT) fun r => r.kind != 5) = none → exec (.statusFrame p fr sfd) s = .next (s.noRod p sfd fr (s.arrival sfd)))) ∧
      (h.kind = 3 → s.inSync = true → (s.inOpenRod p (s.arrival sfd)).isSome = true → exec (.wakeFrame p fr sfd) s = .next s) ∧
      (let q := if p % 2 = 0 then p + 1 else p - 1
       (s.rodAt p (s.arrival sfd) (s.get TN_WIN_ACCEPT) (fun r => r.tx q && r.kind != 5) = none → exec (.forward p fr sfd) s = .next s) ∧
       (∀ i r o f, s.rodAt p (s.arrival sfd) (s.get TN_WIN_ACCEPT) (fun r => r.tx q && r.kind != 5) = some (i, r, o, f) → r.crcOk = true →
        (r.kind = 6 ∨ ((r.kind = 2 ∨ r.kind = 3) ∧ s.ctxFit r.flow = true)) → s.inSync = true → s.used q = true → s.headerFault h r p f = none → h.crcOk = true →
        let due := (f * s.furlongGrains).toNat + r.start + r.hop p * 250
        (s.elapseNet due).windowOpen due = true →
        ∃ x, exec (.forward p fr sfd) s = .next x ∧ Sparse.get x.lastTx q none = some fr))) ∧
    (fr.etype ≠ s.get TN_CFG_ETYPE → fr.fcsOk = true → s.inSync = true →
      (s.inOpenRod p (s.arrival sfd) = none → exec (.openFrame p fr sfd) s = .next s) ∧
      (∀ i r, s.inOpenRod p (s.arrival sfd) = some (i, r) → r.crcOk = true → fr.dst = s.macOf (s.get TN_CFG_NODE) → openBytes fr ≤ 1522 →
        held (s.openRx.map fun q => (q.1 / 2, q.2)) (p / 2) + openBytes fr ≤ 32768 →
        exec (.openFrame p fr sfd) s = .next { s with openRx := s.openRx ++ [(p, fr)] }))

/-- At the end of a flow's last rod the receive age becomes 0 when the flow was accepted in this furlong, else it
grows with the missed count, once in the furlong. The correction of a furlong that all three lanes measured alike is its midpoint's;
one without any measurement has correction 0 at the rate in force and counts as missed. At a boundary the lanes' times are compared,
the correction taken, a bank switched and the synchronisation judged, in this order; a pending switch whose furlong has come takes
the target bank. When the listen timer of a node that cannot coldstart expires it starts again; one that can sends COLDSTART on
every port in use of an enabled channel and its time begins at 0. A capture holds network time, the free count and the furlong
number of one grain; loss of lock is flagged and counted. -/
def Obligations.ReceiveAgesAndSync : Prop :=
  (∀ (s : State) (ch i : Nat), s.powered = true → ch < 2 → i < 1024 → s.on (TN_CFG_EN ch) = true →
    let fur := s.endFurlong ch i
    let r := s.rod (s.bankAt fur) ch i
    let u := s.elapseNet (fur * s.furlongGrains + (s.rodEnd ch r).toNat)
    r.kind = 2 → s.rodEnd ch r = s.lastEnd (s.bankAt fur) r.flow →
    (s.get (FL_ENDF r.flow) = fur + 1 → exec (.rodEnd ch i) s = .next s) ∧
    (s.get (FL_ENDF r.flow) ≠ fur + 1 → exec (.rodEnd ch i) s = .next (u.flowEnd r.flow fur) ∧
      let age := if s.get (FL_ACC r.flow) = fur + 1 then 0 else min (s.get (FL_AGE r.flow) + 1) 255
      ∃ v, exec (.rodEnd ch i) s = .next v ∧ v.get (FL_AGE r.flow) = age ∧ v.on (FL_STALE r.flow) = decide ((s.flow r.flow).ageLim < age) ∧
        v.get (FL_MISS r.flow) = (if s.get (FL_ACC r.flow) = fur + 1 then s.get (FL_MISS r.flow) else s.counted (FL_MISS r.flow)))) ∧
  (∀ s : State, s.powered = true → s.inSync = true → s.get CORR_F ≠ s.furlong + 1 →
    ((∀ l : Lane, s.inVote l = true → s.correction l = none) → min (s.get SYNC_MISSED + 1) 255 < s.get TN_SYNCCFG_MISS_LIM →
      ∃ u, exec .syncCorrection s = .next u ∧ u.get CORR_ON = 1 ∧ u.get CORR_C = 0 ∧ u.get CORR_R = s.get TN_RATE_RATE % 2 ^ 32 ∧ u.get INTEG_OK = 0 ∧
        u.get SYNC_MISSED = min (s.get SYNC_MISSED + 1) 255 ∧ u.get TN_SYNCST_STATE = 4) ∧
    (∀ m c r : Int, (∀ l : Lane, s.inVote l = true ∧ s.correction l = some (m, c, r)) → m.natAbs ≤ 100 →
      ∃ u, exec .syncCorrection s = .next u ∧ u.get CORR_ON = 1 ∧ u.get CORR_C = unsigned 64 c ∧ u.get CORR_R = unsigned 32 r ∧ u.get SYNC_MISSED = 0 ∧
        u.on INTEG_OK = decide (m.natAbs ≤ 20) ∧ u.get TN_SYNCST_STATE = 4)) ∧
  (∀ s : State, s.powered = true →
    let e := s.elapseNet ((s.get BND_F + 1) * s.furlongGrains)
    let u := (e.set BND_F e.furlong).compareTimes.applyCorrection
    let v := if u.on ROD_RELOAD then u.reloadRods.set ROD_RELOAD 0 else u
    exec .furlongBoundary s = .next v.bankSwitch.syncAtBoundary.groupBoundary.leaseBoundary ∧
    (s.get TN_SYNCST_STATE = 4 → s.on COLD_ME = false → s.on CORR_ON = false → s.on ROD_RELOAD = false → s.on GRP_CFG_EN = false → s.get TW_STAT_ROLE = 0 →
      (∀ l : Lane, s.inVote l = true ∧ s.get (TNET l.idx) = s.netTime) →
      (s.on TN_BANK_PENDING = false → ∃ x, exec .furlongBoundary s = .next x ∧ x.get BND_F = e.furlong % 2 ^ BND_F.w ∧ s.only x (timeFields ++ [BND_F])) ∧
      (s.on TN_BANK_PENDING = true → s.get TN_BANK_TARGET < 2 → (e.furlong + 2 ^ 32 - s.get TN_SWF_F_SW) % 2 ^ 32 < 2 ^ 31 →
        ∃ x, exec .furlongBoundary s = .next x ∧ x.get TN_BANK_ACTIVE = s.get TN_BANK_TARGET ∧ x.get TN_BANK_PENDING = 0 ∧ x.get TN_EVT_SWITCH = 1))) ∧
  (∀ s : State, s.powered = true → s.listens = true → s.on LISTEN_AT = true →
    (s.on TN_SYNCCFG_COLD_CAP = false →
      ∃ u, exec .listenTimeout s = .next u ∧ u.get LISTEN_AT = (if s.anyUsed then (u.now + 1) % 2 ^ LISTEN_AT.w else 0) ∧ s.only u (timeFields ++ [LISTEN_AT])) ∧
    (∀ n, s.on TN_SYNCCFG_COLD_CAP = true → s.get TN_SYNCST_ATTEMPTS = n → n < 3 →
      ∃ u, exec .listenTimeout s = .next u ∧ u.get TN_SYNCST_STATE = 2 ∧ u.get LISTEN_AT = 0 ∧ (∀ l : Lane, u.get (TNET l.idx) = 0) ∧
        ∀ p ∈ s.usedPorts, s.on (TN_CFG_EN (p / 2)) = true → ∃ f, Sparse.get u.lastTx p none = some f ∧ f.etype = s.get TN_CFG_ETYPE ∧
          slice f.data 16 6 = beBytes 1 (n + 1) ++ beBytes 1 0 ++ beBytes 4 0)) ∧
  (∀ s : State, s.powered = true →
    (∃ u, exec .tbCapture s = .next u ∧ u.get TB_CAP_NET_LO_NET + 2 ^ 32 * u.get TB_CAP_NET_HI_NET = s.netTime % 2 ^ 64 ∧
      u.get TB_CAP_FREE_LO_FREE + 2 ^ 32 * u.get TB_CAP_FREE_HI_FREE = s.now % 2 ^ 64 ∧
      u.get TB_CAP_F_LO_F + 2 ^ 32 * u.get TB_CAP_F_HI_F = s.furlong % 2 ^ 64 ∧ u.get TB_CAP_LANEDEV_VALID = 1 ∧
      s.only u [TB_CAP_NET_LO_NET, TB_CAP_NET_HI_NET, TB_CAP_FREE_LO_FREE, TB_CAP_FREE_HI_FREE, TB_CAP_F_LO_F, TB_CAP_F_HI_F, TB_CAP_LANEDEV_VALID,
        TB_CAP_LANEDEV_L 0, TB_CAP_LANEDEV_L 1, TB_CAP_LANEDEV_L 2]) ∧
    (s.on TB_STATUS_PLL_LOCK = true → ∃ u, exec .pllLostLock s = .next u ∧ u.get TB_STATUS_PLL_LOCK = 0 ∧ u.get TB_EVT_PLL_UNLOCK = 1 ∧
      s.only u [TB_STATUS_PLL_LOCK, TB_EVT_PLL_UNLOCK, TB_EVCNT_PLL_CNT]))

/-- A request begins a burst with the next burst number, or has no effect but the shown reason while one is being
sent; each frame leaves, SPACING us after the one before, on every port in use of a node that is not in sync, with its number in the
burst; the sixteenth ends the burst. In SLEEP a WAKE frame that does
not match has no effect; one that does is noted with its sender, burst and time, until COUNT of them within 20 ms
are a wake by cause 6. -/
def Obligations.WakeBursts : Prop :=
  (∀ (s : State) (p : Nat) (fr : NetFrame) (sfd : Nat), p < 4 → s.get PW_STATE = 2 → (frHdr fr).kind = 3 → fr.etype = s.get TN_CFG_ETYPE →
    (s.matchesWake fr = false → exec (.wakeFrame p fr sfd) s = .next s) ∧
    (s.matchesWake fr = true → s.on TN_WAKECFG_MATCH_EN = true → s.wakeSeen = [] → 1 < s.get TN_WAKECFG_COUNT →
      exec (.wakeFrame p fr sfd) s =
        .next { s with wakeSeen := [((frHdr fr).sender, ((slice fr.data 16 16).getD 9 0).toNat, sfd)] })) ∧
  (∀ (s : State) (reason : Nat), s.powered = true → reason < 65536 →
    (s.on TN_WAKESTAT_SENDING = true → exec (.wakeBurstRequest reason) s = .next (s.set TN_WAKECMD_REASON reason)) ∧
    (s.on TN_WAKESTAT_SENDING = false → ∃ u, exec (.wakeBurstRequest reason) s = .next u ∧ u.get TN_WAKESTAT_SENDING = 1 ∧
      u.get TN_WAKESTAT_SENT_ID = (s.get TN_WAKESTAT_SENT_ID + 1) % 256 ∧ u.get WB_N = 0 ∧ u.get WB_REASON = reason ∧
      s.onlyAndEvents u [TN_WAKECMD_REASON, TN_WAKESTAT_SENDING, TN_WAKESTAT_SENT_ID, WB_N, WB_AT, WB_MASK, WB_REASON])) ∧
  (∀ s : State, s.powered = true → s.on TN_WAKESTAT_SENDING = true →
    (∀ n, s.get WB_N = n → n < 15 → ∃ u, exec .wakeFrameSend s = .next u ∧ u.get WB_N = n + 1 ∧
      u.get WB_AT = (u.now + s.get TN_WAKECFG_SPACING * 250) % 2 ^ WB_AT.w ∧ s.only { u with lastTx := s.lastTx } (timeFields ++ [WB_N, WB_AT])) ∧
    (∀ n, s.get WB_N = n → n < 16 → s.inSync = false → ∃ u, exec .wakeFrameSend s = .next u ∧ ∀ p ∈ s.usedPorts, ∃ f, Sparse.get u.lastTx p none = some f ∧
      f.etype = s.get TN_CFG_ETYPE ∧ slice f.data 24 2 = beBytes 1 n ++ beBytes 1 (s.get TN_WAKESTAT_SENT_ID)) ∧
    (s.get WB_N = 15 → ∃ u, exec .wakeFrameSend s = .next u ∧ u.get TN_WAKESTAT_SENDING = 0))

/-- Selection takes the first pending object in transmit order and its newest data, and nothing else changes. A frame
sent without error ends its request unless newer data wait, lowers the transmit error counter, clears the
collision run, and leaves its timestamp in the object; a frame that loses arbitration keeps its request unless a
withdrawal dropped it, and its collision run, and
CN_STATUS.RX shows the frame that won (log 77). A reception that no object takes is counted and lowers the receive
error counter; one that an object takes is stored there with its timestamp. A remote frame is only counted. A
protocol exception is flagged and the controller integrates into the bus anew; with the exception disabled it is a form error. (Counters below the warning limit; the fields that only show them stay.) -/
def Obligations.CanFrames : Prop :=
  ∀ (s : State) (n : Nat), s.powered = true → n < 4 →
    let calm := s.get (CN_STATUS_STATE n) = 1 ∧ s.get (CN_ERRCNT_TEC n) < 96 ∧ s.get (CN_ERRCNT_REC n) < 96
    let ks := (s.canPending n).filter fun k => !s.on (CO_DIS n k)
    (∀ k, s.canMaySend n = true → s.get (CN_TXOBJ n) = 0 → (∀ j ∈ ks, (s.canObj n j).crcOk = true) → k ∈ ks →
      (∀ j ∈ ks, j ≠ k → (s.canObj n k).rank k < (s.canObj n j).rank j) →
      ∃ u, exec (.transmitSelection n) s = .next u ∧ u.get (CN_TXOBJ n) = k + 1 ∧ u.get (CN_STATUS_TX n) = 1 ∧ u.get (CO_AGAIN n k) = 0 ∧ u.get (CO_DROP n k) = 0 ∧
        u.bytes (canFly n) 64 = s.bytes (canReq n k) 64 ∧
        s.onlyAt u (timeFields ++ [CN_TXOBJ n, CN_STATUS_TX n, CO_AGAIN n k, CO_DROP n k]) [(canFly n, 64)]) ∧
    (∀ k sof, s.get (CN_TXOBJ n) = k + 1 → k < 128 → s.get (CN_CTL_MODE n) ≠ 4 → calm →
      ∃ u, exec (.canTxComplete n sof none) s = .next u ∧ u.get (CN_TXOBJ n) = 0 ∧ u.on (CN_PEND n k) = s.on (CO_AGAIN n k) ∧ u.get (CO_RUN n k) = 0 ∧
        u.get (CN_ERRCNT_TEC n) = s.get (CN_ERRCNT_TEC n) - 1 ∧ u.rd (canMem n k + 0x24) 4 = sof % 2 ^ 32 ∧
        u.descs = (if s.on (CO_AGAIN n k) then s.descs else (s.canAnswer n k stSuccess (sof % 2 ^ 32)).descs) ∧
        s.onlyAt { u with descs := s.descs } [CN_FRCNT_TXOK n, CO_RUN n k, CO_TXAGE n k, CN_ERRCNT_TEC n, CN_TXOBJ n, CN_STATUS_TX n, CN_PEND n k, CO_AGAIN n k, CO_DROP n k,
          CN_ERRCNT_RXPASS n, CN_STATUS_WARN n] [(canMem n k + 0x20, 96)]) ∧
    (∀ k, s.get (CN_TXOBJ n) = k + 1 → k < 128 →
      let keep := s.on (CO_AGAIN n k) || !s.on (CO_DROP n k)
      ∃ u, exec (.arbitrationLost n) s = .next u ∧ u.get (CN_TXOBJ n) = 0 ∧ u.get (CN_STATUS_TX n) = 0 ∧ u.on (CN_PEND n k) = keep ∧
        u.get (CO_AGAIN n k) = 0 ∧ u.get (CO_DROP n k) = 0 ∧ u.descs = (if keep then s.descs else (s.canAnswer n k stAborted 0).descs) ∧
        u.get (CN_STATUS_RX n) = 1 ∧ s.onlyAt { u with descs := s.descs }
          [CN_TXOBJ n, CN_STATUS_TX n, CN_STATUS_RX n, CN_PEND n k, CO_AGAIN n k, CO_DROP n k] [(canMem n k + 0x20, 4)]) ∧
    (∀ (f : CanFrame) (sof : Nat), s.canReceives n = true → (f.data.length ≤ 8 ∨ (f.fdf = true ∧ f.data.length ∈ [12, 16, 20, 24, 32, 48, 64])) → s.get (CN_CTL_MODE n) ≠ 3 → calm →
      ((s.objects n 2).find? (fun k => (s.canObj n k).takes f) = none →
        ∃ u, exec (.canFrameReceived n f sof) s = .next u ∧ u.get (CN_ERRCNT_REC n) = s.get (CN_ERRCNT_REC n) - 1 ∧
          u.get (CN_FRCNT_RXOK n) = min (s.get (CN_FRCNT_RXOK n) + 1) 65535 ∧
          s.only u [CN_FRCNT_RXOK n, CN_STATUS_RX n, CN_ERRCNT_REC n, CN_ERRCNT_RXPASS n, CN_STATUS_WARN n]) ∧
      (∀ k, (s.objects n 2).find? (fun k => (s.canObj n k).takes f) = some k → (s.canObj n k).crcOk = true → s.get (CO_CNT n k) = 0 →
        ∃ u, exec (.canFrameReceived n f sof) s = .next u ∧ u.get (CO_CNT n k) = 1 ∧ u.rd (canMem n k + 0x24) 4 = sof % 2 ^ 32 ∧
          u.bytes (canMem n k + 0x40) f.data.length = f.data ∧
          s.onlyAt u [CN_FRCNT_RXOK n, CN_STATUS_RX n, CN_ERRCNT_REC n, CN_ERRCNT_RXPASS n, CN_STATUS_WARN n, CO_CNT n k, CO_RXT n k, CO_RXT2 n k]
            [(canMem n k + 0x20, 96), (canPrev n k, 80)])) ∧
    (s.canReceives n = true → s.get (CN_CTL_MODE n) ≠ 3 → calm →
      ∃ u, exec (.remoteFrame n) s = .next u ∧ u.get (CN_FRCNT_RXOK n) = min (s.get (CN_FRCNT_RXOK n) + 1) 65535 ∧
        s.only u [CN_FRCNT_RXOK n, CN_STATUS_RX n, CN_ERRCNT_REC n, CN_ERRCNT_RXPASS n, CN_STATUS_WARN n]) ∧
    (∀ id, s.canReceives n = true →
      (s.on (CN_CTL_PEX_OFF n) = true → s.get (CN_CTL_MODE n) ≠ 3 → calm → s.get (CN_ERRCNT_REC n) < 95 →
        ∃ u, exec (.protocolException n id) s = .next u ∧ u.get (CN_STATUS_LASTERR n) = 5 ∧ u.get (CN_ERRCNT_REC n) = s.get (CN_ERRCNT_REC n) + 1 ∧
          u.get (CN_STATUS_RX n) = 0 ∧ s.only u [CN_STATUS_RX n, CN_STATUS_LASTERR n, CN_ERRCNT_REC n, CN_ERRCNT_RXPASS n, CN_STATUS_WARN n]) ∧
      (s.on (CN_CTL_PEX_OFF n) = false → ∃ u, exec (.protocolException n id) s = .next u ∧ u.get (CN_EVT_PEX n) = 1 ∧ u.get (CN_STATUS_RX n) = 0 ∧
        u.get (CN_INTEG n) = (s.now + s.integration n) % 2 ^ (CN_INTEG n).w ∧
        s.onlyAndEvents u [CN_STATUS_RX n, CN_INTEG n, CN_EVT_PEX n, CN_EVCNT_OTHER_CNT n]))

/-- A sending error adds 8 to the transmit error counter and ends the attempt, whose request stays unless it was
dropped; in the data field after arbitration it counts in the collision run, elsewhere it clears it. A receiving
error adds 1 or 8. Above 255 the controller is bus-off. The end of recovery clears both counters and leaves it
error active. A recovery or clear request that does not qualify is refused with its reason; one that does starts
recovery, or clears COLL and STOPPED. -/
def Obligations.CanErrorsAndRequests : Prop :=
  ∀ (s : State) (n : Nat), s.powered = true → n < 4 →
    (∀ e : CanError, 1 ≤ e.code → e.code ≤ 6 → (s.get (CN_CTL_MODE n) = 1 ∨ s.get (CN_CTL_MODE n) = 2) →
      (s.get (CN_STATUS_STATE n) = 1 → s.get (CN_ERRCNT_TEC n) < 88 → s.get (CN_ERRCNT_REC n) < 88 →
        (e.sending = false → ∃ u, exec (.canError n e) s = .next u ∧ u.get (if e.dataPhase then CN_STATUS_LASTERR_D n else CN_STATUS_LASTERR n) = e.code ∧
          u.get (CN_ERRCNT_REC n) = s.get (CN_ERRCNT_REC n) + (if e.eight then 8 else 1) ∧
          s.only u [CN_STATUS_LASTERR_D n, CN_STATUS_LASTERR n, CN_STATUS_RX n, CN_ERRCNT_REC n, CN_ERRCNT_RXPASS n, CN_STATUS_WARN n]) ∧
        (∀ k, e.sending = true → s.get (CN_TXOBJ n) = k + 1 → k < 128 → s.get (CO_RUN n k) < 15 →
          ∃ u, exec (.canError n e) s = .next u ∧ u.get (CN_ERRCNT_TEC n) = s.get (CN_ERRCNT_TEC n) + 8 ∧ u.get (CN_TXOBJ n) = 0 ∧
            u.get (CO_RUN n k) = (if e.dataField then s.get (CO_RUN n k) + 1 else 0) ∧
            u.on (CN_PEND n k) = (s.on (CO_AGAIN n k) || !s.on (CO_DROP n k)))) ∧
      (∀ k, s.get (CN_STATUS_STATE n) ≠ 3 → e.sending = true → e.silent = false → s.get (CN_TXOBJ n) = k + 1 → k < 128 → 248 ≤ s.get (CN_ERRCNT_TEC n) →
        s.get (CN_ERRCNT_TEC n) < 256 →
        ∃ u, exec (.canError n e) s = .next u ∧ u.get (CN_STATUS_STATE n) = 3 ∧ u.get (CN_EVT_BUSOFF n) = 1 ∧ u.on (CN_STATUS_RECOVERING n) = !s.on (CN_CTL_RECOV n))) ∧
    (s.get (CN_STATUS_STATE n) = 3 → s.on (CN_STATUS_RECOVERING n) = true →
      ∃ u, exec (.busOffRecovered n) s = .next u ∧ u.get (CN_STATUS_STATE n) = 1 ∧ u.get (CN_ERRCNT_TEC n) = 0 ∧ u.get (CN_ERRCNT_REC n) = 0 ∧
        u.get (CN_STATUS_RECOVERING n) = 0 ∧ u.descs = (s.settle 0x33 (fun d => d.p0 == n) stSuccess 0).descs ∧
        s.onlyAndEvents { u with descs := s.descs } [CN_ERRCNT_TEC n, CN_ERRCNT_REC n, CN_ERRCNT_RXPASS n, CN_STATUS_STATE n, CN_STATUS_WARN n, CN_STATUS_RECOVERING n,
          CN_REQSTAT_OUTCOME n, CN_EVT_RECOVERED n, CN_EVCNT_OTHER_CNT n]) ∧
    ((s.get (CN_STATUS_STATE n) = 3 → s.on (CN_CTL_RECOV n) = true → ∃ u, exec (.recover n) s = .next u ∧ u.get (CN_STATUS_RECOVERING n) = 1 ∧ u.get (CN_REQSTAT_OUTCOME n) = 1 ∧
        u.get (CN_REQSTAT_REASON n) = 0 ∧ s.only u [CN_REQSTAT_REASON n, CN_REQSTAT_OUTCOME n, CN_STATUS_RECOVERING n]) ∧
      (s.recoverRefusal n ≠ 0 → ∃ u, exec (.recover n) s = .next u ∧ u.get (CN_REQSTAT_OUTCOME n) = 3 ∧ u.get (CN_REQSTAT_REASON n) = s.recoverRefusal n ∧
        s.onlyAndEvents u [CN_REQSTAT_REASON n, CN_REQSTAT_OUTCOME n])) ∧
    (∀ k, k < 128 →
      (s.clearRefusal n k = 0 → ∃ u, exec (.objectClear n k) s = .next u ∧ u.get (CN_COLL n k) = 0 ∧ u.get (CO_STOP n k) = 0 ∧ u.get (CN_OBJCLRSTAT_OUTCOME n) = 2 ∧
        ∀ a, (a < canMem n k + 0x20 ∨ canMem n k + 0x24 ≤ a) → u.byte a = s.byte a) ∧
      (s.clearRefusal n k ≠ 0 → ∃ u, exec (.objectClear n k) s = .next u ∧ u.get (CN_OBJCLRSTAT_OUTCOME n) = 3 ∧ u.get (CN_OBJCLRSTAT_REASON n) = s.clearRefusal n k ∧
        s.onlyAndEvents u [CN_OBJCLR_OBJ n, CN_OBJCLRSTAT_REASON n, CN_OBJCLRSTAT_OUTCOME n]))

/-- A poll gives every live submission ring its tail and every live completion ring its head, a failed one is counted.
A fetched descriptor joins those in progress and moves its ring's head. A completion moves the tail, turns the
phase at the wrap, removes its descriptor and leaves its sixteen bytes in host memory. Each ms the shadow page's four status words are
written. A moderated or unmasked vector signals, or sets its pending bit
while masked. Enabling starts a ring at 0; a submission ring whose completion ring is not enabled is rejected.
PERST_N resets the host interface and nothing else. -/
def Obligations.RingInterface : Prop :=
  ∀ s : State, s.powered = true → s.get HIF_EVVEC_VEC < 32 →
    (s.hifOn = true →
      (∀ ws : List Word, (∀ r, r < 16 → s.sqLive r = true → (ws.getD r 0).toNat < s.sqSize r) →
        (∀ c, c < 16 → s.on (HIF_CQ_CFG_EN c) = true → s.on (HIF_CQ_STAT_FAULT c) = false → (ws.getD (16 + c) 0).toNat < s.cqSize c) →
        ∃ u, exec (.doorbellPoll (some ws)) s = .next u ∧ u.get DB_FAILS = 0 ∧
          (∀ r, r < 16 → u.get (SQ_TAIL r) = if s.sqLive r then (ws.getD r 0).toNat else s.get (SQ_TAIL r)) ∧
          ∀ c, c < 16 → u.get (CQ_HEAD c) = if s.on (HIF_CQ_CFG_EN c) && !s.on (HIF_CQ_STAT_FAULT c) then (ws.getD (16 + c) 0).toNat else s.get (CQ_HEAD c)) ∧
      (s.get DB_FAILS < 15 → ∃ u, exec (.doorbellPoll none) s = .next u ∧ u.get DB_FAILS = s.get DB_FAILS + 1 ∧ u.get HIF_EVT_DBFAIL = 1)) ∧
    (∀ (r : Nat) (b : List Byte) (ok : Bool), s.hifOn = true → s.nextRing = some r → b.length = 32 → 0 < s.sqSize r →
      let head := s.get (HIF_SQ_STAT_HEAD r)
      let d := descOf r head ((head + 1) % s.sqSize r) b
      ∃ u, exec (.descriptorAccepted r (some b) ok) s = .next u ∧ u.get (HIF_SQ_STAT_HEAD r) = (head + 1) % s.sqSize r ∧ u.get SQ_TURN = (r + 1) % 16 ∧
        u.descs = s.descs ++ [match d.check b with
          | some st => { d with st := .done st 0 }
          | none => d]) ∧
    (∀ (r slot : Nat) (d : Desc) (status result : Nat) (ok : Bool), s.on PERST = false →
      let c := s.get (HIF_SQ_CFG_CQ r)
      c < 16 → s.get (HIF_CQ_CFG_VEC c) < 32 → s.on (HIF_CQ_CFG_EN c) = true → s.on (HIF_CQ_STAT_FAULT c) = false → 0 < s.cqSize c → s.cqFull c = false →
      (s.ringDescs r).find? (fun d => d.slot == slot) = some d → d.st = .done status result → s.get (HIF_CQ_STAT_PHASE c) ≤ 1 →
      let tail := (s.get (HIF_CQ_STAT_TAIL c) + 1) % s.cqSize c
      ∃ u, exec (.completionPost r slot true ok) s = .next u ∧ u.get (HIF_CQ_STAT_TAIL c) = tail ∧
        u.get (HIF_CQ_STAT_PHASE c) = (if tail = 0 then 1 - s.get (HIF_CQ_STAT_PHASE c) else s.get (HIF_CQ_STAT_PHASE c)) ∧
        (u.descs = s.descs.filter fun x => !(x.ring == d.ring && x.slot == d.slot)) ∧
        (ok = false → u.hostHas (s.cqBase c + 16 * s.get (HIF_CQ_STAT_TAIL c)) (complBytes d status result (s.get (HIF_CQ_STAT_PHASE c))))) ∧
    (∀ v, v < 32 → s.on PERST = false →
      (s.on (V_CNT v) = true →
        (s.on (MSIX_MASK v) = true → ∃ u, exec (.msixModerationTimeout v) s = .next u ∧ u.get (V_CNT v) = 0 ∧ u.get (MSIX_PENDING v) = 1 ∧ s.only u (timeFields ++ [V_CNT v, MSIX_PENDING v])) ∧
        (s.on (MSIX_MASK v) = false → ∃ u, exec (.msixModerationTimeout v) s = .next u ∧ u.get (V_CNT v) = 0 ∧
          u.get (V_MSG v) = min (s.get (V_MSG v) + 1) (2 ^ 32 - 1) ∧ s.only u (timeFields ++ [V_CNT v, V_MSG v]))) ∧
      (∃ u, exec (.msixUnmask v) s = .next u ∧ u.get (MSIX_MASK v) = 0 ∧ u.on (MSIX_PENDING v) = false ∧
        (s.on (MSIX_PENDING v) = true → u.get (V_MSG v) = min (s.get (V_MSG v) + 1) (2 ^ 32 - 1)) ∧
        (s.on (MSIX_PENDING v) = false → u.get (V_MSG v) = s.get (V_MSG v)) ∧ s.only u [MSIX_MASK v, MSIX_PENDING v, V_MSG v])) ∧
    (s.hifOn = true →
      let v := s.elapseTo (s.get HEART_AT)
      let u := v.set HEART_AT (v.now + grainsMs)
      (∀ ok, exec (.shadowHeartbeat ok) s = .next (u.shadow ok [(0xF00, u.opTime % 2 ^ 32), (0xF04, u.regRead 0x5000), (0xF08, u.regRead 0x3000),
        (0xF0C, u.regRead 0xD028 + 65536 * u.regRead 0xD02C)])) ∧
      (s.shadowQ = [] → ∃ x, exec (.shadowHeartbeat true) s = .next x ∧ x.hostHas (s.shPage + 0xF00) (leBytes 4 (s.opTime % 2 ^ 32) ++ leBytes 4 (s.regRead 0x5000) ++
        leBytes 4 (s.regRead 0x3000) ++ leBytes 4 (s.regRead 0xD028 + 65536 * s.regRead 0xD02C)) ∧ s.only { x with hostMem := s.hostMem } (timeFields ++ [HEART_AT]))) ∧
    (s.on PERST = false →
      (∃ u, exec (.hostInterfaceEnable false) s = .next u ∧ u.get HIF_CTL_EN = 0 ∧ u.get HIF_STATUS_RUNNING = 0 ∧ s.only u [HIF_CTL_EN, HIF_STATUS_RUNNING]) ∧
      (s.on HIF_CTL_EN = false → ∃ u, exec (.hostInterfaceEnable true) s = .next u ∧ u.get HIF_CTL_EN = 1 ∧ u.get POLL_AT = s.now % 2 ^ 64 ∧
        u.on HIF_STATUS_RUNNING = (!s.on D3 && !s.blk 8) ∧ s.only u [HIF_CTL_EN, HIF_STATUS_RUNNING, POLL_AT, HEART_AT]) ∧
      (∀ b : Bool, ∃ u, exec (.d3hot b) s = .next u ∧ u.on D3 = b ∧ u.on HIF_STATUS_RUNNING = (s.on HIF_CTL_EN && !b && !s.blk 8) ∧ s.only u [D3, HIF_STATUS_RUNNING]) ∧
      (∀ r, r < 16 →
        (∃ u, exec (.submissionRingEnable r false) s = .next u ∧ u.get (HIF_SQ_CFG_EN r) = 0 ∧ s.only u [HIF_SQ_CFG_EN r]) ∧
        (s.on (HIF_SQ_CFG_EN r) = false →
          (s.on (HIF_CQ_CFG_EN (s.get (HIF_SQ_CFG_CQ r))) = false → exec (.submissionRingEnable r true) s = .next (s.cfgReject (0xD108 + 16 * r))) ∧
          (s.on (HIF_CQ_CFG_EN (s.get (HIF_SQ_CFG_CQ r))) = true → ∃ u, exec (.submissionRingEnable r true) s = .next u ∧ u.get (HIF_SQ_CFG_EN r) = 1 ∧
            u.get (HIF_SQ_STAT_HEAD r) = 0 ∧ u.get (SQ_TAIL r) = 0 ∧ u.get (HIF_SQ_STAT_FAULT r) = 0 ∧
            s.only u [HIF_SQ_CFG_EN r, HIF_SQ_STAT_HEAD r, SQ_TAIL r, HIF_SQ_STAT_FAULT r, HIF_SQ_STAT_FCAUSE r, HIF_SQFAULT_RINGS r])) ∧
        (s.on (HIF_CQ_CFG_EN r) = false → ∃ u, exec (.completionRingEnable r true) s = .next u ∧ u.get (HIF_CQ_CFG_EN r) = 1 ∧ u.get (HIF_CQ_STAT_TAIL r) = 0 ∧
          u.get (HIF_CQ_STAT_PHASE r) = 1 ∧ u.get (CQ_HEAD r) = 0 ∧
          s.only u [HIF_CQ_CFG_EN r, HIF_CQ_STAT_TAIL r, HIF_CQ_STAT_PHASE r, CQ_HEAD r, HIF_CQ_STAT_FAULT r, HIF_CQ_STAT_FULL r, HIF_CQFAULT_RINGS r]))) ∧
    (∀ speed width, 0 < speed → speed < 4 → 0 < width → width < 3 → (speed ≠ s.get HIF_STATUS_SPEED ∨ width ≠ s.get HIF_STATUS_WIDTH) →
      ∃ u, exec (.pcieLinkChange speed width) s = .next u ∧ u.get HIF_STATUS_SPEED = speed ∧ u.get HIF_STATUS_WIDTH = width ∧
        s.onlyAndEvents u [HIF_STATUS_SPEED, HIF_STATUS_WIDTH, PCIE_AT, PCIE_WAKE]) ∧
    (s.on PERST = false → s.get UPD_SESSION_HOLDER ≠ 1 →
      ∃ u, exec .perstNAssertion s = .next u ∧ u.get PERST = 1 ∧ u.get HIF_EVT_PERST = 1 ∧ u.get HIF_CTL_EN = 0 ∧ u.descs = [] ∧ u.mem = s.mem ∧
        ∀ f : Fld, f.key < 32 * 0x13000 → (f.key < 32 * 0xD000 ∨ 32 * 0xE000 ≤ f.key) → (∀ g ∈ recorderFields, f.key ≠ g.key) → u.get f = s.get f) ∧
    (s.on PERST = true → ∃ u, exec .perstNRelease s = .next u ∧ u.get PERST = 0 ∧ (u.on HIF_STATUS_READY = decide (s.get START_STEP = 3)) ∧ s.only u [PERST, HIF_STATUS_READY])

/-- The descriptor of a ring that starts next, with its opcode and parameters in order and its target free, has its
opcode's effect and finishes with SUCCESS and its result, or waits for the outcome of what it asked for: what it reads is in host
memory at its buffer, what it writes is where the opcode puts it. -/
def Obligations.RingCommands : Prop :=
  (∀ (s : State) (r : Nat) (d : Desc), s.nextDesc r = some d →
    let n := d.p0 % 4
    let k := d.p0 / 4
    (d.op = 0x00 → exec (.ringNop r) s = .next (s.finish d stSuccess) ∧
      ∃ u, exec (.ringNop r) s = .next u ∧ u.answered d stSuccess ∧ s.only { u with descs := s.descs } []) ∧
    (d.op = 0x10 → exec (.flowRead r true) s =
        .next ((s.hostWrite d.buf (s.bytes (flowBuf d.p0) (min d.len 2048))).finish d stSuccess (min d.len 2048)) ∧
      ∃ u, exec (.flowRead r true) s = .next u ∧ u.answered d stSuccess (min d.len 2048) ∧ u.hostHas d.buf (s.bytes (flowBuf d.p0) (min d.len 2048)) ∧
        s.only { u with descs := s.descs, hostMem := s.hostMem } []) ∧
    (∀ bs : List Byte, bs.length = d.len →
      (d.op = 0x11 → d.p0 < 512 → s.ctxFit d.p0 = true → (s.flow d.p0).dir = 1 → (s.flow d.p0).safety = false → (s.flow d.p0).en = false → d.len = (s.flow d.p0).len →
        exec (.flowWrite r (some bs)) s = .next ((s.sendReady d.p0 bs).finish d stSuccess (s.furlong % 2 ^ 32)) ∧
        ∃ u, exec (.flowWrite r (some bs)) s = .next u ∧ u.answered d stSuccess (s.furlong % 2 ^ 32) ∧ u.bytes (sendBuf d.p0 0) d.len = bs ∧
          u.get (SND_RDY d.p0) = (s.now + 1) % 2 ^ (SND_RDY d.p0).w) ∧
      (d.op = 0x20 → (frameOf bs).etype ≠ s.get TN_CFG_ETYPE → openBytes (frameOf bs) ≤ 1522 → held s.openTx d.p0 + openBytes (frameOf bs) ≤ 32768 →
        s.openRodNow d.p0 = none →
        ∃ u, exec (.openSend r (some bs)) s = .next u ∧ u.openTx = s.openTx ++ [(d.p0, frameOf bs)] ∧
          u.answered d stSuccess (u.openTx.filter fun q => q.1 == d.p0).length) ∧
      (d.op = 0x30 → d.p0 < 512 → d.len ≤ 64 → s.hostFed n k = true → d.len = (s.canObj n k).len → (s.safe = false ∨ (s.canObj n k).safety = false) →
        s.on (CO_STOP n k) = false →
        exec (.canSend r (some bs)) s = .next (if d.wait then (s.canRequest n k bs).await d else (s.canRequest n k bs).finish d stSuccess) ∧
        ∃ u, exec (.canSend r (some bs)) s = .next u ∧ u.bytes (canReq n k) d.len = bs ∧ (if d.wait then u.waits d else u.answered d stSuccess) ∧
          (if s.get (CN_TXOBJ n) = k + 1 then u.get (CO_AGAIN n k) = 1 else u.get (CN_PEND n k) = 1)) ∧
      (d.op = 0x73 → d.len = 12 → d.p0 < 256 → ofLe (bs.take 4) % 4 = 0 → ofLe (bs.take 4) < 2 ^ 17 → ofLe (bs.drop 8) ≠ 0 → s.unlocked 1 = true →
        let sp : Space := if (ofLe (bs.take 4)).testBit 16 then .Q else .I
        let a := ofLe (bs.take 4) % 65536
        ∀ t, s.sliceOwner sp a = some t → s.forceSafety sp a t = false →
          let w := ofLe (bs.take 4) + 2 ^ 20 * t
          ∃ u, exec (.forceSet r (some bs)) s = .next u ∧ u.answered d stSuccess ∧ u.bytes (forceEntry d.p0) 16 = leBytes 4 w ++ bs.drop 4 ++ leBytes 4 s.opTime ∧
            u.get (FORCE_LOST d.p0) = 0)) ∧
    (d.op = 0x21 → (s.ringDescs r).find? (fun x => x.op == 0x21 && x.st == .waiting && s.openRx.any fun q => q.1 / 2 == x.p0) = none →
      (s.openRx.find? (fun q => q.1 / 2 == d.p0) = none → exec (.openRecv r true) s = .next (s.await d) ∧ ∃ u, exec (.openRecv r true) s = .next u ∧ u.waits d) ∧
      (∀ q, s.openRx.find? (fun q => q.1 / 2 == d.p0) = some q →
        exec (.openRecv r true) s = .next ((State.hostWrite { s with openRx := s.openRx.erase q } d.buf (frBytes q.2)).finish d stSuccess
          ((frBytes q.2).length + 65536 * q.1)) ∧
        ∃ u, exec (.openRecv r true) s = .next u ∧ u.hostHas d.buf (frBytes q.2) ∧ u.openRx = s.openRx.erase q ∧
          u.answered d stSuccess ((frBytes q.2).length + 65536 * q.1))) ∧
    (d.op = 0x31 → d.p0 < 512 → s.hostFed n k = true → exec (.canWithdraw r) s = .next ((s.canRemove n k).finish d stSuccess (s.get (CN_PEND n k))) ∧
      ∃ u, exec (.canWithdraw r) s = .next u ∧ u.answered d stSuccess (s.get (CN_PEND n k)) ∧
        (if s.get (CN_TXOBJ n) = k + 1 then u.get (CO_DROP n k) = 1 else u.get (CN_PEND n k) = 0)) ∧
    (d.op = 0x32 → 128 ≤ d.len → exec (.canRead r true) s = .next ((s.hostWrite d.buf (s.bytes (canMem n k) 128)).finish d stSuccess 128) ∧
      ∃ u, exec (.canRead r true) s = .next u ∧ u.hostHas d.buf (s.bytes (canMem n k) 128) ∧ u.answered d stSuccess 128) ∧
    (d.op = 0x33 → d.p0 < 4 → s.recoverRefusal d.p0 = 0 → exec (.canRecover r) s = .next ((s.canRecover d.p0).await d) ∧
      ∃ u, exec (.canRecover r) s = .next u ∧ u.get (CN_STATUS_RECOVERING d.p0) = 1 ∧ u.get (CN_REQSTAT_OUTCOME d.p0) = 1 ∧ u.waits d) ∧
    (d.op = 0x34 → s.clearRefusal n k = 0 → n < 4 → k < 128 → exec (.canObjclr r) s = .next ((s.objClear n k 1).finish d stSuccess) ∧
      ∃ u, exec (.canObjclr r) s = .next u ∧ u.get (CN_COLL n k) = 0 ∧ u.get (CO_STOP n k) = 0 ∧ u.answered d stSuccess) ∧
    (d.op = 0x40 → d.p0 < 16 → s.on (HIF_SNAP_PENDING d.p0) = false → s.snappable d.p0 = true → s.snapSize d.p0 ≤ d.len →
      exec (.snapshot r) s = .next (((s.set (HIF_SNAP_PENDING d.p0) 1).set (SNAP_TRY d.p0) 0).await d) ∧
      ∃ u, exec (.snapshot r) s = .next u ∧ u.get (HIF_SNAP_PENDING d.p0) = 1 ∧ u.waits d ∧ s.only { u with descs := s.descs } [HIF_SNAP_PENDING d.p0, SNAP_TRY d.p0]) ∧
    (d.op = 0x50 → d.p0 = 1 → d.p1 < 8192 → d.len % 32 = 0 → d.len ≤ 262144 →
      let bs := (upto (d.len / 32)).flatMap fun i => s.bytes (rollingSlot ((d.p1 + i) % 8192)) 32
      exec (.recRead r true) s = .next ((s.hostWrite d.buf bs).finish d stSuccess (d.len / 32)) ∧
      ∃ u, exec (.recRead r true) s = .next u ∧ u.hostHas d.buf bs ∧ u.answered d stSuccess (d.len / 32)) ∧
    (d.op = 0x51 → 32 ≤ d.len → exec (.recInfo r true) s = .next ((s.hostWrite d.buf s.recInfo).finish d stSuccess s.recInfo.length) ∧
      ∃ u, exec (.recInfo r true) s = .next u ∧ u.hostHas d.buf (leBytes 4 0x52454331 ++ leBytes 4 (s.get REC_NEWSEQ_SEQ)) ∧ u.answered d stSuccess 32) ∧
    (d.op = 0x74 → s.unlocked 1 = true → s.unlocked 2 = true →
      let is := (s.forces forceEntry).filter fun i => d.p0 == 256 || d.p0 == i
      exec (.forceRemove r) s = .next ((s.debugRequest.each is State.removeForce).finish d stSuccess is.length) ∧
      ∃ u, exec (.forceRemove r) s = .next u ∧ u.answered d stSuccess is.length ∧ ∀ i ∈ is, (u.forceAt (forceEntry i)).mask = 0) ∧
    (d.op = 0x75 → s.unlocked 1 = true → 4100 ≤ d.len →
      let t := s.bytes (forceEntry 0) 4096
      ∃ u, exec (.forceRead r true) s = .next u ∧ u.answered d stSuccess 4100 ∧
        u.hostHas d.buf (t ++ leBytes 4 (if s.forces forceEntry = [] then crc32c t else s.rd forceCrc 4))) ∧
    (d.op = 0x76 → d.p0 % 4 = 0 → s.unlocked 0 = true → exec (.dbgWrite r) s = .next ((s.dbgTaskWrite d.p0 d.p1).finish d stSuccess) ∧
      (∀ t i, t < 16 → i < 8 → d.p0 = 0x100 + 64 * t + 4 * i → d.p1 < 2 ^ 32 → ∃ u, exec (.dbgWrite r) s = .next u ∧ u.answered d stSuccess ∧
        u.get (DBG_BP_INDEX t i) = d.p1 % 2 ^ 18 ∧ u.get (DBG_BP_COUNT t i) = d.p1 / 2 ^ 18 % 256 ∧ u.get (DBG_BP_EN t i) = d.p1 / 2 ^ 31)) ∧
    (d.op = 0x78 → s.blk 2 = false → s.psRefusal (d.p0 % 4) = 0 →
      let u := s.psRequest (d.p0 % 4) ((d.p0).testBit 2) 1
      exec (.pstateReq r) s = .next (u.outcome d (u.on PS_PEND) (u.get DBG_PSSTAT_REASON)) ∧
      ∃ v, exec (.pstateReq r) s = .next v ∧ v.get DBG_PSSTAT_TARGET = d.p0 % 4 ∧ v.get DBG_PSTATE_STATE = d.p0 % 4 ∧ (v.waits d ∨ v.answered d stSuccess)) ∧
    (d.op = 0x79 → s.blk 2 = false → s.safe = false → s.prog = .run → s.enabled (d.p0 % 16) = true → s.tripped (d.p0 % 16) = true →
      (s.isSafety (d.p0 % 16) = false ∨ s.standPermit = true) →
      exec (.taskRestart r) s = .next ((s.taskRestart (d.p0 % 16) ((d.p0).testBit 4) 1).await d) ∧
      ∃ u, exec (.taskRestart r) s = .next u ∧ u.get DBG_TRSTAT_OUTCOME = 1 ∧ u.get (RESTART (d.p0 % 16)) = (if (d.p0).testBit 4 then 2 else 1) ∧ u.waits d) ∧
    (d.op = 0x7A → d.p0 < 64 → s.modeRefusal (d.p0 % 16) (d.p0 / 16) = 0 → exec (.modeReq r) s = .next ((s.modeRequest (d.p0 % 16) (d.p0 / 16)).await d) ∧
      ∃ u, exec (.modeReq r) s = .next u ∧ u.get MODE_PEND = 1 ∧ u.get MODE_PT = d.p0 % 16 ∧ u.get MODE_PM = d.p0 / 16 ∧ u.waits d) ∧
    (d.op = 0x7B → d.p0 < 65536 → s.resetRefusal d.p0 = 0 → exec (.brakeMrst r) s = .next ((s.brakeReset d.p0 1).await d) ∧
      ∃ u, exec (.brakeMrst r) s = .next u ∧ u.get BRK_MRSTAT_OUTCOME = 1 ∧ (∀ g, g < 16 → (d.p0).testBit g = true → u.get (RST_PEND g) = 1) ∧ u.waits d) ∧
    (d.op = 0x7C → s.powerRingRefusal d.p0 = 0 → d.p0 ≠ 0 → exec (.powerReq r) s = .next ((s.powerEnter d.p0 1 0xFFFF).await d) ∧
      ∃ u, exec (.powerReq r) s = .next u ∧ u.get PW_PHASE = 1 ∧ u.get PW_TGT = d.p0 ∧ u.get PWR_STATUS_OUTCOME = 1 ∧ u.waits d) ∧
    (d.op = 0x7C → s.powerRingRefusal 0 = 0 → d.p0 = 0 → exec (.powerReq r) s = .next ((s.powerWithdraw 1).finish d stSuccess) ∧
      ∃ u, exec (.powerReq r) s = .next u ∧ u.get PW_PHASE = 0 ∧ u.answered d stSuccess) ∧
    (d.op = 0x7D → s.on TN_WAKESTAT_SENDING = false → exec (.wakeBurst r) s = .next ((s.wakeBurst (d.p1 + 2 ^ 32 * d.p2) d.p0).await d) ∧
      ∃ u, exec (.wakeBurst r) s = .next u ∧ u.get TN_WAKESTAT_SENDING = 1 ∧ u.get TN_WAKESTAT_SENT_ID = (s.get TN_WAKESTAT_SENT_ID + 1) % 256 ∧
        u.get WB_REASON = d.p0 % 65536 ∧ u.waits d)) ∧
  (∀ (s : State) (t : Nat) (l : Lane), s.powered = true → t < 16 → s.on (HIF_SNAP_PENDING t) = true → s.on (SNAPW t) = true → s.snapLane t = some l →
    let u := s.set (SNAP_TRY t) (s.get (SNAP_TRY t) + 1)
    (s.get (SNAP_TRY t) < 7 → exec (.snapshotCapture t false true) s = .next (u.set (SNAPW t) 0)) ∧
    exec (.snapshotCapture t true true) s = .next (u.snapEnd t fun v d => v.answer d true (v.snapBytes t l (s.get (SNAP_TRY t) + 1))) ∧
    (∀ d, s.descs.find? (fun d => d.op == 0x40 && d.p0 == t && d.st == .waiting) = some d →
      let bs := s.snapBytes t l (s.get (SNAP_TRY t) + 1)
      bs.length ≤ d.len → ∃ v, exec (.snapshotCapture t true true) s = .next v ∧ v.get (HIF_SNAP_PENDING t) = 0 ∧ v.hostHas d.buf bs ∧
        v.answered d stSuccess bs.length))

/-- SEMTO resets to 100. A semaphore that is held and that nobody releases is free again SEMTO ms after it was taken,
whatever of 1 to 1000 SEMTO is, with event 0x7106 that gives its number, its owner and the milliseconds; a write
of BR_SEMCMD through BAR0 changes nothing at all. -/
def Obligations.SemaphoreTimeout : Prop :=
  State.reset.get BR_CFG_SEMTO = 100 ∧
  (∀ (s : State) (n tag : Nat), s.powered = true → n < 64 → s.get (BR_SEM_OWNER n) = tag → tag ≠ 0xFF → 1 ≤ s.get BR_CFG_SEMTO → s.get BR_CFG_SEMTO ≤ 1000 →
    let u := s.elapseTo (s.get (SEM_AT n) + s.get BR_CFG_SEMTO * grainsMs)
    let ms := min 65535 ((u.now - s.get (SEM_AT n)) / grainsMs)
    exec (.semaphoreTimeout n) s =
      .next ((((u.raise BR_EVT_SEMTO BR_EVCNT_OTHER_CNT).ev 0x7106 0 n tag ms).set (BR_SEM_OWNER n) 0xFF).set (BR_SEMBUSY n) 0) ∧
    ∃ v, exec (.semaphoreTimeout n) s = .next v ∧ v.get (BR_SEM_OWNER n) = 0xFF ∧ v.get (BR_SEMBUSY n) = 0 ∧ v.get BR_EVT_SEMTO = 1 ∧
      s.onlyAndEvents v (timeFields ++ [BR_SEM_OWNER n, BR_SEMBUSY n, BR_EVT_SEMTO, BR_EVCNT_OTHER_CNT])) ∧
  (∀ (s : State) (v : Nat), v < 2 ^ 32 → exec (.registerWrite 0xE028 v) s = .next s)

/-- A retry read starts an operation and is answered RETRY, or gives its data or its error at a reissue; a held read
goes to its port. Data that return wait for their reissue; a response that does not come, or comes in error, ends
the operation with its event. A write is made and ends when it is confirmed. A partner's alert word is shown and
its failed reads are counted; this device's own word counts its heartbeat. A free semaphore is taken, a held one
counts the contention; only its owner releases it. -/
def Obligations.BridgeOperations : Prop :=
  (∀ (s : State) (i far addr len : Nat), s.powered = true → s.reaches i far = true → readFits addr len = true →
    (5 ≤ i →
      let op := s.farOps.find? fun o => o.kind == 0 && o.ini == i && o.far == far && o.addr == addr && o.len == len
      (∀ o, op = some o →
        (o.st = .buffered → exec (.retryRead i far addr len) s = .next (((s.dropOp o).set (BR_ANS i) 2).pump) ∧
          ∃ u, exec (.retryRead i far addr len) s = .next u ∧ u.get (BR_ANS i) = 2 ∧ o ∉ u.farOps) ∧
        (o.st = .failed → exec (.retryRead i far addr len) s = .next (((s.dropOp o).set (BR_ANS i) 3).pump) ∧
          ∃ u, exec (.retryRead i far addr len) s = .next u ∧ u.get (BR_ANS i) = 3 ∧ o ∉ u.farOps) ∧
        (o.st = .flying → exec (.retryRead i far addr len) s = .next (s.set (BR_ANS i) 1))) ∧
      (op = none →
        let u := s.set (BR_ANS i) 1
        let o : FarOp := { kind := 0, ini := i, sharers := [i], far := far, tag := 0, addr := addr, len := len, data := [], st := .waiting, began := s.now, arrived := 0 }
        (s.farOps.filter fun x => x.kind == 0 && x.ini == i).length < 8 → u.opFree o = true → u.linesFree o = true →
        exec (.retryRead i far addr len) s = .next ((State.issue { u with farOps := s.farOps ++ [o] } o).showBr) ∧
        ∃ v, exec (.retryRead i far addr len) s = .next v ∧ v.get (BR_ANS i) = 1 ∧ { o with st := .flying, tag := s.freeTag far } ∈ v.farOps)) ∧
    (i < 5 → s.holding i = false →
      let op := s.farOps.find? fun o => o.kind == 1 && decide (i < 3) && decide (o.ini < 3) && o.far == far && o.addr == addr && o.len == len &&
        (o.st == .waiting || o.st == .flying || (o.st == .buffered && decide (s.now ≤ o.arrived + 500)))
      (s.linkUp (far - 1) = false → ∃ u, exec (.heldRead i far addr len) s = .next u ∧ u.get (BR_ANS i) = 3 ∧ u.farOps = s.farOps) ∧
      (s.linkUp (far - 1) = true →
        (∀ o, op = some o → ∃ u, exec (.heldRead i far addr len) s = .next u ∧ u.get (HELD_AT i) = s.now % 2 ^ 64 ∧
          (o.st = .buffered → u.get (BR_ANS i) = 2 ∧ s.only u [HELD_AT i, BR_ANS i]) ∧
          (o.st ≠ .buffered → { o with sharers := o.sharers ++ [i] } ∈ u.farOps ∧ s.only { u with farOps := s.farOps } [HELD_AT i])) ∧
        (op = none → ∃ u, exec (.heldRead i far addr len) s = .next u ∧ u.get (HELD_AT i) = s.now % 2 ^ 64 ∧
          ∃ x ∈ u.farOps, x.kind = 1 ∧ x.ini = i ∧ x.far = far ∧ x.addr = addr ∧ x.len = len ∧ x.sharers = [i])))) ∧
  (∀ (s : State) (far tag : Nat) (o : FarOp) (d : List Byte), s.powered = true → s.tagged far tag = some o → o.st = .flying → o.kind = 0 → d.length = o.len →
    exec (.farSideData far tag (some d)) s = .next ((s.putOp o { o with st := .buffered, data := d, arrived := s.now }).pump) ∧
    ∃ u, exec (.farSideData far tag (some d)) s = .next u ∧ { o with st := .buffered, data := d, arrived := s.now } ∈ u.farOps) ∧
  (∀ (s : State) (i addr len : Nat) (o : FarOp),
    (s.farOps.find? (fun o => o.kind == 0 && o.ini == i && o.addr == addr && o.len == len && o.st == .buffered) = some o →
      exec (.unclaimedDataTimeout i addr len) s =
        .next (((((s.elapseTo (o.arrived + 100 * grainsUs)).dropOp o).raise BR_EVT_UNCLAIMED BR_EVCNT_OTHER_CNT).ev 0x7101 0 (addr % 2 ^ 32) i (linesOf len)).pump) ∧
      ∃ u, exec (.unclaimedDataTimeout i addr len) s = .next u ∧ u.get BR_EVT_UNCLAIMED = 1 ∧ o ∉ u.farOps) ∧
    (i < 9 → s.farOps.find? (fun o => o.kind == 1 && o.sharers.contains i && (o.st == .waiting || o.st == .flying)) = some o →
      ∃ u, exec (.holdTimeout i) s = .next u ∧ u.get BR_EVT_HOLDTO = 1 ∧ u.get (BR_ANS i) = 3 ∧
        (o.sharers = [i] → o.st = .flying → { o with st := .orphan, sharers := [] } ∈ u.farOps))) ∧
  (∀ (s : State) (i far addr : Nat) (data : List Byte), s.powered = true → i < 9 → s.reaches i far = true → s.writing i = false → 0 < data.length →
    data.length ≤ (if far = 0 then 256 else 512) →
    ((far = 0 ∨ s.linkUp (far - 1) = true) → exec (.nearSideWrite i far addr data) s = .next (s.presentOp 2 i far addr data.length [i] data) ∧
      ∃ u, exec (.nearSideWrite i far addr data) s = .next u ∧ ∃ x ∈ u.farOps, x.kind = 2 ∧ x.ini = i ∧ x.far = far ∧ x.addr = addr ∧ x.data = data) ∧
    (far ≠ 0 → s.linkUp (far - 1) = false → ∃ u, exec (.nearSideWrite i far addr data) s = .next u ∧ u.get (BR_ANS i) = 3 ∧ u.get BR_EVT_WRFAIL = 1 ∧
      s.onlyAndEvents u [BR_EVT_WRFAIL, BR_EVCNT_OTHER_CNT, BR_ANS i])) ∧
  (∀ (s : State) (tag : Nat) (o : FarOp), s.powered = true → s.tagged 0 tag = some o → o.kind = 2 → o.ini < 9 →
    exec (.flushReadCompletion tag true) s = .next (s.writeDone o) ∧ exec (.flushReadCompletion tag false) s = .next ((s.writeFailed o 0).pump) ∧
    (∃ u, exec (.flushReadCompletion tag true) s = .next u ∧ u.get (BR_ANS o.ini) = 2 ∧ u.hostHas o.addr o.data) ∧
    (∃ u, exec (.flushReadCompletion tag false) s = .next u ∧ u.get (BR_ANS o.ini) = 3 ∧ u.get BR_EVT_WRFAIL = 1) ∧
    exec (.completionTimeout tag) s = .next (((((s.elapseTo (o.began + s.ctoGrains)).raise BR_EVT_CTO BR_EVCNT_OTHER_CNT).ev 0x7104 0 (o.addr % 2 ^ 32) o.ini tag).writeFailed
      o 1).pump) ∧
    ∃ u, exec (.completionTimeout tag) s = .next u ∧ u.get BR_EVT_CTO = 1 ∧ u.get (BR_ANS o.ini) = 3) ∧
  (∀ (s : State) (k tag : Nat) (o : FarOp), s.powered = true → k < 4 → s.tagged (k + 1) tag = some o → o.kind = 2 → o.ini < 9 →
    exec (.writeTimeout k tag) s = .next (((((s.elapseTo (o.began + 50 * grainsUs)).raise (CL_EVT_ACKTO k) (CL_EVCNT_FAULT_CNT k)).writeFailed o 1).pump).pumpTwin) ∧
    ∃ u, exec (.writeTimeout k tag) s = .next u ∧ u.get (CL_EVT_ACKTO k) = 1 ∧ u.get (BR_ANS o.ini) = 3) ∧
  (∀ (s : State) (k : Nat), s.powered = true → k < 4 → s.linkUp k = true → (s.get (CL_CFG_ROLE k) = 1 ∨ s.get (CL_CFG_ROLE k) = 2) →
    (s.get (PAL_FAIL k) < 2 → ∃ u, exec (.alertPoll k none) s = .next u ∧ u.get (PAL_FAIL k) = s.get (PAL_FAIL k) + 1 ∧
      s.only u (timeFields ++ [PAL_AT k, PAL_FAIL k, PAL_HBAT k])) ∧
    (∀ w : Word, s.get (BR_PALERT_WORD k) % 256 ≠ w.toNat % 256 →
      ∃ u, exec (.alertPoll k (some w)) s = .next u ∧ u.get (BR_PALERT_WORD k) = w.toNat ∧ u.get (PAL_FAIL k) = 0 ∧
        u.get (PAL_AT k) = (u.now + 500) % 2 ^ (PAL_AT k).w ∧ s.only u (timeFields ++ [PAL_AT k, BR_PALERT_WORD k, PAL_FAIL k, PAL_HBAT k]))) ∧
  (∀ s : State, s.powered = true →
    (s.on TW_CFG_EN = false →
      let v := s.elapseTo (s.get ALERT_AT + 100 * grainsUs)
      ∃ u, exec .alertHeartbeat s = .next u ∧ u.get BR_ALERT_WORD = v.alertWord (s.get BR_ALERT_WORD + 1) 0 % 2 ^ 32 ∧
        u.get BR_ALERT_WORD % 256 = (s.get BR_ALERT_WORD + 1) % 256 ∧ s.only u (timeFields ++ [BR_ALERT_WORD, ALERT_AT])) ∧
    (∃ u, exec .brMaxclr s = .next u ∧ u.get BR_OPSMAX_PCIE = 0 ∧ u.get BR_OPSMAX_CL = 0 ∧ u.get BR_OPSMAX_LINES = 0 ∧ s.only u [BR_OPSMAX_PCIE, BR_OPSMAX_CL, BR_OPSMAX_LINES]) ∧
    (∀ n tag, n < 64 → tag < 64 →
      (s.get (BR_SEM_OWNER n) = 0xFF → ∃ u, exec (.semaphoreTake n tag) s = .next u ∧ u.get (BR_SEM_OWNER n) = tag ∧ s.only u [BR_SEM_OWNER n, BR_SEMBUSY n, SEM_AT n]) ∧
      (s.get (BR_SEM_OWNER n) ≠ 0xFF → ∃ u, exec (.semaphoreTake n tag) s = .next u ∧ u.get (BR_SEM_CONTEND n) = min (s.get (BR_SEM_CONTEND n) + 1) 65535 ∧
        s.only u [BR_SEM_CONTEND n]) ∧
      (s.get (BR_SEM_OWNER n) = tag → ∃ u, exec (.semaphoreRelease n tag) s = .next u ∧ u.get (BR_SEM_OWNER n) = 0xFF ∧ u.get (BR_SEMBUSY n) = 0 ∧
        s.only u [BR_SEM_OWNER n, BR_SEMBUSY n]) ∧
      (s.get (BR_SEM_OWNER n) ≠ tag → exec (.semaphoreRelease n tag) s = .next s)) ∧
    (∀ i, i < 12 → s.impOn i = true → s.on GRP_CFG_EN = true → s.get (AGREE (s.impTask i)) = 1 → s.importing = none → s.on (IMP_DONE i) = false →
      let v := s.elapseTo (s.get (AGREE_A (s.impTask i)) + s.get GRP_CFG_DL * grainsUs)
      let u := ((v.set (IMP_ON i) 1).set (IMP_POS i) 0).each Lane.all fun s l => (s.set (IMP_ACC l.idx i) 0).set (IMP_CHK l.idx i) 0
      let inis := (s.voters (s.impTask i)).map Lane.idx
      (∀ k, (upto 3).find? (fun k => s.memberOf k == s.ictx i 1 % 4) = some k → exec (.importRead i) s = .next (u.impNext i (k + 1) inis) ∧
        (s.linkUp k = true → (∀ o ∈ s.farOps, o.kind ≠ 1) → ∃ w, exec (.importRead i) s = .next w ∧ w.get (IMP_ON i) = 1 ∧ w.get (IMP_POS i) = 0 ∧
          ∃ x ∈ w.farOps, x.kind = 1 ∧ x.far = k + 1 ∧ x.addr = (s.ictx i 1 / 4 % 4) * 4096 ∧ x.len = min 512 (s.impLen i) ∧ x.sharers = inis)) ∧
      ((upto 3).find? (fun k => s.memberOf k == s.ictx i 1 % 4) = none → exec (.importRead i) s = .next (u.loadersFail inis) ∧
        ((∀ o ∈ s.farOps, o.kind ≠ 1) → ∃ w, exec (.importRead i) s = .next w ∧ w.get (IMP_DONE i) = 1 ∧ w.get (IMP_ON i) = 0))))

/-- A READ inside this device's own memory is answered with its bytes, any other with ERROR_RSP; a WRITE to the twin's
window or the semaphore command is done and acknowledged, any other refused. Responses return credits and end
their operation. Training counts to 32, then compares identities; a link that passes begins its delay exchange. A
DELAY_REQ is answered. Bad packets and replays are counted. 100 ms in REFUSED or BACKOFF end in DOWN, and detected
commas start training. The first TIME packet is adopted; a later one within 100 grains is the furlong's
measurement. -/
def Obligations.CompanionLinks : Prop :=
  (∀ (s : State) (k : Nat) (p : ClPacket), s.powered = true → k < 4 →
    let u := s.recvCl k p
    (s.linkUp k = true →
      (p.kind = 0 →
        (∀ d, u.inboundRead k p.addr p.len = some d → exec (.read k p) s = .next (u.sendCl k (reply p 1 d)) ∧
          ∃ v q, exec (.read k p) s = .next v ∧ Sparse.get v.lastCl k none = some q ∧ q.kind = 1 ∧ q.tag = p.tag ∧ q.data = d ∧
            s.only { v with lastCl := s.lastCl } [CL_RXS k, CL_RPL k, CL_TXS k]) ∧
        (u.inboundRead k p.addr p.len = none → exec (.read k p) s = .next (u.sendCl k (reply p 4 [])) ∧
          ∃ v q, exec (.read k p) s = .next v ∧ Sparse.get v.lastCl k none = some q ∧ q.kind = 4 ∧ q.tag = p.tag ∧
            s.only { v with lastCl := s.lastCl } [CL_RXS k, CL_RPL k, CL_TXS k])) ∧
      (p.kind = 2 → p.data.length = p.len → p.len ≤ 512 →
        (p.addr = 0x10100 → p.len = 4 → exec (.write k p) s = .next ((u.semCommand (ofLe p.data)).sendCl k (reply p 3 [])) ∧
          (∀ n tag, n < 64 → tag < 64 → ofLe p.data = n + 64 + 256 * tag → s.get (BR_SEM_OWNER n) = 0xFF →
            ∃ v q, exec (.write k p) s = .next v ∧ v.get (BR_SEM_OWNER n) = tag ∧ Sparse.get v.lastCl k none = some q ∧ q.kind = 3 ∧ q.tag = p.tag)) ∧
        (s.get (CL_CFG_ROLE k) = 2 → twinArea p.addr p.len = true →
          exec (.write k p) s = .next ((u.setBytes (twinWin (p.addr - 0x100000)) p.data).sendCl k (reply p 3 [])) ∧
          ∃ v q, exec (.write k p) s = .next v ∧ v.bytes (twinWin (p.addr - 0x100000)) p.len = p.data ∧ Sparse.get v.lastCl k none = some q ∧ q.kind = 3 ∧
            q.tag = p.tag ∧ s.onlyAt { v with lastCl := s.lastCl } [CL_RXS k, CL_RPL k, CL_TXS k] [(twinWin (p.addr - 0x100000), p.len)]) ∧
        (p.addr ≠ 0x10100 → (s.get (CL_CFG_ROLE k) ≠ 2 ∨ twinArea p.addr p.len = false) → exec (.write k p) s = .next (u.sendCl k (reply p 4 [])) ∧
          ∃ v q, exec (.write k p) s = .next v ∧ Sparse.get v.lastCl k none = some q ∧ q.kind = 4 ∧ q.tag = p.tag ∧
            s.only { v with lastCl := s.lastCl } [CL_RXS k, CL_RPL k, CL_TXS k])) ∧
      (∀ o, u.tagged (k + 1) p.tag = some o →
        (p.kind = 1 → o.kind = 0 → o.st = .flying → p.data.length = o.len →
          exec (.readData k p) s = .next (((u.credit k p.spec).putOp o { o with st := .buffered, data := p.data, arrived := s.now }).pump) ∧
          ∃ v, exec (.readData k p) s = .next v ∧ { o with st := .buffered, data := p.data, arrived := s.now } ∈ v.farOps) ∧
        (p.kind = 3 → o.kind = 2 → exec (.writeAck k p) s = .next ((u.credit k p.spec).writeDone o) ∧
          (o.ini < 9 → ∃ v, exec (.writeAck k p) s = .next v ∧ v.get (BR_ANS o.ini) = 2)) ∧
        (p.kind = 4 → o.kind = 2 → exec (.errorRsp k p) s = .next ((((u.credit k p.spec).writeFailed o 0).pump).pumpTwin) ∧
          (o.ini < 9 → ∃ v, exec (.errorRsp k p) s = .next v ∧ v.get (BR_ANS o.ini) = 3 ∧ v.get BR_EVT_WRFAIL = 1))) ∧
      (p.kind = 8 → exec (.credit k p) s = .next (((u.credit k p.spec).pump).pumpTwin) ∧
        (s.farOps = [] → s.twinOut = [] → ∃ v, exec (.credit k p) s = .next v ∧ v.get (CL_OPS_CREDITS k) = min 16 (s.get (CL_OPS_CREDITS k) + p.spec) ∧
          v.farOps = [] ∧ v.mem = s.mem)) ∧
      (p.kind = 6 → ∀ sfd, exec (.delayReq k p sfd) s = .next (u.sendCl k
          { kind := 7, tag := p.tag, seq := 0, ack := 0, addr := 0, len := 8, spec := p.spec, data := leBytes 4 (sfd % 2 ^ 32) ++ leBytes 4 (s.now % 2 ^ 32) }) ∧
        ∃ v q, exec (.delayReq k p sfd) s = .next v ∧ Sparse.get v.lastCl k none = some q ∧ q.kind = 7 ∧ q.tag = p.tag ∧ q.spec = p.spec ∧
          ofLe (q.data.take 4) = sfd % 2 ^ 32 ∧ ofLe (q.data.drop 4) = s.now % 2 ^ 32 ∧ s.only { v with lastCl := s.lastCl } [CL_RXS k, CL_RPL k, CL_TXS k]) ∧
      (p.kind = 5 → s.takesTime k = true → 8 ≤ p.data.length →
        (∀ sfd, sfd ≤ s.now → s.get GRP_STAT_TSTATE ≠ 2 → s.get GRP_STAT_TSTATE ≠ 3 →
          let v := ((u.set GRP_TF 0).stepNet fun _ => ofLe (p.data.take 8) + s.get (CL_DELAY_DELAY k) + (s.now - sfd)).set GRP_STAT_TSTATE 2
          exec (.time k p sfd) s = .next (v.ev 0x7127 0 (v.furlong % 2 ^ 32)) ∧
          ∃ w, exec (.time k p sfd) s = .next w ∧ w.get GRP_STAT_TSTATE = 2 ∧ w.get GRP_TF = 0 ∧
            ∀ l : Lane, w.get (TNET l.idx) = (ofLe (p.data.take 8) + s.get (CL_DELAY_DELAY k) + (s.now - sfd)) % 2 ^ 64) ∧
        ((s.get GRP_STAT_TSTATE = 2 ∨ s.get GRP_STAT_TSTATE = 3) → s.netTime = ofLe (p.data.take 8) + s.get (CL_DELAY_DELAY k) →
          ∃ v, exec (.time k p s.now) s = .next v ∧ v.get GRP_STAT_TSTATE = 3 ∧ v.get GRP_TOFS_M = 0 ∧ v.get CORR_ON = 1 ∧ v.get CORR_C = 0 ∧
            s.only v [CL_RXS k, CL_RPL k, GRP_TF, GRP_TOFS_M, CORR_ON, CORR_C, CORR_R, GRP_STAT_TSTATE])) ∧
      (exec (.badPacket k false) s = .next (s.inc (CL_ERRCNT_CRCERR k)) ∧
        ∃ v, exec (.badPacket k false) s = .next v ∧ v.get (CL_ERRCNT_CRCERR k) = s.counted (CL_ERRCNT_CRCERR k) ∧ s.only v [CL_ERRCNT_CRCERR k]) ∧
      (s.get (CL_RPL k) < 3 → ∃ v, exec (.badPacket k true) s = .next v ∧ v.get (CL_RPL k) = s.get (CL_RPL k) + 1 ∧ s.only v [CL_ERRCNT_REPLAYS k, CL_RPL k])) ∧
    (1 ≤ s.get (CL_STAT_STATE k) → s.get (CL_STAT_STATE k) ≤ 3 → ∀ ours, ∃ v, exec (.badPacket k ours) s = .next v ∧ v.get (CL_ALIGN k) = 0 ∧
      v.get (CL_ERRCNT_CRCERR k) = s.counted (CL_ERRCNT_CRCERR k) ∧ s.only v [CL_ERRCNT_CRCERR k, CL_ALIGN k]) ∧
    (s.get (CL_STAT_STATE k) = 1 → p.kind = 9 → ∀ who : ClIdent,
      (s.get (CL_ALIGN k) < 31 → ∃ v, exec (.train k p who) s = .next v ∧ v.get (CL_ALIGN k) = s.get (CL_ALIGN k) + 1 ∧ s.only v [CL_ALIGN k]) ∧
      (s.get (CL_ALIGN k) = 31 → who.devid < 4 → who.side < 2 → who.role < 4 → s.identCause k who = none →
        ∃ v, exec (.train k p who) s = .next v ∧ v.get (CL_STAT_STATE k) = 3 ∧ v.get (CL_STAT_PDEVID k) = who.devid ∧ v.get (CL_DREQ k) = 1 ∧ v.get (CL_DN k) = 0)) ∧
    (s.get (CL_STAT_STATE k) = 3 → p.kind = 7 → ∀ sfd t1, s.get (CL_DT1 k) = t1 + 1 → p.spec + 1 = s.get (CL_DREQ k) → sfd ≤ t1 + 4000 → s.get (CL_DN k) < 15 →
      let back := unsigned 32 ((ofLe (slice p.data 4 4) : Int) - ofLe (slice p.data 0 4))
      exec (.delayRsp k p sfd) s = .next ((((u.set (CL_DT1 k) 0).set (CL_DX k (s.get (CL_DN k))) (unsigned 40 ((sfd : Int) - t1 - back))).set (CL_DN k)
        (s.get (CL_DN k) + 1)).linkDelayReq k) ∧
      (s.get (CL_DREQ k) < 64 → ∃ v q, exec (.delayRsp k p sfd) s = .next v ∧ v.get (CL_DN k) = s.get (CL_DN k) + 1 ∧
        v.get (CL_DX k (s.get (CL_DN k))) = unsigned 40 ((sfd : Int) - t1 - back) ∧ v.get (CL_DREQ k) = s.get (CL_DREQ k) + 1 ∧
        Sparse.get v.lastCl k none = some q ∧ q.kind = 6 ∧ q.spec = s.get (CL_DREQ k)))) ∧
  (∀ (s : State) (k : Nat), s.powered = true → k < 4 →
    (1 ≤ s.get (CL_STAT_STATE k) → s.get (CL_STAT_STATE k) ≤ 3 →
      ∃ u, exec (.alignmentLost k) s = .next u ∧ u.get (CL_STAT_STATE k) = 0 ∧ s.only u [CL_STAT_STATE k, CL_WAITAT k, CL_ALIGN k]) ∧
    (s.get (CL_STAT_STATE k) = 4 → exec (.alignmentLost k) s = .next (s.linkLost k 0 0) ∧
      ∃ u, exec (.alignmentLost k) s = .next u ∧ u.get (CL_STAT_STATE k) = 0 ∧ u.get (CL_EVT_DOWN k) = 1 ∧ u.get (CL_DELAY_DELAY k) = 0xFF) ∧
    ((s.get (CL_STAT_STATE k) = 5 ∨ s.get (CL_STAT_STATE k) = 6) →
      ∃ u, exec (.linkWaitEnd k) s = .next u ∧ u.get (CL_STAT_STATE k) = 0 ∧ s.only u (timeFields ++ [CL_STAT_STATE k]) ∧
        (s.get FREE < 2 ^ 64 → s.get (CL_WAITAT k) + 100 * grainsMs < 2 ^ 64 → s.get (CL_WAITAT k) + 100 * grainsMs ≤ u.now)) ∧
    (s.get (CL_STAT_STATE k) = 0 → s.wanted k = true → s.blk 9 = false →
      ∃ u q, exec (.commaDetection k) s = .next u ∧ u.get (CL_STAT_STATE k) = 1 ∧ u.get (CL_ALIGN k) = 0 ∧ u.get (CL_TXS k) = (s.get (CL_TXS k) + 1) % 256 ∧
        Sparse.get u.lastCl k none = some q ∧ q.kind = 9 ∧ s.only { u with lastCl := s.lastCl } [CL_STAT_STATE k, CL_ALIGN k, CL_TXS k]))

/-- A lease message that every lane in the vote accepts, in equal copies, has its effects in order; a copy of the last
one has none; one that every lane refuses is rejected. A mirror record, snapshot request or chunk that two lanes
accept takes effect, another is rejected. A transfer that lasts 1 s is asked for again. A solo request waits for
the lease task's instant, or is refused with its reason. -/
def Obligations.TwinMessages : Prop :=
  (∀ (s : State) (net : Bool), s.powered = true → s.twinOn = true → (net = true → s.on TW_NET_NETEN = true) →
    (s.receivers.any (s.leaseAgain net) = true → exec (.leaseMessage net) s = .next s) ∧
    (s.receivers.any (s.leaseAgain net) = false →
      ((∀ l ∈ s.receivers, s.leaseCheck net l ≠ none) →
        exec (.leaseMessage net) s = .next (s.twinReject 0 (s.receivers.map fun l => (l, s.leaseCheck net l))) ∧
        ∃ u, exec (.leaseMessage net) s = .next u ∧ u.get TW_EVT_MSGREJ = 1 ∧ s.onlyAndEvents u [TW_EVT_MSGREJ, TW_EVCNT_FAULT_CNT]) ∧
      (∀ (a b : Lane) (ls : List Lane), s.receivers = a :: b :: ls → (∀ l ∈ s.receivers, s.leaseCheck net l = none ∧ s.leaseIn net l = s.leaseIn net a) →
        let m := LeaseMsg.read (s.leaseIn net a)
        let v := s.each s.receivers fun s l => (s.set (TW_RSEQ l.idx) m.seq).set (TW_RSEQE l.idx) (s.get (LN_EPOCH l.idx) + 1)
        exec (.leaseMessage net) s = .next (((((v.leaseHeard net m).missedRecords.relinquished m).conflict m).granted m).requested m) ∧
        ∃ u, exec (.leaseMessage net) s = .next u ∧ u.get TW_ASEQ = m.seq + 1 ∧ u.get TW_STAT_PROLE = m.role ∧ u.on TW_STAT_PFIT = m.fit ∧
          u.get TW_HEARD = (s.now + 1) % 2 ^ 64 ∧ (∀ l ∈ s.receivers, u.get (TW_RSEQ l.idx) = m.seq) ∧
          (m.rel = true → u.get TW_EVT_RELINQ = 1) ∧
          (m.active = true → s.role = .lead → u.get TW_EVT_CONFLICT = 1 ∧ (m.grant = false → m.req = false → u.get TW_STAT_ROLE = 4 ∧ u.get TW_STAT_ACTIVE = 0)) ∧
          (m.grant = true → s.role = .passive → u.get TW_STAT_ROLE = 2 ∧ u.get TW_STAT_ACTIVE = 1) ∧
          (m.req = true → m.grant = false → s.role = .init → u.get TW_STAT_ROLE = 3 ∧ u.get TW_STAT_ACTIVE = 0)))) ∧
  (∀ s : State, s.powered = true →
    (s.soloRefusal = 0 → ∃ u, exec .soloRequest s = .next u ∧ u.get TW_SOLOP = 1 ∧ u.get TW_SOLOSRC = 0 ∧ u.get TW_SOLOSTAT_OUTCOME = 1 ∧ u.get TW_SOLOSTAT_REASON = 0 ∧
      s.only u [TW_SOLOP, TW_SOLOSRC, TW_SOLOSTAT_OUTCOME, TW_SOLOSTAT_REASON]) ∧
    (s.soloRefusal ≠ 0 → ∃ u, exec .soloRequest s = .next u ∧ u.get TW_SOLOSTAT_OUTCOME = 3 ∧ u.get TW_SOLOSTAT_REASON = s.soloRefusal ∧ u.get TW_SOLOP = s.get TW_SOLOP ∧
      s.onlyAndEvents u [TW_SOLOSTAT_OUTCOME, TW_SOLOSTAT_REASON])) ∧
  (∀ (s : State) (t : Nat), s.powered = true → t < 16 → s.twinOn = true → s.ledElsewhere t = true →
    (∀ p, p = s.recordIn t 0x54574D41 (s.bytes (twinWin (s.slotOff t)) (s.sizeA t)) →
      (twoAccept p.2 = true → let u := (p.1.set (TW_RA t) (s.get (LAST_F t) + 1)).recordsCame t
        exec (.recordA t) s = .next (if u.shadows t then u.shadowScan t else u) ∧
        (s.shadows t = false → ∃ v, exec (.recordA t) s = .next v ∧ v.get (TW_RA t) = (s.get (LAST_F t) + 1) % 2 ^ 64 ∧ { v with fld := s.fld } = s)) ∧
      (twoAccept p.2 = false → exec (.recordA t) s = .next (p.1.twinReject 1 p.2) ∧ ∃ v, exec (.recordA t) s = .next v ∧ v.get TW_EVT_MSGREJ = 1)) ∧
    (∀ p, p = s.recordIn t 0x54574D42 (s.recordBIn t) →
      (twoAccept p.2 = true → let u := (p.1.set (TW_RB t) (s.get (LAST_F t) + 1)).recordsCame t
        exec (.recordB t) s = .next (if u.on (TW_RXON t) then (if (ofLe (slice (s.recordBIn t) 5 1)).testBit 0 then u.requestState [t] else u) else u.compareB t) ∧
        ∃ v, exec (.recordB t) s = .next v ∧ v.get (TW_RB t) = (s.get (LAST_F t) + 1) % 2 ^ 64) ∧
      (twoAccept p.2 = false → exec (.recordB t) s = .next (p.1.twinReject 2 p.2) ∧ ∃ v, exec (.recordB t) s = .next v ∧ v.get TW_EVT_MSGREJ = 1))) ∧
  (∀ s : State, s.powered = true → s.twinOn = true →
    let b := s.bytes (twinWin 0x40) 16
    let checks := s.receivers.map fun l => (l, s.requestCheck l b)
    let v := s.each ((checks.filter fun c => c.2 == none).map (·.1)) fun s l =>
      (s.set (TW_QRSEQ l.idx) (ofLe (slice b 8 4))).set (TW_QRSEQE l.idx) (s.get (LN_EPOCH l.idx) + 1)
    (twoAccept checks = false → exec .snapshotRequest s = .next (v.twinReject 4 checks) ∧ ∃ u, exec .snapshotRequest s = .next u ∧ u.get TW_EVT_MSGREJ = 1) ∧
    (twoAccept checks = true → s.role = .lead → exec .snapshotRequest s =
        .next (v.each (v.twinTasks.filter fun t => (ofLe (slice b 4 2)).testBit t) fun s t => (s.set (TW_XREQ t) 1).set (TW_XFER t) 0) ∧
      ∃ u, exec .snapshotRequest s = .next u ∧ { u with fld := s.fld } = s ∧
        ∀ t, t ∈ s.twinTasks → (ofLe (slice b 4 2)).testBit t = true → u.get (TW_XREQ t) = 1 ∧ u.get (TW_XFER t) = 0)) ∧
  (∀ s : State, s.powered = true → s.twinOn = true → s.role = .standby →
    let b := s.chunkIn
    let n := fun (i k : Nat) => ofLe (slice b i k)
    let t := n 4 1 % 16
    ∀ p, p = s.recordIn t 0x54575343 b →
      (twoAccept p.2 = false → ∃ u, exec .stateChunk s = .next u ∧ u.get TW_EVT_MSGREJ = 1) ∧
      (twoAccept p.2 = true → p.1.ledElsewhere t = true →
        (p.1.on (TW_RXON t) = false → exec .stateChunk s = .next p.1) ∧
        (p.1.on (TW_RXON t) = true → n 20 4 ≠ p.1.get (TW_RXOFF t) → exec .stateChunk s = .next (p.1.requestState [t])) ∧
        (p.1.on (TW_RXON t) = true → n 20 4 = p.1.get (TW_RXOFF t) → exec .stateChunk s =
            .next (((((p.1.set (TW_CHOFF t) (n 20 4)).set (TW_CHLEN t) (n 24 4)).put (TW_LASTC t) ((n 5 1).testBit 0)).set (TW_RXOFF t) (n 20 4 + n 24 4)).inc (TW_RXN t)) ∧
          ∃ u, exec .stateChunk s = .next u ∧ u.get (TW_CHOFF t) = n 20 4 % 2 ^ 20 ∧ u.get (TW_CHLEN t) = n 24 4 % 2 ^ 20 ∧ u.on (TW_LASTC t) = (n 5 1).testBit 0 ∧
            u.get (TW_RXOFF t) = (n 20 4 + n 24 4) % 2 ^ 20 ∧ u.get (TW_RXN t) = s.counted (TW_RXN t) ∧ { u with fld := s.fld } = s))) ∧
  (∀ (s : State) (t : Nat), s.powered = true → t < 16 → s.on (TW_RXON t) = true →
    let e := s.elapseTo (s.get (TW_RXAT t) + 1000 * grainsMs)
    exec (.resyncTimeout t) s = .next (((e.ev 0x8012 0 t 1 (s.get (TW_RXN t))).set (TW_RXAT t) e.now).requestState [t]) ∧
    ∃ u, exec (.resyncTimeout t) s = .next u ∧ u.get (TW_RXAT t) = e.now % 2 ^ 64 ∧ u.now = e.now ∧ u.on (TW_RXON t) = true)

/-- The record at the head of the queue is written into the slot of its SEQ and shown as the newest; a merged record
is rewritten in place, at the earliest 100 ms after it was last written or at the end of its window; the start
search finds the highest valid SEQ. Operating time advances by 1 ms a tick, and its word in MRAM moves on by one
place. -/
def Obligations.Recorder : Prop :=
  (∀ (s : State) (r : Rec) (q : List Rec) (n : Nat), s.powered = true → s.on REC_STAT_READY = true → s.on REC_STAT_EXHAUST = false → s.finalDue = false → s.blk 10 = false →
    s.pfailHolds = false → s.recQ = r :: q → r.seq = some n → 1 ≤ n → n < 4294967295 → n ≠ 8192 → s.on PFAIL_SEQ = false →
    (s.get REC_LOST = 0 → ∃ u, exec (.recordCommit true) s = .next u ∧ u.recQ = q ∧ u.bytes (slotAddr (seqSlot n).1 (seqSlot n).2) 32 = r.bytes ∧ u.get REC_NEWSEQ_SEQ = n ∧
      u.get REC_NEWSLOT_SLOT = (seqSlot n).2 ∧ u.on REC_NEWSLOT_AREA = (seqSlot n).1 ∧
      ∀ a, (a < slotAddr (seqSlot n).1 (seqSlot n).2 ∨ slotAddr (seqSlot n).1 (seqSlot n).2 + 32 ≤ a) → u.byte a = s.byte a) ∧
    (∃ u, exec (.recordCommit false) s = .next u ∧ u.get REC_EVT_WRERR = 1)) ∧
  (∀ (s : State) (seq : Nat) (r : Rec), s.powered = true → s.blk 10 = false → s.recRew.find? (fun x => x.seq == some seq) = some r → s.on PFAIL_SEQ = false →
    s.on GLB_SUPPLY_PFAIL = false →
    (s.opTime < r.written + 100 → s.opTime < r.time + 1000 → exec (.recordRewrite seq) s = .next s) ∧
    ((r.written + 100 ≤ s.opTime ∨ r.time + 1000 ≤ s.opTime) → (8192 < seq ∨ s.on REC_STAT_FCLOSED = false) →
      ∃ u, exec (.recordRewrite seq) s = .next u ∧ u.recRew = s.recRew.filter (fun x => x.id != r.id) ∧
        u.bytes (slotAddr (seqSlot seq).1 (seqSlot seq).2) 32 = r.bytes ∧ u.fld = s.fld)) ∧
  (∀ s : State, s.powered = true → s.on START_STEP = true → s.on REC_STAT_READY = false → s.on REC_NEWSLOT_AREA = false →
    let m := max (highest (s.validSlots false)) (highest (s.validSlots true))
    ∃ u, exec .recorderStartSearch s = .next u ∧ u.get REC_STAT_READY = 1 ∧ u.get REC_NEWSEQ_SEQ = (if m = 0 then s.get REC_NEWSEQ_SEQ else m)) ∧
  (∀ s : State, s.powered = true →
    (s.opTime + 1 < 2 ^ 48 → ∃ u, exec .operatingTimeTick s = .next u ∧ u.opTime = s.opTime + 1 ∧ u.get AON_OPT = s.opTime + 1 ∧
      u.get TICK_AT = (u.now + grainsMs) % 2 ^ 64 ∧ u.mem = s.mem) ∧
    (∀ i, s.get OPT_IDX = i → i < 16 → s.on IN_RESET = false → s.get OPT_OP + 10000 ≤ s.opTime → s.opTime < 2 ^ 48 →
      ∃ u, exec .operatingTimeSave s = .next u ∧ u.get OPT_IDX = (i + 1) % 16 ∧ u.get OPT_OP = s.opTime ∧
        ofLe (u.bytes (optWord i) 6) = s.opTime ∧ s.onlyAt u [OPT_IDX, OPT_OP] [(optWord i, 10)]) ∧
    (s.on REC_STAT_READY = true → exec .mramRefresh s =
        .next (s.ev 0xA007 0 16384 (16384 - ((s.validSlots false).length + (s.validSlots true).length))) ∧
      ∃ u, exec .mramRefresh s = .next u ∧ s.onlyAndEvents u []))

/-- The host opens a session and a kind, writes in order, verifies, activates and closes; the lapse releases the lock.
A message whose code or layout fails is discarded. A failed self-test or pause, or the end of the confirm window,
starts fallback; a pause that ends well begins probation and chooses the restart. -/
def Obligations.UpdateSessions : Prop :=
  (∀ (s : State) (r : Nat) (d : Desc), s.nextDesc r = some d → s.on REL_ON = false →
    (∀ k, d.op = 0x60 → d.p0 = k → k ≤ 4 → s.get UPD_SESSION_HOLDER = 0 → s.on (UPD_SESSION_OPEN k) = false → s.blk 1 = false → s.probation = false → s.olcBusy = false → s.safe = false →
      ∃ u : State, exec (.updOpen r) s = .next (u.finish d stSuccess) ∧ (u.finish d stSuccess).answered d stSuccess ∧ u.get UPD_SESSION_HOLDER = 1 ∧
        u.get (UPD_SESSION_OPEN k) = 1 ∧ u.get SES_KIND = k + 1 ∧ u.get UPD_SESSION_LAPSE_S = 60 ∧ u.mem = s.mem) ∧
    (s.get UPD_SESSION_HOLDER = 1 →
      (∀ (bs : List Byte) (k : Nat), d.op = 0x61 → bs.length = d.len → d.p0 % 4096 = 0 → s.get SES_KIND = k + 1 → s.on (UPD_SESSION_OPEN k) = true →
        s.on (UPD_SESSION_VERIFIED k) = false → s.get (SES_N k) = d.p0 → (d.p0 = 0 → (s.headerReasons k bs).all (fun p => !p.1) = true) →
        d.p0 + bs.length ≤ (imgHdr (if d.p0 = 0 then bs else s.bytes (s.kindDest k) 128)).total →
        exec (.updWrite r (some bs)) s = .next (((s.writeChunk k d.p0 bs).updDone bs.length).st.finish d stSuccess bs.length) ∧
        (k ≤ 4 → ∃ u, exec (.updWrite r (some bs)) s = .next u ∧ u.answered d stSuccess bs.length ∧ u.bytes (s.kindDest k + d.p0) bs.length = bs ∧
          u.get (SES_N k) = (d.p0 + bs.length) % 2 ^ 24 ∧ u.get UPD_SESSION_LAPSE_S = 60)) ∧
      (d.op = 0x62 → (maskKinds 5 s.openMask).isEmpty = false →
        let todo := (maskKinds 5 s.openMask).filter fun k => !s.on (UPD_SESSION_VERIFIED k)
        (∀ k ∈ todo, s.sesWhole k = true ∧ (s.verifyReasons k).find? (fun p => p.1) = none) →
        let u := s.each todo State.verifyKind
        let v := if u.openMask % 8 ≠ 0 ∧ u.verifiedMask % 8 = u.openMask % 8 then u.setJournal 2 (u.openMask % 8) else u
        exec (.updVerify r) s = .next ((v.updDone 0).st.finish d stSuccess) ∧
        ∃ w, exec (.updVerify r) s = .next w ∧ w.answered d stSuccess ∧ ∀ k ∈ todo, w.get (UPD_SESSION_VERIFIED k) = 1) ∧
      (d.op = 0x63 → s.openMask ≠ 0 → s.verifiedMask = s.openMask → s.checksPass s.openMask = true → s.prog = .stop → s.standPermit = true → s.laneAway = false → s.safe = false →
        s.probation = false → s.olcBusy = false →
        let u := if s.openMask.testBit 4 then s.enrol else s
        let v := if s.openMask % 16 = 0 then u.ev 0x9008 0 s.openMask 1 0 else u.beginPause 1 (s.openMask % 16)
        exec (.updActivate r) s = .next ((v.closeKinds.updDone 0).st.finish d stSuccess) ∧
        ∃ w, exec (.updActivate r) s = .next w ∧ w.answered d stSuccess ∧ (∀ k, k < 5 → w.get (UPD_SESSION_OPEN k) = 0) ∧
          (s.openMask % 16 ≠ 0 → w.get ACT_STEP = 1)) ∧
      (∀ im, d.op = 0x64 → s.openMask = 2 → s.verifiedMask = 2 → logicOf (s.sesImage 1) = some im → s.olcRefusal im (imgHdr (s.sesImage 1)).olc = 0 →
        let u := State.set { s with olcImage := some im.withWorst } DBG_OLC_STATE 1
        exec (.updApplyOnline r) s = .next ((((((u.set DBG_OLC_ABORT 0).set SES_APPLIED 1).restore (OLC_OK 0) 3).updDone 0).st).await d) ∧
        ∃ w, exec (.updApplyOnline r) s = .next w ∧ w.waits d ∧ w.get DBG_OLC_STATE = 1 ∧ w.olcImage = some im.withWorst ∧ w.mem = s.mem) ∧
      (d.op = 0x65 → exec (.updClose r) s = .next ((s.release 0).finish d stSuccess) ∧
        ∃ w, exec (.updClose r) s = .next w ∧ w.answered d stSuccess ∧ w.get UPD_SESSION_HOLDER = 0 ∧ ∀ k, k < 5 → w.get (UPD_SESSION_OPEN k) = 0))) ∧
  (∀ s : State, s.powered = true →
    (s.on UPD_SESSION_HOLDER = true → exec .sessionLapse s = .next ((s.elapseTo (s.get SES_AT + 60000 * grainsMs)).release 1) ∧
      ∃ u, exec .sessionLapse s = .next u ∧ u.get UPD_SESSION_HOLDER = 0 ∧ u.get UPD_SESSION_LAPSE_S = 0 ∧ ∀ k, k < 5 → u.get (UPD_SESSION_OPEN k) = 0) ∧
    (∀ b, b = s.bytes (flowBuf (s.get UPD_NET_RXFLOW)) 1464 → s.on UPD_NET_NETEN = true →
      let n := ofLe (slice b 16 2)
      (1440 < n → exec (.updateSessionMessage true) s = .next (s.ev 0x9011 0 2 1) ∧ ∃ u, exec (.updateSessionMessage true) s = .next u ∧ s.onlyAndEvents u []) ∧
      (n ≤ 1440 → ofLe (slice b (20 + n) 4) ≠ crc32c (b.take (20 + n)) → exec (.updateSessionMessage true) s = .next (s.ev 0x9011 0 2 0) ∧
        ∃ u, exec (.updateSessionMessage true) s = .next u ∧ s.onlyAndEvents u []) ∧
      (n = 0 → ofLe (slice b 20 4) = crc32c (b.take 20) → ofLe (slice b 0 4) = 0x54575550 → ofLe (slice b 18 2) = 0 → ofLe (slice b 4 1) = 0x65 → ofLe (slice b 5 1) = 0 →
        s.get UPD_SESSION_HOLDER = 2 → s.get (UPD_ID 2) ≠ ofLe (slice b 6 2) + 1 →
        exec (.updateSessionMessage true) s =
          .next ((((s.set (UPD_ID 2) (ofLe (slice b 6 2) + 1)).set (UPD_LOP 2) 0x65).release 0).updReply 2 stSuccess 0) ∧
        ∃ u, exec (.updateSessionMessage true) s = .next u ∧ u.get UPD_SESSION_HOLDER = 0 ∧ u.get (UPD_ID 2) = ofLe (slice b 6 2) + 1 ∧ u.get (UPD_LOP 2) = 0x65 ∧
          u.get (UPD_LST 2) = stSuccess)) ∧
    (s.get ACT_STEP = 1 → s.actKinds.testBit 0 = true →
      (∃ u, exec (.firmwareSelfTest true) s = .next u ∧ u.get FW_TESTED = 1 ∧ u.get ACT_STEP = 2 ∧ s.only u [FW_TESTED, ACT_STEP]) ∧
      exec (.firmwareSelfTest false) s = .next (s.updFallback 2) ∧
      (s.prog = .stop → s.on FB_PEND = false → s.on SNAP_BUSY = false → ∃ u, exec (.firmwareSelfTest false) s = .next u ∧ u.get UPD_STAT_LAST = 2 ∧
        u.get UPD_STAT_FBCAUSE = 2 ∧ u.get UPD_EVT_FALLBACK = 1 ∧ u.get ACT_STEP = 0 ∧ u.get UPD_STAT_PROB = 0)) ∧
    (s.get ACT_STEP = 4 →
      let m := s.actKinds
      let u := (s.loadWindow (Lane.all.filter s.inVote)).set ACT_STEP 0
      let v := ((u.ev 0x9008 0 m (u.get ACT_SRC) ((u.now - u.get ACT_AT) / grainsMs)).beginProbation m).showImages.set AUTO_DUE 1
      exec (.activationPauseEnd false) s = .next (s.updFallback 3) ∧
      exec (.activationPauseEnd true) s = .next (if m.testBit 1 || m.testBit 2 then v.set FIRST_RUN 2 else v).chooseRestart ∧
      ∃ w, exec (.activationPauseEnd true) s = .next w ∧ w.get ACT_STEP = 0 ∧ w.get UPD_STAT_PROB = 1 ∧ w.get UPD_STAT_PKINDS = m ∧ w.get AUTO_DUE = 1 ∧
        ((m.testBit 1 || m.testBit 2) = true → w.get FIRST_RUN = 2)) ∧
    (s.on UPD_STAT_PROB = true → s.on FB_PEND = false → s.get PROB_FROM + 1000 * s.get UPD_CFG_CWIN ≤ s.opTime → exec .confirmWindowExpiry s = .next (s.updFallback 0) ∧
      (s.prog = .stop → s.on SNAP_BUSY = false → ∃ u, exec .confirmWindowExpiry s = .next u ∧ u.get UPD_STAT_LAST = 2 ∧ u.get UPD_STAT_FBCAUSE = 0 ∧
        u.get UPD_EVT_FALLBACK = 1 ∧ u.get ACT_STEP = 0 ∧ u.get UPD_STAT_PROB = 0)))

/-- An accepted request is pending for its consent, a refused one shows its reason; a withdrawal rolls an entry back.
The block that is asked stops or has the sequence rolled back; one without an answer in 25 ms refuses. A wake
source begins the wake steps, each of which leads to the next or, late, powers the device down for 100 ms. PFAIL_N
freezes the committed copies and starts their snapshot. -/
def Obligations.PowerStates : Prop :=
  (∀ s : State, s.powered = true →
    (∀ target, 1 ≤ target → target ≤ 4 →
      (s.powerRefusal target = 0 → s.olcBusy = false → ∃ u, exec (.powerRequest target) s = .next u ∧ u.get PW_PHASE = 1 ∧ u.get PW_TGT = target ∧ u.get PWR_STATUS_OUTCOME = 1 ∧
        u.get PWR_STATUS_TARGET = target ∧ u.get PWR_STATUS_SOURCE = 0) ∧
      (s.powerRefusal target ≠ 0 → ∃ u, exec (.powerRequest target) s = .next u ∧ u.get PWR_STATUS_OUTCOME = 3 ∧ u.get PWR_STATUS_REASON = s.powerRefusal target ∧
        u.get PW_PHASE = s.get PW_PHASE ∧ u.get PWR_EVT_REFUSED = 1)) ∧
    (s.on PW_PHASE = true → exec .powerWithdraw s = .next ((s.set PWR_REQ_TARGET 0).powerBack 9 0) ∧
      ∃ u, exec .powerWithdraw s = .next u ∧ u.get PW_PHASE = 0 ∧ u.get PWR_STATUS_OUTCOME = 3 ∧ u.get PWR_STATUS_REASON = 9 ∧ u.get PWR_EVT_REFUSED = 1) ∧
    (s.get PW_PHASE = 0 → s.get PW_STATE = 1 → s.on WK_STEP = false → exec .powerWithdraw s = .next ((s.set PWR_REQ_TARGET 0).beginWake 8) ∧
      ∃ u, exec .powerWithdraw s = .next u ∧ u.get WK_SRC = 8 ∧ u.get WK_FROM = 1 ∧ u.get WK_STEP = 4 ∧ u.get WK_US = 0 ∧
        s.only { u with wakeSeen := s.wakeSeen } [PWR_REQ_TARGET, WK_SRC, WK_FROM, WK_US, WK_TRY, WK_STEP, WK_DOWN, WK_LOST]) ∧
    (s.get PW_PHASE = 3 → ∀ n, s.get PWR_STATUS_STEP = n → 1 ≤ n → n ≤ 13 →
      (∀ f, s.blockAnswer n f = some true → exec (.blockAnswer f) s = .next (s.acceptBlock n) ∧
        ∃ u, exec (.blockAnswer f) s = .next u ∧ u.get (PWR_BLK_STOPPED (n - 1)) = 1 ∧ (∀ k, nextStep (s.get PW_TGT) n = some k → u.get PWR_STATUS_STEP = k) ∧
          (nextStep (s.get PW_TGT) n = none → u.get PW_PHASE = 0 ∧ u.get PW_STATE = s.get PW_TGT % 8 ∧ u.get PWR_STATUS_OUTCOME = 2)) ∧
      (∀ f, s.blockAnswer n f = some false → exec (.blockAnswer f) s = .next (s.powerBack 7 n) ∧
        ∃ u, exec (.blockAnswer f) s = .next u ∧ u.get PW_PHASE = 0 ∧ u.get PWR_STATUS_OUTCOME = 3 ∧ u.get PWR_STATUS_REASON = 7 ∧ u.get PWR_STATUS_REFUSER = n) ∧
      (∀ f, s.blockAnswer n f = none → exec (.blockAnswer f) s = .next s) ∧
      (n ≠ 3 → exec .blockAnswerTimeout s = .next ((s.elapseTo (s.get PW_ASK_AT + 25 * grainsMs)).powerBack 7 n) ∧
        ∃ u, exec .blockAnswerTimeout s = .next u ∧ u.get PW_PHASE = 0 ∧ u.get PWR_STATUS_OUTCOME = 3 ∧ u.get PWR_STATUS_REASON = 7 ∧ u.get PWR_STATUS_REFUSER = n))) ∧
  (∀ s : State, s.get PW_PHASE ≠ 3 → s.on PW_STATE = true → s.on WK_STEP = false → s.on WK_DOWN = false → s.get PW_STATE ≤ 4 →
    let wakes := fun (src : Nat) (u : State) => u.get WK_SRC = src ∧ u.get WK_FROM = s.get PW_STATE ∧ u.get WK_STEP = firstStep (s.get PW_STATE) ∧ u.get WK_TRY = 0 ∧
      s.only { u with wakeSeen := s.wakeSeen } [WK_SRC, WK_FROM, WK_US, WK_TRY, WK_STEP, WK_DOWN, WK_LOST]
    (s.on PWR_WCFG_WAKEN_EN = true → exec (.wakePin 1) s = .next (s.beginWake 1) ∧ ∃ u, exec (.wakePin 1) s = .next u ∧ wakes 1 u) ∧
    (∀ i, i < 4 → s.on (PWR_WCFG_LW_EN i) = true → s.on WF_FINAL = false → exec (.wakePin (2 + i)) s = .next (s.beginWake (2 + i)) ∧
      ∃ u, exec (.wakePin (2 + i)) s = .next u ∧ wakes (2 + i) u) ∧
    (s.on PWR_WCFG_PCIE_EN = true → s.get PW_STATE = 2 → exec .pcieActivityWake s = .next (s.beginWake 7) ∧ ∃ u, exec .pcieActivityWake s = .next u ∧ wakes 7 u)) ∧
  (∀ s : State, s.get PW_PHASE = 3 → s.on PWR_WCFG_WAKEN_EN = true → exec (.wakePin 1) s = .next (s.powerBack 8 0) ∧
    ∃ u, exec (.wakePin 1) s = .next u ∧ u.get PW_PHASE = 0 ∧ u.get PWR_STATUS_OUTCOME = 3 ∧ u.get PWR_STATUS_REASON = 8 ∧ u.get PWR_EVT_REFUSED = 1) ∧
  (∀ (s : State) (us lost n : Nat) (fail : List Lane), s.get WK_STEP = n → 1 ≤ n → us ≤ stepLimit n →
    (n < 4 → s.get WK_FROM ≠ 1 → ∃ u, exec (.wakeStepReady us fail lost) s = .next u ∧ u.get WK_STEP = n + 1 ∧ u.get WK_US = min (s.get WK_US + us) (2 ^ 32 - 1) ∧
      s.only u [WK_US, WK_LOST, WK_STEP]) ∧
    (n = 4 → 2 ≤ (s.passing fail).length →
      let v := s.add WK_US us
      exec (.wakeStepReady us fail lost) s = .next ((if s.get WK_FROM = 1 then v.elapse (us * grainsUs) else v).wakeLast fail) ∧
      ∃ u, exec (.wakeStepReady us fail lost) s = .next u ∧ u.get WK_STEP = 0 ∧ u.get PW_STATE = 0 ∧
        (s.get PW_STATE ≤ 2 → u.get PWR_STATUS_STATE = 0 ∧ u.get PWR_WAKE_SRC = s.get WK_SRC % 16) ∧
        (2 < s.get PW_STATE → u.get IN_RESET = 1 ∧ u.get START_CAUSE = s.wakeCause)) ∧
    (let w := n + 8 * bit (s.get WK_TRY == 3) + 16 * s.get WK_TRY + 64 * s.get WK_FROM
     let v := (((((s.latchFault w).remains 0).set PW_STATE 4).set WK_KEEP 0).set WK_LOST 0)
     exec .wakeStepTimeout s = .next (((v.add WK_US (stepLimit n)).set WK_STEP 0).set (if s.get WK_TRY = 3 then WF_FINAL else WK_DOWN) 1) ∧
     ∃ u, exec .wakeStepTimeout s = .next u ∧ u.get PW_STATE = 4 ∧ u.get WK_KEEP = 0 ∧ u.get WK_STEP = 0 ∧
       (if s.get WK_TRY = 3 then u.get WF_FINAL = 1 else u.get WK_DOWN = 1))) ∧
  (∀ s : State, s.on WK_DOWN = true → ∃ u, exec .wakeRetry s = .next u ∧ u.get WK_DOWN = 0 ∧ u.get WK_STEP = 1 ∧ u.get WK_TRY = min (s.get WK_TRY + 1) 3 ∧
    u.get WK_US = min (s.get WK_US + 100000) (2 ^ 32 - 1) ∧ s.only u [WK_DOWN, WK_STEP, WK_TRY, WK_US]) ∧
  (∀ s : State,
    (s.on GLB_SUPPLY_PFAIL = false →
      (s.powered = false → ∃ u, exec .pfailAssert s = .next u ∧ u.get GLB_SUPPLY_PFAIL = 1 ∧ s.only u [GLB_SUPPLY_PFAIL, PFAIL_AT]) ∧
      (s.powered = true →
        let v := (s.set GLB_SUPPLY_PFAIL 1).set PFAIL_AT s.now
        let w := ((v.raise PWR_EVT_PFAIL PWR_EVCNT_OTHER_CNT).ev 0x0002 0 s.recQ.length).powerBack 10 0
        w.image.isSome = true → exec .pfailAssert s = .next ((((w.set SNAP_FROZEN 1).set PFAIL_SEQ 1).startSnapshot.relinquish 1 true).pfailStep) ∧
        ∃ u, exec .pfailAssert s = .next u ∧ u.get GLB_SUPPLY_PFAIL = 1 ∧ u.get PWR_EVT_PFAIL = 1 ∧ u.get SNAP_FROZEN = 1 ∧ u.get PFAIL_SEQ = 1 ∧
          u.on SNAP_BUSY = true ∧ u.get PW_PHASE = 0)) ∧
    (s.on GLB_SUPPLY_PFAIL = true → s.powered = true → ∃ u, exec .pfailRelease s = .next u ∧ u.get GLB_SUPPLY_PFAIL = 0 ∧ u.get SNAP_FROZEN = 0 ∧
      s.onlyAndEvents u [GLB_SUPPLY_PFAIL, SNAP_FROZEN]))

/-- A lost supply, PORST_N and TEST_EN reset the device, each with its cause; in OFF and DEEP SLEEP they do not. A
lane whose rail falls ends its scans and lets go of its outputs. A new always-on supply starts the device as a
wake from OFF with nothing kept. Internal reset is released with the straps; then MRAM, the logic image and the
configuration set follow in this order, and the same images follow in an activation. -/
def Obligations.ResetsAndStart : Prop :=
  (∀ s : State, s.get PW_STATE ≤ 3 →
    exec (.supplyLoss 0) s = .next ((s.deviceReset 0).set GLB_SUPPLY_PG_CORE 0) ∧ exec (.supplyLoss 1) s = .next ((s.deviceReset 0).set GLB_SUPPLY_PG_IO 0) ∧
    exec (.supplyLoss 2) s = .next (s.deviceReset 0) ∧ exec (.supplyLoss 3) s = .next ((s.deviceReset 0).set GLB_SUPPLY_MRAM_OK 0) ∧
    exec (.supplyLoss 4) s = .next ((s.deviceReset 0).set GLB_SUPPLY_GP_OK 0) ∧
    (∀ which, which < 5 → ∃ u, exec (.supplyLoss which) s = .next u ∧ u.get IN_RESET = 1 ∧ u.get START_CAUSE = 0 ∧ u.get PW_STATE = 0 ∧ u.get WK_STEP = 0 ∧ u.descs = [] ∧
      u.recQ = [] ∧ (which = 0 → u.get GLB_SUPPLY_PG_CORE = 0) ∧ (which = 1 → u.get GLB_SUPPLY_PG_IO = 0) ∧ (which = 3 → u.get GLB_SUPPLY_MRAM_OK = 0) ∧
      (which = 4 → u.get GLB_SUPPLY_GP_OK = 0))) ∧
  (∀ s : State,
    (s.on IN_RESET = true → ∃ u, exec .pgValid s = .next u ∧ u.get GLB_SUPPLY_PG_CORE = 1 ∧ u.get GLB_SUPPLY_PG_IO = 1 ∧ u.get GLB_SUPPLY_MRAM_OK = 1 ∧ u.get GLB_SUPPLY_GP_OK = 1 ∧
      s.only u [GLB_SUPPLY_PG_CORE, GLB_SUPPLY_PG_IO, GLB_SUPPLY_MRAM_OK, GLB_SUPPLY_GP_OK]) ∧
    (∀ l : Lane,
      (s.on (LANE_RESET l.idx) = false → s.powered = true → exec (.laneRailLow l) s =
          .next ((((s.set (LANE_RESET l.idx) 1).set (GLB_SUPPLY_LANE_OK l.idx) 0).each tasks fun s t => s.dropScan l t).driveOff l) ∧
        ∃ u, exec (.laneRailLow l) s = .next u ∧ u.get (LANE_RESET l.idx) = 1 ∧ u.get (GLB_SUPPLY_LANE_OK l.idx) = 0 ∧
          (∀ c p, c < 64 → p < 2 → u.get (DRIVE l.idx c p) = 0) ∧ (∀ t, t < 16 → u.ctx l t = Ctx.start) ∧ u.mem = s.mem) ∧
      (s.on (LANE_RESET l.idx) = false → s.powered = false → ∃ u, exec (.laneRailLow l) s = .next u ∧ u.get (LANE_RESET l.idx) = 1 ∧
        u.get (GLB_SUPPLY_LANE_OK l.idx) = 0 ∧ s.only u [LANE_RESET l.idx, GLB_SUPPLY_LANE_OK l.idx]) ∧
      (s.on (LANE_RESET l.idx) = true → ∃ u, exec (.laneRailRestored l) s = .next u ∧ u.get (LANE_RESET l.idx) = 0 ∧ u.get (GLB_SUPPLY_LANE_OK l.idx) = 1 ∧
        s.only u [LANE_RESET l.idx, GLB_SUPPLY_LANE_OK l.idx])) ∧
    (s.on TEST_EN = false → exec .testEnRise s = .next (if s.get PW_STATE ≤ 2 then (s.set TEST_EN 1).deviceReset 2 else s.set TEST_EN 1) ∧
      ∃ u, exec .testEnRise s = .next u ∧ u.get TEST_EN = 1 ∧ (s.get PW_STATE ≤ 2 → u.get IN_RESET = 1 ∧ u.get START_CAUSE = 2) ∧
        (2 < s.get PW_STATE → s.only u [TEST_EN])) ∧
    (s.on TEST_EN = true → ∃ u, exec .testEnFall s = .next u ∧ u.get TEST_EN = 0 ∧ u.get TAP_IR = (if 2 ≤ s.get TAP_IR then 0 else s.get TAP_IR) ∧ s.only u [TEST_EN, TAP_IR, TAP_DR]) ∧
    (s.on PORST_LOW = false →
      (3 ≤ s.get PW_STATE → exec .porstN s = .next (s.set PORST_LOW 1) ∧ ∃ u, exec .porstN s = .next u ∧ u.get PORST_LOW = 1 ∧ s.only u [PORST_LOW]) ∧
      (s.get PW_STATE ≤ 2 → s.on GLB_SUPPLY_PFAIL = false → exec .porstN s = .next ((s.set PORST_LOW 1).deviceReset 1) ∧
        ∃ u, exec .porstN s = .next u ∧ u.get PORST_LOW = 1 ∧ u.get IN_RESET = 1 ∧ u.get START_CAUSE = 1) ∧
      (s.powered = true → s.on GLB_SUPPLY_PFAIL = true → s.on PFAIL_SEQ = true → exec .porstN s = .next ((s.set PORST_LOW 1).set PORST_DEFER 1) ∧
        ∃ u, exec .porstN s = .next u ∧ u.get PORST_LOW = 1 ∧ u.get PORST_DEFER = 1 ∧ s.only u [PORST_LOW, PORST_DEFER])) ∧
    (s.on PORST_LOW = true → exec .porstNRelease s = .next (s.set PORST_LOW 0) ∧ ∃ u, exec .porstNRelease s = .next u ∧ u.get PORST_LOW = 0 ∧ s.only u [PORST_LOW]) ∧
    (∃ u, exec .aonPowerOn s = .next u ∧ u.get PW_STATE = 4 ∧ u.get WK_STEP = 1 ∧ u.get WK_FROM = 4 ∧ u.get WK_SRC = 0 ∧ u.get AON_OK = 0 ∧ u.get WF_N = 0 ∧ u.get PCIE_WAKE = 0)) ∧
  (∀ (s : State) (devid side us : Nat) (fail : List Lane), s.mayStart = true → devid < 4 → side < 2 → us ≤ 500 →
    exec (.internalResetRelease devid side us fail) s = .next (s.release450 devid side us fail) ∧
    ∃ u, exec (.internalResetRelease devid side us fail) s = .next u ∧ u.get IN_RESET = 0 ∧ u.get RELEASED = 1 ∧ u.get START_STEP = 0 ∧ u.get GLB_STRAP_DEVID = devid ∧
      u.get GRP_STAT_DEVID = devid ∧ u.get GLB_STRAP_TWIN_SIDE = side ∧ u.get START_US = us ∧ u.get TB_STATUS_PLL_LOCK = 1) ∧
  (∀ s : State, s.powered = true →
    (s.on RELEASED = true → s.get START_STEP = 0 → s.get NV_JSTATE = 0 →
      let u := (((s.set UPD_ACTSET_ACTIVE (s.get NV_SETACT)).set UPD_FUSE_USED (s.get NV_FUSE)).set START_STEP 1).set UPD_STAT_JSTATE 0
      ((∀ k, k < 4 → u.kindEmpty k = true) → exec .mramReady s = .next ((u.recoverFloors.put UPD_ACTSET_PREV u.inactiveValid).showKeys.showImages)) ∧
      ∃ v, exec .mramReady s = .next v ∧ v.get START_STEP = 1 ∧ ∀ k, k < 3 → s.kindEmpty k = false → v.on (KIND_OK k) = s.kindValid k) ∧
    (s.get START_STEP = 1 → exec (.logicImageLoaded true) s = .next (s.loadLogic.showImages.set START_STEP 2) ∧
      (∃ u, exec (.logicImageLoaded true) s = .next u ∧ u.get START_STEP = 2) ∧
      (s.on (KIND_OK 1) = true → ∃ u, exec (.logicImageLoaded false) s = .next u ∧ u.get START_STEP = 2 ∧ u.image = none ∧ u.get (KIND_OK 1) = 0 ∧ u.get (START_BAD 1) = 1)) ∧
    (s.get START_STEP ≠ 1 → s.get ACT_STEP = 2 →
      exec (.logicImageLoaded true) s = .next ((if s.actKinds.testBit 1 then s.loadLogic else s).set ACT_STEP 3) ∧ exec (.logicImageLoaded false) s = .next (s.updFallback 3) ∧
      ∃ u, exec (.logicImageLoaded true) s = .next u ∧ u.get ACT_STEP = 3) ∧
    (s.get START_STEP = 2 →
      let u := ((s.loadConfig.set PHYRST 1).set START_STEP 3).set HIF_STATUS_READY 1
      let u' := (u.set START_OP (u.opTime % 2 ^ 32)).set OPT_OP u.opTime
      let v := u'.set GLB_START_CFG_MS ((u'.get START_US + u'.now / grainsUs) / 1000)
      let w := if v.get START_CAUSE = 1 ∨ v.get START_CAUSE = 2 then v else v.wakeRebroadcast
      exec (.configurationSetApplied true) s = .next ((w.loadWindow (Lane.all.filter w.inVote)).chooseRestart) ∧
      ∃ x, exec (.configurationSetApplied true) s = .next x ∧ x.get START_STEP = 3 ∧ x.get PHYRST = 1 ∧ x.get HIF_STATUS_READY = 1) ∧
    (s.get START_STEP ≠ 2 → s.get ACT_STEP = 3 →
      exec (.configurationSetApplied true) s = .next ((if s.actKinds.testBit 2 then s.loadConfig else s).set ACT_STEP 4) ∧
      ∃ u, exec (.configurationSetApplied true) s = .next u ∧ u.get ACT_STEP = 4))

/-- A word write stores the read-write fields of its register, submits what a write-only bit asks, and clears the W1C
fields that it writes with ones, in this order; while the host cannot write BAR0 it does nothing. A W1C flag
written with 1 is cleared, unless its hardware set comes in the same moment: then it stays. The TAP shows IDCODE
0x13C64E7B, and its boundary-scan instructions act as BYPASS while TEST_EN is low. -/
def Obligations.RegisterWritesAndTap : Prop :=
  (∀ (s : State) (a v : Nat), s.powered = true → a % 4 = 0 → v < 2 ^ 32 →
    (s.barOpen = false → exec (.registerWrite a v) s = .next s ∧ exec (.w1cClear a v 0) s = .next s) ∧
    (s.barOpen = true →
      (¬ (0xD000 ≤ a ∧ a < 0xE000) → ¬ (0x5100 ≤ a ∧ a < 0x5500) → a ≠ 0x8020 →
        exec (.registerWrite a v) s = .next ((((s.regStore a v).coreAction a v).busAction a v).writeOnes a v 0)) ∧
      (a = 0x8034 → ∃ u, exec (.registerWrite a v) s = .next u ∧ u.get TN_RODSEL_INDEX = v % 1024 ∧ u.get TN_RODSEL_CHAN = v / 1024 % 2 ∧
        u.get TN_RODSEL_BANK = v / 2048 % 2 ∧ s.only u [TN_RODSEL_INDEX, TN_RODSEL_CHAN, TN_RODSEL_BANK]) ∧
      (a = 0x8048 → ∃ u, exec (.registerWrite a v) s = .next u ∧ u.get TN_FLOWSEL_FLOW = v % 512 ∧ s.only u [TN_FLOWSEL_FLOW]) ∧
      (a = 0x905C → ∃ u, exec (.registerWrite a v) s = .next u ∧ u.get TN_WAKEMASK0_NODES = v ∧ s.only u [TN_WAKEMASK0_NODES]) ∧
      (∀ t i, t < 16 → i < 8 → a = 0x5100 + 64 * t + 4 * i → s.unlocked 0 = true → ∃ u, exec (.registerWrite a v) s = .next u ∧
        u.get (DBG_BP_INDEX t i) = v % 2 ^ 18 ∧ u.get (DBG_BP_COUNT t i) = v / 2 ^ 18 % 256 ∧ u.get (DBG_BP_EN t i) = v / 2 ^ 31) ∧
      (∀ i, i ∈ w1cBits a →
        (∃ u, exec (.w1cClear a (2 ^ i) 0) s = .next u ∧ u.get ⟨a, i, 1, 0⟩ = 0 ∧ s.only u [⟨a, i, 1, 0⟩]) ∧
        (∃ u, exec (.w1cClear a (2 ^ i) (2 ^ i)) s = .next u ∧ u.get ⟨a, i, 1, 0⟩ = 1 ∧
          ∀ f : Fld, f.key ≠ (⟨a, i, 1, 0⟩ : Fld).key → (∀ c, companionOf a i = some c → f.key ≠ c.key) → u.get f = s.get f)))) ∧
  (∀ (s : State) (v : Nat), s.powered = true → s.barOpen = true → v < 2 ^ 32 →
    exec (.registerWrite 0 v) s = .next s) ∧
  (∀ s : State, s.get PW_STATE ≤ 2 →
    (∃ u, exec .bypass s = .next u ∧ u.get TAP_IR = 0 ∧ u.get TAP_DR = 0 ∧ s.only u [TAP_IR, TAP_DR]) ∧
    (∃ u, exec .idcode s = .next u ∧ u.get TAP_IR = 1 ∧ u.get TAP_DR = 0x13C64E7B ∧ s.only u [TAP_IR, TAP_DR]) ∧
    (s.on TEST_EN = true →
      (∃ u, exec .samplePreload s = .next u ∧ u.get TAP_IR = 2 ∧ s.only { u with freeCount := s.freeCount } [TAP_IR, TAP_BSR]) ∧
      (∃ u, exec .extest s = .next u ∧ u.get TAP_IR = 3 ∧ s.only { u with freeCount := s.freeCount } [TAP_IR, TAP_BSR] ∧
        (s.get TAP_IR = 2 → u.get TAP_BSR = s.get TAP_BSR))) ∧
    (s.on TEST_EN = false → exec .samplePreload s = exec .bypass s ∧ exec .extest s = exec .bypass s))
end

