-- ==== Sys2Proof/Laws/Sparse.lean ====
section
/-! SUPPORT. The laws of sparse tables: what is read after a write, and that every operation keeps the keys rising. -/

namespace Sys2Proof.Machine.Sparse

variable {α : Type}

theorem rising_mono {lo lo' : Nat} {m : List (Nat × α)} (h : lo' ≤ lo) (hm : rising lo m = true) : rising lo' m = true := by
  cases m with
  | nil => rfl
  | cons p r =>
    obtain ⟨k, v⟩ := p
    simp only [rising, Bool.and_eq_true, decide_eq_true_eq] at hm ⊢
    exact ⟨Nat.le_trans h hm.1, hm.2⟩

theorem rising_put {lo k : Nat} {m : List (Nat × α)} (v : α) (hk : lo ≤ k) (hm : rising lo m = true) :
    rising lo (put m k v) = true := by
  induction m generalizing lo with
  | nil => simp [put, rising, hk]
  | cons p r ih =>
    obtain ⟨k', v'⟩ := p
    simp only [rising, Bool.and_eq_true, decide_eq_true_eq] at hm
    simp only [put]
    split
    · rename_i h
      simp only [rising, Bool.and_eq_true, decide_eq_true_eq]
      exact ⟨hk, h, hm.2⟩
    · split
      · rename_i h
        subst h
        simp only [rising, Bool.and_eq_true, decide_eq_true_eq]
        exact ⟨hk, hm.2⟩
      · simp only [rising, Bool.and_eq_true, decide_eq_true_eq]
        exact ⟨hm.1, ih (by omega) hm.2⟩

theorem rising_filter {lo : Nat} {m : List (Nat × α)} (p : Nat × α → Bool) (hm : rising lo m = true) :
    rising lo (m.filter p) = true := by
  induction m generalizing lo with
  | nil => rfl
  | cons q r ih =>
    obtain ⟨k, v⟩ := q
    simp only [rising, Bool.and_eq_true, decide_eq_true_eq] at hm
    rw [List.filter_cons]
    split
    · simp only [rising, Bool.and_eq_true, decide_eq_true_eq]
      exact ⟨hm.1, ih hm.2⟩
    · exact rising_mono (Nat.le_succ_of_le hm.1) (ih hm.2)

theorem rising_del {m : List (Nat × α)} (k : Nat) (hm : rising 0 m = true) : rising 0 (del m k) = true :=
  rising_filter _ hm

theorem rising_set [DecidableEq α] {m : List (Nat × α)} (k : Nat) (d v : α) (hm : rising 0 m = true) :
    rising 0 (set m k d v) = true := by
  unfold set
  split
  · exact rising_del k hm
  · exact rising_put v (Nat.zero_le k) hm

theorem rising_clear {m : List (Nat × α)} (lo n : Nat) (hm : rising 0 m = true) : rising 0 (clear m lo n) = true :=
  rising_filter _ hm

theorem rising_copy {m : List (Nat × α)} (src dst n : Nat) (hm : rising 0 m = true) :
    rising 0 (copy m src dst n) = true := by
  unfold copy
  generalize range m src n = l
  have hc : rising 0 (clear m dst n) = true := rising_clear dst n hm
  generalize clear m dst n = c at hc
  induction l generalizing c with
  | nil => exact hc
  | cons p r ih => exact ih _ (rising_put _ (Nat.zero_le _) hc)

theorem mem_put {m : List (Nat × α)} {k : Nat} {v : α} {x : Nat × α} (h : x ∈ put m k v) : x = (k, v) ∨ x ∈ m := by
  induction m with
  | nil => simpa [put] using h
  | cons p r ih =>
    obtain ⟨k', v'⟩ := p
    simp only [put] at h
    split at h
    · simpa using h
    · split at h
      · simp only [List.mem_cons] at h ⊢
        exact h.imp id .inr
      · simp only [List.mem_cons] at h ⊢
        rcases h with h | h
        · exact .inr (.inl h)
        · rcases ih h with h | h
          · exact .inl h
          · exact .inr (.inr h)

theorem mem_copy {m : List (Nat × α)} {src dst n : Nat} {x : Nat × α} (h : x ∈ copy m src dst n) :
    (∃ p ∈ m, src ≤ p.1 ∧ p.1 < src + n ∧ x = (p.1 - src + dst, p.2)) ∨ (x ∈ m ∧ ¬ (dst ≤ x.1 ∧ x.1 < dst + n)) := by
  have key : ∀ (l : List (Nat × α)) (c : List (Nat × α)),
      x ∈ l.foldl (fun acc p => put acc (p.1 - src + dst) p.2) c →
        (∃ p ∈ l, x = (p.1 - src + dst, p.2)) ∨ x ∈ c := by
    intro l
    induction l with
    | nil => intro c hx; exact .inr hx
    | cons p r ih =>
      intro c hx
      rcases ih _ hx with ⟨q, hq, rfl⟩ | h'
      · exact .inl ⟨q, List.mem_cons_of_mem _ hq, rfl⟩
      · rcases mem_put h' with h' | h'
        · exact .inl ⟨p, List.mem_cons_self .., h'⟩
        · exact .inr h'
  rcases key _ _ h with ⟨p, hp, rfl⟩ | h'
  · left
    simp only [range, List.mem_filter, Bool.and_eq_true, decide_eq_true_eq] at hp
    exact ⟨p, hp.1, hp.2.1, hp.2.2, rfl⟩
  · right
    simp only [clear, List.mem_filter, Bool.not_eq_true', Bool.and_eq_false_iff, decide_eq_false_iff_not] at h'
    exact ⟨h'.1, by omega⟩

/-! ### Reading after writing -/

theorem get_put_same (m : List (Nat × α)) (k : Nat) (v d : α) : get (put m k v) k d = v := by
  induction m with
  | nil => simp [put, get]
  | cons p r ih =>
    obtain ⟨k', v'⟩ := p
    simp only [put]
    split
    · simp [get]
    · split
      · simp [get]
      · rename_i h
        simp only [get]
        rw [if_neg (fun e => h e.symm)]
        exact ih

theorem get_put_other (m : List (Nat × α)) {k k' : Nat} (v d : α) (h : k' ≠ k) : get (put m k v) k' d = get m k' d := by
  induction m with
  | nil => simp [put, get, Ne.symm h]
  | cons p r ih =>
    obtain ⟨k₁, v₁⟩ := p
    simp only [put]
    split
    · simp [get, Ne.symm h]
    · split
      · rename_i h'
        subst h'
        simp [get, Ne.symm h]
      · simp [get, ih]

theorem get_below {m : List (Nat × α)} {lo k : Nat} (d : α) (hm : rising lo m = true) (h : k < lo) : get m k d = d := by
  induction m generalizing lo with
  | nil => rfl
  | cons p r ih =>
    obtain ⟨k', v'⟩ := p
    simp only [rising, Bool.and_eq_true, decide_eq_true_eq] at hm
    simp only [get]
    rw [if_neg (by omega)]
    exact ih hm.2 (by omega)

theorem get_filter {m : List (Nat × α)} (q : Nat → Bool) (k : Nat) (d : α) :
    get (m.filter fun p => q p.1) k d = if q k then get m k d else d := by
  induction m with
  | nil => simp [get]
  | cons p r ih =>
    obtain ⟨k', v'⟩ := p
    rw [List.filter_cons]
    by_cases hk : k' = k
    · subst hk
      cases h : q k' with
      | true => simp [get]
      | false => simp [h] at ih ⊢; exact ih
    · cases h : q k' with
      | true => simp [get, hk, ih]
      | false => simp [get, hk, ih]

theorem get_set_same [DecidableEq α] (m : List (Nat × α)) (k : Nat) (d v : α) :
    get (set m k d v) k d = v := by
  unfold set
  split
  · rename_i h
    subst h
    have := get_filter (m := m) (fun x => decide (x ≠ k)) k v
    simpa [del] using this
  · exact get_put_same m k v d

theorem get_set_other [DecidableEq α] (m : List (Nat × α)) {k k' : Nat} (d e v : α) (h : k' ≠ k) :
    get (set m k d v) k' e = get m k' e := by
  unfold set
  split
  · have := get_filter (m := m) (fun x => decide (x ≠ k)) k' e
    simpa [del, h] using this
  · exact get_put_other m v e h

end Sys2Proof.Machine.Sparse
end

