-- ==== Sys2Proof/Laws/Memory.lean ====
section
/-! SUPPORT. The laws of byte memory: every operation keeps the canonical form; what is read after a write. -/

namespace Sys2Proof.Machine

/-! ### Destroyed regions -/

/-- A destroyed region covers an address. -/
def Junk.covers (j : Junk) (a : Nat) : Prop := j.base ≤ a ∧ a < j.base + j.len

theorem unwritten_skip {js r : List Junk} {a : Nat} (h : ∀ j ∈ js, ¬ (j.base ≤ a ∧ a < j.base + j.len)) :
    unwritten (js ++ r) a = unwritten r a := by
  induction js with
  | nil => rfl
  | cons j js ih =>
    simp only [List.cons_append, unwritten]
    rw [if_neg (h j (List.mem_cons_self ..))]
    exact ih fun k hk => h k (List.mem_cons_of_mem _ hk)

theorem unwritten_congr_append {js r r' : List Junk} {a : Nat} (h : unwritten r a = unwritten r' a) :
    unwritten (js ++ r) a = unwritten (js ++ r') a := by
  induction js with
  | nil => exact h
  | cons j js ih => simp only [List.cons_append, unwritten, ih]

theorem unwritten_outside_in {js : List Junk} {lo n a : Nat} (h : lo ≤ a ∧ a < lo + n) :
    unwritten (js.flatMap fun j => j.outside lo n) a = 0 := by
  have := unwritten_skip (js := js.flatMap fun j => j.outside lo n) (r := []) (a := a) (by
    intro k hk
    simp only [List.mem_flatMap, Junk.outside, List.mem_append] at hk
    obtain ⟨j, -, hk | hk⟩ := hk
    · split at hk
      · simp only [List.mem_singleton] at hk; subst hk; simp only; omega
      · cases hk
    · split at hk
      · simp only [List.mem_singleton] at hk; subst hk; simp only; omega
      · cases hk)
  simpa [unwritten] using this

theorem unwritten_outside_out {js : List Junk} {lo n a : Nat} (h : ¬ (lo ≤ a ∧ a < lo + n)) :
    unwritten (js.flatMap fun j => j.outside lo n) a = unwritten js a := by
  induction js with
  | nil => rfl
  | cons j js ih =>
    simp only [List.flatMap_cons, unwritten]
    rw [← ih]
    generalize js.flatMap (fun j => j.outside lo n) = r
    simp only [Junk.outside]
    by_cases hc : j.base ≤ a ∧ a < j.base + j.len
    · rw [if_pos hc]
      by_cases hl : a < lo
      · have h0 : 0 < min j.len (lo - j.base) := by omega
        rw [if_pos h0]
        simp only [List.cons_append, unwritten]
        rw [if_pos (by omega)]
      · rw [List.append_assoc, unwritten_skip (by
          intro k hk
          split at hk
          · simp only [List.mem_singleton] at hk; subst hk; simp only; omega
          · cases hk)]
        rw [if_pos (by omega)]
        simp only [List.cons_append, List.nil_append, unwritten]
        rw [if_pos (by omega)]
        congr 1
        omega
    · rw [if_neg hc]
      refine unwritten_skip ?_
      intro k hk
      simp only [List.mem_append] at hk
      rcases hk with hk | hk
      · split at hk
        · simp only [List.mem_singleton] at hk; subst hk; simp only; omega
        · cases hk
      · split at hk
        · simp only [List.mem_singleton] at hk; subst hk; simp only; omega
        · cases hk

theorem unwritten_moved_out {js r : List Junk} {src dst n a : Nat} (h : ¬ (dst ≤ a ∧ a < dst + n)) :
    unwritten ((js.flatMap fun j => j.moved src dst n) ++ r) a = unwritten r a := by
  refine unwritten_skip ?_
  intro k hk
  simp only [List.mem_flatMap, Junk.moved] at hk
  obtain ⟨j, -, hk⟩ := hk
  split at hk
  · simp only [List.mem_singleton] at hk; subst hk; simp only; omega
  · cases hk

/-- What a region reads as where nothing destroyed covers it is `r`'s. -/
theorem unwritten_moved_in {js r : List Junk} {src dst n a : Nat} (h : dst ≤ a ∧ a < dst + n) (hr : unwritten r a = 0) :
    unwritten ((js.flatMap fun j => j.moved src dst n) ++ r) a = unwritten js (a - dst + src) := by
  induction js with
  | nil => simpa [unwritten] using hr
  | cons j js ih =>
    simp only [List.flatMap_cons, List.append_assoc, unwritten]
    by_cases hc : j.base ≤ a - dst + src ∧ a - dst + src < j.base + j.len
    · rw [if_pos hc]
      simp only [Junk.moved]
      rw [if_pos (by omega)]
      simp only [List.cons_append, List.nil_append, unwritten]
      rw [if_pos (by omega)]
      congr 1
      omega
    · rw [if_neg hc, ← ih]
      refine unwritten_skip ?_
      intro k hk
      simp only [Junk.moved] at hk
      split at hk
      · simp only [List.mem_singleton] at hk; subst hk; simp only; omega
      · cases hk

/-- A byte that a moved region covers reads as it did at its source, whatever follows. -/
theorem unwritten_moved_first {js r : List Junk} {src dst n a : Nat} (h : dst ≤ a ∧ a < dst + n)
    (h0 : unwritten js (a - dst + src) ≠ 0) :
    unwritten ((js.flatMap fun j => j.moved src dst n) ++ r) a = unwritten js (a - dst + src) := by
  induction js with
  | nil => exact absurd rfl h0
  | cons j js ih =>
    simp only [List.flatMap_cons, List.append_assoc, unwritten] at h0 ⊢
    by_cases hc : j.base ≤ a - dst + src ∧ a - dst + src < j.base + j.len
    · rw [if_pos hc]
      simp only [Junk.moved]
      rw [if_pos (by omega)]
      simp only [List.cons_append, List.nil_append, unwritten]
      rw [if_pos (by omega)]
      congr 1
      omega
    · rw [if_neg hc] at h0 ⊢
      rw [← ih h0]
      refine unwritten_skip ?_
      intro k hk
      simp only [Junk.moved] at hk
      split at hk
      · simp only [List.mem_singleton] at hk; subst hk; simp only; omega
      · cases hk

/-! ### The canonical form -/

theorem Memory.wf_iff {js : List Junk} {m : List Host.Cell} :
    Memory.wf js m = true ↔ Sparse.rising 0 m = true ∧ ∀ p ∈ m, p.2 ≠ unwritten js p.1 := by
  simp [Memory.wf]

theorem Memory.wf_filter {js : List Junk} {m : List Host.Cell} (q : Host.Cell → Bool) (h : Memory.wf js m = true) :
    Memory.wf js (m.filter q) = true := by
  rw [Memory.wf_iff] at h ⊢
  exact ⟨Sparse.rising_filter q h.1, fun p hp => h.2 p (List.mem_filter.1 hp).1⟩

theorem Memory.wf_set {js : List Junk} {m : List Host.Cell} (a : Nat) (b : Byte) (h : Memory.wf js m = true) :
    Memory.wf js (Sparse.set m a (unwritten js a) b) = true := by
  unfold Sparse.set
  split
  · exact Memory.wf_filter _ h
  · rename_i hb
    rw [Memory.wf_iff] at h ⊢
    refine ⟨Sparse.rising_put _ (Nat.zero_le _) h.1, fun p hp => ?_⟩
    rcases Sparse.mem_put hp with rfl | hp
    · exact hb
    · exact h.2 p hp

theorem Memory.wf_clear {js : List Junk} {m : List Host.Cell} (a n : Nat) (h : Memory.wf js m = true) :
    Memory.wf (js.flatMap fun j => j.outside a n) (Sparse.clear m a n) = true := by
  rw [Memory.wf_iff] at h ⊢
  refine ⟨Sparse.rising_clear a n h.1, fun p hp => ?_⟩
  simp only [Sparse.clear, List.mem_filter, Bool.not_eq_true', Bool.and_eq_false_iff, decide_eq_false_iff_not] at hp
  rw [unwritten_outside_out (by omega)]
  exact h.2 p hp.1

theorem Memory.wf_destroy {js : List Junk} {m : List Host.Cell} (a n d : Nat) (h : Memory.wf js m = true) :
    Memory.wf ({ base := a, len := n, draw := d, off := 0 } :: js.flatMap fun j => j.outside a n) (Sparse.clear m a n) = true := by
  have h' := Memory.wf_clear a n h
  rw [Memory.wf_iff] at h' ⊢
  refine ⟨h'.1, fun p hp => ?_⟩
  have hq := h'.2 p hp
  simp only [Sparse.clear, List.mem_filter, Bool.not_eq_true', Bool.and_eq_false_iff, decide_eq_false_iff_not] at hp
  simp only [unwritten]
  rw [if_neg (by omega)]
  exact hq

theorem Memory.wf_copy {js : List Junk} {m : List Host.Cell} (src dst n : Nat) (h : Memory.wf js m = true) :
    Memory.wf ((js.flatMap fun j => j.moved src dst n) ++ js.flatMap fun j => j.outside dst n) (Sparse.copy m src dst n) =
      true := by
  rw [Memory.wf_iff] at h ⊢
  refine ⟨Sparse.rising_copy src dst n h.1, fun x hx => ?_⟩
  rcases Sparse.mem_copy hx with ⟨p, hp, h1, h2, rfl⟩ | ⟨hm, ho⟩
  · rw [unwritten_moved_in (by simp only; omega) (unwritten_outside_in (by simp only; omega))]
    have : p.1 - src + dst - dst + src = p.1 := by omega
    simp only [this]
    exact h.2 p hp
  · rw [unwritten_moved_out ho, unwritten_outside_out ho]
    exact h.2 x hm

theorem State.setByte_memory (s : State) (a : Nat) (b : Byte) (h : Memory.wf s.junk s.mem = true) :
    Memory.wf (s.setByte a b).junk (s.setByte a b).mem = true := Memory.wf_set a b h

theorem State.zero_memory (s : State) (a n : Nat) (h : Memory.wf s.junk s.mem = true) :
    Memory.wf (s.zero a n).junk (s.zero a n).mem = true := Memory.wf_clear a n h

theorem State.destroy_memory (s : State) (a n : Nat) (h : Memory.wf s.junk s.mem = true) :
    Memory.wf (s.destroy a n).junk (s.destroy a n).mem = true := Memory.wf_destroy a n _ h

theorem State.copy_memory (s : State) (src dst n : Nat) (h : Memory.wf s.junk s.mem = true) :
    Memory.wf (s.copy src dst n).junk (s.copy src dst n).mem = true := Memory.wf_copy src dst n h

theorem State.reset_memory : Memory.wf State.reset.junk State.reset.mem = true := rfl

/-! ### Reading after writing -/

theorem State.byte_setByte_same (s : State) (a : Nat) (b : Byte) : (s.setByte a b).byte a = b :=
  Sparse.get_set_same s.mem a _ b

theorem State.byte_setByte_other (s : State) {a a' : Nat} (b : Byte) (h : a' ≠ a) :
    (s.setByte a b).byte a' = s.byte a' := Sparse.get_set_other s.mem _ _ b h

end Sys2Proof.Machine
end

