-- ==== Sys2Proof/Laws/State.lean ====
section
/-! SUPPORT. What each update of the state leaves as it was, one lemma for each field; and what is read back after a write. -/

namespace Sys2Proof.Machine

/-! ### `set` -/

@[simp] theorem State.set_pending (s : State) (f : Fld) (v : Nat) : (s.set f v).pending = s.pending := rfl
@[simp] theorem State.set_freeCount (s : State) (f : Fld) (v : Nat) : (s.set f v).freeCount = s.freeCount := rfl
@[simp] theorem State.set_mem (s : State) (f : Fld) (v : Nat) : (s.set f v).mem = s.mem := rfl
@[simp] theorem State.set_junk (s : State) (f : Fld) (v : Nat) : (s.set f v).junk = s.junk := rfl
@[simp] theorem State.set_ctxs (s : State) (f : Fld) (v : Nat) : (s.set f v).ctxs = s.ctxs := rfl
@[simp] theorem State.set_pres (s : State) (f : Fld) (v : Nat) : (s.set f v).pres = s.pres := rfl
@[simp] theorem State.set_bals (s : State) (f : Fld) (v : Nat) : (s.set f v).bals = s.bals := rfl
@[simp] theorem State.set_sysLatch (s : State) (f : Fld) (v : Nat) : (s.set f v).sysLatch = s.sysLatch := rfl
@[simp] theorem State.set_flowLatch (s : State) (f : Fld) (v : Nat) : (s.set f v).flowLatch = s.flowLatch := rfl
@[simp] theorem State.set_runs (s : State) (f : Fld) (v : Nat) : (s.set f v).runs = s.runs := rfl
@[simp] theorem State.set_transients (s : State) (f : Fld) (v : Nat) : (s.set f v).transients = s.transients := rfl
@[simp] theorem State.set_image (s : State) (f : Fld) (v : Nat) : (s.set f v).image = s.image := rfl
@[simp] theorem State.set_oldImage (s : State) (f : Fld) (v : Nat) : (s.set f v).oldImage = s.oldImage := rfl
@[simp] theorem State.set_cfg (s : State) (f : Fld) (v : Nat) : (s.set f v).cfg = s.cfg := rfl
@[simp] theorem State.set_recQ (s : State) (f : Fld) (v : Nat) : (s.set f v).recQ = s.recQ := rfl
@[simp] theorem State.set_recRecent (s : State) (f : Fld) (v : Nat) : (s.set f v).recRecent = s.recRecent := rfl
@[simp] theorem State.set_recRew (s : State) (f : Fld) (v : Nat) : (s.set f v).recRew = s.recRew := rfl
@[simp] theorem State.set_olcImage (s : State) (f : Fld) (v : Nat) : (s.set f v).olcImage = s.olcImage := rfl
@[simp] theorem State.set_rodTab (s : State) (f : Fld) (v : Nat) : (s.set f v).rodTab = s.rodTab := rfl
@[simp] theorem State.set_flowTab (s : State) (f : Fld) (v : Nat) : (s.set f v).flowTab = s.flowTab := rfl
@[simp] theorem State.set_lastTx (s : State) (f : Fld) (v : Nat) : (s.set f v).lastTx = s.lastTx := rfl
@[simp] theorem State.set_openTx (s : State) (f : Fld) (v : Nat) : (s.set f v).openTx = s.openTx := rfl
@[simp] theorem State.set_openRx (s : State) (f : Fld) (v : Nat) : (s.set f v).openRx = s.openRx := rfl
@[simp] theorem State.set_descs (s : State) (f : Fld) (v : Nat) : (s.set f v).descs = s.descs := rfl
@[simp] theorem State.set_hostMem (s : State) (f : Fld) (v : Nat) : (s.set f v).hostMem = s.hostMem := rfl
@[simp] theorem State.set_farOps (s : State) (f : Fld) (v : Nat) : (s.set f v).farOps = s.farOps := rfl
@[simp] theorem State.set_lastCl (s : State) (f : Fld) (v : Nat) : (s.set f v).lastCl = s.lastCl := rfl
@[simp] theorem State.set_twinOut (s : State) (f : Fld) (v : Nat) : (s.set f v).twinOut = s.twinOut := rfl
@[simp] theorem State.set_shadowQ (s : State) (f : Fld) (v : Nat) : (s.set f v).shadowQ = s.shadowQ := rfl
@[simp] theorem State.set_wakeSeen (s : State) (f : Fld) (v : Nat) : (s.set f v).wakeSeen = s.wakeSeen := rfl

/-! ### `restore` -/

@[simp] theorem State.restore_pending (s : State) (f : Fld) (n : Nat) : (s.restore f n).pending = s.pending := rfl
@[simp] theorem State.restore_freeCount (s : State) (f : Fld) (n : Nat) : (s.restore f n).freeCount = s.freeCount := rfl
@[simp] theorem State.restore_mem (s : State) (f : Fld) (n : Nat) : (s.restore f n).mem = s.mem := rfl
@[simp] theorem State.restore_junk (s : State) (f : Fld) (n : Nat) : (s.restore f n).junk = s.junk := rfl
@[simp] theorem State.restore_ctxs (s : State) (f : Fld) (n : Nat) : (s.restore f n).ctxs = s.ctxs := rfl
@[simp] theorem State.restore_pres (s : State) (f : Fld) (n : Nat) : (s.restore f n).pres = s.pres := rfl
@[simp] theorem State.restore_bals (s : State) (f : Fld) (n : Nat) : (s.restore f n).bals = s.bals := rfl
@[simp] theorem State.restore_sysLatch (s : State) (f : Fld) (n : Nat) : (s.restore f n).sysLatch = s.sysLatch := rfl
@[simp] theorem State.restore_flowLatch (s : State) (f : Fld) (n : Nat) : (s.restore f n).flowLatch = s.flowLatch := rfl
@[simp] theorem State.restore_runs (s : State) (f : Fld) (n : Nat) : (s.restore f n).runs = s.runs := rfl
@[simp] theorem State.restore_transients (s : State) (f : Fld) (n : Nat) : (s.restore f n).transients = s.transients := rfl
@[simp] theorem State.restore_image (s : State) (f : Fld) (n : Nat) : (s.restore f n).image = s.image := rfl
@[simp] theorem State.restore_oldImage (s : State) (f : Fld) (n : Nat) : (s.restore f n).oldImage = s.oldImage := rfl
@[simp] theorem State.restore_cfg (s : State) (f : Fld) (n : Nat) : (s.restore f n).cfg = s.cfg := rfl
@[simp] theorem State.restore_recQ (s : State) (f : Fld) (n : Nat) : (s.restore f n).recQ = s.recQ := rfl
@[simp] theorem State.restore_recRecent (s : State) (f : Fld) (n : Nat) : (s.restore f n).recRecent = s.recRecent := rfl
@[simp] theorem State.restore_recRew (s : State) (f : Fld) (n : Nat) : (s.restore f n).recRew = s.recRew := rfl
@[simp] theorem State.restore_olcImage (s : State) (f : Fld) (n : Nat) : (s.restore f n).olcImage = s.olcImage := rfl
@[simp] theorem State.restore_rodTab (s : State) (f : Fld) (n : Nat) : (s.restore f n).rodTab = s.rodTab := rfl
@[simp] theorem State.restore_flowTab (s : State) (f : Fld) (n : Nat) : (s.restore f n).flowTab = s.flowTab := rfl
@[simp] theorem State.restore_lastTx (s : State) (f : Fld) (n : Nat) : (s.restore f n).lastTx = s.lastTx := rfl
@[simp] theorem State.restore_openTx (s : State) (f : Fld) (n : Nat) : (s.restore f n).openTx = s.openTx := rfl
@[simp] theorem State.restore_openRx (s : State) (f : Fld) (n : Nat) : (s.restore f n).openRx = s.openRx := rfl
@[simp] theorem State.restore_descs (s : State) (f : Fld) (n : Nat) : (s.restore f n).descs = s.descs := rfl
@[simp] theorem State.restore_hostMem (s : State) (f : Fld) (n : Nat) : (s.restore f n).hostMem = s.hostMem := rfl
@[simp] theorem State.restore_farOps (s : State) (f : Fld) (n : Nat) : (s.restore f n).farOps = s.farOps := rfl
@[simp] theorem State.restore_lastCl (s : State) (f : Fld) (n : Nat) : (s.restore f n).lastCl = s.lastCl := rfl
@[simp] theorem State.restore_twinOut (s : State) (f : Fld) (n : Nat) : (s.restore f n).twinOut = s.twinOut := rfl
@[simp] theorem State.restore_shadowQ (s : State) (f : Fld) (n : Nat) : (s.restore f n).shadowQ = s.shadowQ := rfl
@[simp] theorem State.restore_wakeSeen (s : State) (f : Fld) (n : Nat) : (s.restore f n).wakeSeen = s.wakeSeen := rfl

/-! ### `setByte` -/

@[simp] theorem State.setByte_pending (s : State) (a : Nat) (b : Byte) : (s.setByte a b).pending = s.pending := rfl
@[simp] theorem State.setByte_freeCount (s : State) (a : Nat) (b : Byte) : (s.setByte a b).freeCount = s.freeCount := rfl
@[simp] theorem State.setByte_fld (s : State) (a : Nat) (b : Byte) : (s.setByte a b).fld = s.fld := rfl
@[simp] theorem State.setByte_junk (s : State) (a : Nat) (b : Byte) : (s.setByte a b).junk = s.junk := rfl
@[simp] theorem State.setByte_ctxs (s : State) (a : Nat) (b : Byte) : (s.setByte a b).ctxs = s.ctxs := rfl
@[simp] theorem State.setByte_pres (s : State) (a : Nat) (b : Byte) : (s.setByte a b).pres = s.pres := rfl
@[simp] theorem State.setByte_bals (s : State) (a : Nat) (b : Byte) : (s.setByte a b).bals = s.bals := rfl
@[simp] theorem State.setByte_sysLatch (s : State) (a : Nat) (b : Byte) : (s.setByte a b).sysLatch = s.sysLatch := rfl
@[simp] theorem State.setByte_flowLatch (s : State) (a : Nat) (b : Byte) : (s.setByte a b).flowLatch = s.flowLatch := rfl
@[simp] theorem State.setByte_runs (s : State) (a : Nat) (b : Byte) : (s.setByte a b).runs = s.runs := rfl
@[simp] theorem State.setByte_transients (s : State) (a : Nat) (b : Byte) : (s.setByte a b).transients = s.transients := rfl
@[simp] theorem State.setByte_image (s : State) (a : Nat) (b : Byte) : (s.setByte a b).image = s.image := rfl
@[simp] theorem State.setByte_oldImage (s : State) (a : Nat) (b : Byte) : (s.setByte a b).oldImage = s.oldImage := rfl
@[simp] theorem State.setByte_cfg (s : State) (a : Nat) (b : Byte) : (s.setByte a b).cfg = s.cfg := rfl
@[simp] theorem State.setByte_recQ (s : State) (a : Nat) (b : Byte) : (s.setByte a b).recQ = s.recQ := rfl
@[simp] theorem State.setByte_recRecent (s : State) (a : Nat) (b : Byte) : (s.setByte a b).recRecent = s.recRecent := rfl
@[simp] theorem State.setByte_recRew (s : State) (a : Nat) (b : Byte) : (s.setByte a b).recRew = s.recRew := rfl
@[simp] theorem State.setByte_olcImage (s : State) (a : Nat) (b : Byte) : (s.setByte a b).olcImage = s.olcImage := rfl
@[simp] theorem State.setByte_rodTab (s : State) (a : Nat) (b : Byte) : (s.setByte a b).rodTab = s.rodTab := rfl
@[simp] theorem State.setByte_flowTab (s : State) (a : Nat) (b : Byte) : (s.setByte a b).flowTab = s.flowTab := rfl
@[simp] theorem State.setByte_lastTx (s : State) (a : Nat) (b : Byte) : (s.setByte a b).lastTx = s.lastTx := rfl
@[simp] theorem State.setByte_openTx (s : State) (a : Nat) (b : Byte) : (s.setByte a b).openTx = s.openTx := rfl
@[simp] theorem State.setByte_openRx (s : State) (a : Nat) (b : Byte) : (s.setByte a b).openRx = s.openRx := rfl
@[simp] theorem State.setByte_descs (s : State) (a : Nat) (b : Byte) : (s.setByte a b).descs = s.descs := rfl
@[simp] theorem State.setByte_hostMem (s : State) (a : Nat) (b : Byte) : (s.setByte a b).hostMem = s.hostMem := rfl
@[simp] theorem State.setByte_farOps (s : State) (a : Nat) (b : Byte) : (s.setByte a b).farOps = s.farOps := rfl
@[simp] theorem State.setByte_lastCl (s : State) (a : Nat) (b : Byte) : (s.setByte a b).lastCl = s.lastCl := rfl
@[simp] theorem State.setByte_twinOut (s : State) (a : Nat) (b : Byte) : (s.setByte a b).twinOut = s.twinOut := rfl
@[simp] theorem State.setByte_shadowQ (s : State) (a : Nat) (b : Byte) : (s.setByte a b).shadowQ = s.shadowQ := rfl
@[simp] theorem State.setByte_wakeSeen (s : State) (a : Nat) (b : Byte) : (s.setByte a b).wakeSeen = s.wakeSeen := rfl

/-! ### `copy` -/

@[simp] theorem State.copy_pending (s : State) (a b n : Nat) : (s.copy a b n).pending = s.pending := rfl
@[simp] theorem State.copy_freeCount (s : State) (a b n : Nat) : (s.copy a b n).freeCount = s.freeCount := rfl
@[simp] theorem State.copy_fld (s : State) (a b n : Nat) : (s.copy a b n).fld = s.fld := rfl
@[simp] theorem State.copy_ctxs (s : State) (a b n : Nat) : (s.copy a b n).ctxs = s.ctxs := rfl
@[simp] theorem State.copy_pres (s : State) (a b n : Nat) : (s.copy a b n).pres = s.pres := rfl
@[simp] theorem State.copy_bals (s : State) (a b n : Nat) : (s.copy a b n).bals = s.bals := rfl
@[simp] theorem State.copy_sysLatch (s : State) (a b n : Nat) : (s.copy a b n).sysLatch = s.sysLatch := rfl
@[simp] theorem State.copy_flowLatch (s : State) (a b n : Nat) : (s.copy a b n).flowLatch = s.flowLatch := rfl
@[simp] theorem State.copy_runs (s : State) (a b n : Nat) : (s.copy a b n).runs = s.runs := rfl
@[simp] theorem State.copy_transients (s : State) (a b n : Nat) : (s.copy a b n).transients = s.transients := rfl
@[simp] theorem State.copy_image (s : State) (a b n : Nat) : (s.copy a b n).image = s.image := rfl
@[simp] theorem State.copy_oldImage (s : State) (a b n : Nat) : (s.copy a b n).oldImage = s.oldImage := rfl
@[simp] theorem State.copy_cfg (s : State) (a b n : Nat) : (s.copy a b n).cfg = s.cfg := rfl
@[simp] theorem State.copy_recQ (s : State) (a b n : Nat) : (s.copy a b n).recQ = s.recQ := rfl
@[simp] theorem State.copy_recRecent (s : State) (a b n : Nat) : (s.copy a b n).recRecent = s.recRecent := rfl
@[simp] theorem State.copy_recRew (s : State) (a b n : Nat) : (s.copy a b n).recRew = s.recRew := rfl
@[simp] theorem State.copy_olcImage (s : State) (a b n : Nat) : (s.copy a b n).olcImage = s.olcImage := rfl
@[simp] theorem State.copy_rodTab (s : State) (a b n : Nat) : (s.copy a b n).rodTab = s.rodTab := rfl
@[simp] theorem State.copy_flowTab (s : State) (a b n : Nat) : (s.copy a b n).flowTab = s.flowTab := rfl
@[simp] theorem State.copy_lastTx (s : State) (a b n : Nat) : (s.copy a b n).lastTx = s.lastTx := rfl
@[simp] theorem State.copy_openTx (s : State) (a b n : Nat) : (s.copy a b n).openTx = s.openTx := rfl
@[simp] theorem State.copy_openRx (s : State) (a b n : Nat) : (s.copy a b n).openRx = s.openRx := rfl
@[simp] theorem State.copy_descs (s : State) (a b n : Nat) : (s.copy a b n).descs = s.descs := rfl
@[simp] theorem State.copy_hostMem (s : State) (a b n : Nat) : (s.copy a b n).hostMem = s.hostMem := rfl
@[simp] theorem State.copy_farOps (s : State) (a b n : Nat) : (s.copy a b n).farOps = s.farOps := rfl
@[simp] theorem State.copy_lastCl (s : State) (a b n : Nat) : (s.copy a b n).lastCl = s.lastCl := rfl
@[simp] theorem State.copy_twinOut (s : State) (a b n : Nat) : (s.copy a b n).twinOut = s.twinOut := rfl
@[simp] theorem State.copy_shadowQ (s : State) (a b n : Nat) : (s.copy a b n).shadowQ = s.shadowQ := rfl
@[simp] theorem State.copy_wakeSeen (s : State) (a b n : Nat) : (s.copy a b n).wakeSeen = s.wakeSeen := rfl

/-! ### `zero` -/

@[simp] theorem State.zero_pending (s : State) (a n : Nat) : (s.zero a n).pending = s.pending := rfl
@[simp] theorem State.zero_freeCount (s : State) (a n : Nat) : (s.zero a n).freeCount = s.freeCount := rfl
@[simp] theorem State.zero_fld (s : State) (a n : Nat) : (s.zero a n).fld = s.fld := rfl
@[simp] theorem State.zero_ctxs (s : State) (a n : Nat) : (s.zero a n).ctxs = s.ctxs := rfl
@[simp] theorem State.zero_pres (s : State) (a n : Nat) : (s.zero a n).pres = s.pres := rfl
@[simp] theorem State.zero_bals (s : State) (a n : Nat) : (s.zero a n).bals = s.bals := rfl
@[simp] theorem State.zero_sysLatch (s : State) (a n : Nat) : (s.zero a n).sysLatch = s.sysLatch := rfl
@[simp] theorem State.zero_flowLatch (s : State) (a n : Nat) : (s.zero a n).flowLatch = s.flowLatch := rfl
@[simp] theorem State.zero_runs (s : State) (a n : Nat) : (s.zero a n).runs = s.runs := rfl
@[simp] theorem State.zero_transients (s : State) (a n : Nat) : (s.zero a n).transients = s.transients := rfl
@[simp] theorem State.zero_image (s : State) (a n : Nat) : (s.zero a n).image = s.image := rfl
@[simp] theorem State.zero_oldImage (s : State) (a n : Nat) : (s.zero a n).oldImage = s.oldImage := rfl
@[simp] theorem State.zero_cfg (s : State) (a n : Nat) : (s.zero a n).cfg = s.cfg := rfl
@[simp] theorem State.zero_recQ (s : State) (a n : Nat) : (s.zero a n).recQ = s.recQ := rfl
@[simp] theorem State.zero_recRecent (s : State) (a n : Nat) : (s.zero a n).recRecent = s.recRecent := rfl
@[simp] theorem State.zero_recRew (s : State) (a n : Nat) : (s.zero a n).recRew = s.recRew := rfl
@[simp] theorem State.zero_olcImage (s : State) (a n : Nat) : (s.zero a n).olcImage = s.olcImage := rfl
@[simp] theorem State.zero_rodTab (s : State) (a n : Nat) : (s.zero a n).rodTab = s.rodTab := rfl
@[simp] theorem State.zero_flowTab (s : State) (a n : Nat) : (s.zero a n).flowTab = s.flowTab := rfl
@[simp] theorem State.zero_lastTx (s : State) (a n : Nat) : (s.zero a n).lastTx = s.lastTx := rfl
@[simp] theorem State.zero_openTx (s : State) (a n : Nat) : (s.zero a n).openTx = s.openTx := rfl
@[simp] theorem State.zero_openRx (s : State) (a n : Nat) : (s.zero a n).openRx = s.openRx := rfl
@[simp] theorem State.zero_descs (s : State) (a n : Nat) : (s.zero a n).descs = s.descs := rfl
@[simp] theorem State.zero_hostMem (s : State) (a n : Nat) : (s.zero a n).hostMem = s.hostMem := rfl
@[simp] theorem State.zero_farOps (s : State) (a n : Nat) : (s.zero a n).farOps = s.farOps := rfl
@[simp] theorem State.zero_lastCl (s : State) (a n : Nat) : (s.zero a n).lastCl = s.lastCl := rfl
@[simp] theorem State.zero_twinOut (s : State) (a n : Nat) : (s.zero a n).twinOut = s.twinOut := rfl
@[simp] theorem State.zero_shadowQ (s : State) (a n : Nat) : (s.zero a n).shadowQ = s.shadowQ := rfl
@[simp] theorem State.zero_wakeSeen (s : State) (a n : Nat) : (s.zero a n).wakeSeen = s.wakeSeen := rfl

/-! ### `destroy` -/

@[simp] theorem State.destroy_pending (s : State) (a n : Nat) : (s.destroy a n).pending = s.pending := rfl
@[simp] theorem State.destroy_fld (s : State) (a n : Nat) : (s.destroy a n).fld = s.fld := rfl
@[simp] theorem State.destroy_ctxs (s : State) (a n : Nat) : (s.destroy a n).ctxs = s.ctxs := rfl
@[simp] theorem State.destroy_pres (s : State) (a n : Nat) : (s.destroy a n).pres = s.pres := rfl
@[simp] theorem State.destroy_bals (s : State) (a n : Nat) : (s.destroy a n).bals = s.bals := rfl
@[simp] theorem State.destroy_sysLatch (s : State) (a n : Nat) : (s.destroy a n).sysLatch = s.sysLatch := rfl
@[simp] theorem State.destroy_flowLatch (s : State) (a n : Nat) : (s.destroy a n).flowLatch = s.flowLatch := rfl
@[simp] theorem State.destroy_runs (s : State) (a n : Nat) : (s.destroy a n).runs = s.runs := rfl
@[simp] theorem State.destroy_transients (s : State) (a n : Nat) : (s.destroy a n).transients = s.transients := rfl
@[simp] theorem State.destroy_image (s : State) (a n : Nat) : (s.destroy a n).image = s.image := rfl
@[simp] theorem State.destroy_oldImage (s : State) (a n : Nat) : (s.destroy a n).oldImage = s.oldImage := rfl
@[simp] theorem State.destroy_cfg (s : State) (a n : Nat) : (s.destroy a n).cfg = s.cfg := rfl
@[simp] theorem State.destroy_recQ (s : State) (a n : Nat) : (s.destroy a n).recQ = s.recQ := rfl
@[simp] theorem State.destroy_recRecent (s : State) (a n : Nat) : (s.destroy a n).recRecent = s.recRecent := rfl
@[simp] theorem State.destroy_recRew (s : State) (a n : Nat) : (s.destroy a n).recRew = s.recRew := rfl
@[simp] theorem State.destroy_olcImage (s : State) (a n : Nat) : (s.destroy a n).olcImage = s.olcImage := rfl
@[simp] theorem State.destroy_rodTab (s : State) (a n : Nat) : (s.destroy a n).rodTab = s.rodTab := rfl
@[simp] theorem State.destroy_flowTab (s : State) (a n : Nat) : (s.destroy a n).flowTab = s.flowTab := rfl
@[simp] theorem State.destroy_lastTx (s : State) (a n : Nat) : (s.destroy a n).lastTx = s.lastTx := rfl
@[simp] theorem State.destroy_openTx (s : State) (a n : Nat) : (s.destroy a n).openTx = s.openTx := rfl
@[simp] theorem State.destroy_openRx (s : State) (a n : Nat) : (s.destroy a n).openRx = s.openRx := rfl
@[simp] theorem State.destroy_descs (s : State) (a n : Nat) : (s.destroy a n).descs = s.descs := rfl
@[simp] theorem State.destroy_hostMem (s : State) (a n : Nat) : (s.destroy a n).hostMem = s.hostMem := rfl
@[simp] theorem State.destroy_farOps (s : State) (a n : Nat) : (s.destroy a n).farOps = s.farOps := rfl
@[simp] theorem State.destroy_lastCl (s : State) (a n : Nat) : (s.destroy a n).lastCl = s.lastCl := rfl
@[simp] theorem State.destroy_twinOut (s : State) (a n : Nat) : (s.destroy a n).twinOut = s.twinOut := rfl
@[simp] theorem State.destroy_shadowQ (s : State) (a n : Nat) : (s.destroy a n).shadowQ = s.shadowQ := rfl
@[simp] theorem State.destroy_wakeSeen (s : State) (a n : Nat) : (s.destroy a n).wakeSeen = s.wakeSeen := rfl

/-! ### `setCtx` -/

@[simp] theorem State.setCtx_pending (s : State) (l : Lane) (t : Nat) (c : Ctx) : (s.setCtx l t c).pending = s.pending := rfl
@[simp] theorem State.setCtx_freeCount (s : State) (l : Lane) (t : Nat) (c : Ctx) : (s.setCtx l t c).freeCount = s.freeCount := rfl
@[simp] theorem State.setCtx_fld (s : State) (l : Lane) (t : Nat) (c : Ctx) : (s.setCtx l t c).fld = s.fld := rfl
@[simp] theorem State.setCtx_mem (s : State) (l : Lane) (t : Nat) (c : Ctx) : (s.setCtx l t c).mem = s.mem := rfl
@[simp] theorem State.setCtx_junk (s : State) (l : Lane) (t : Nat) (c : Ctx) : (s.setCtx l t c).junk = s.junk := rfl
@[simp] theorem State.setCtx_pres (s : State) (l : Lane) (t : Nat) (c : Ctx) : (s.setCtx l t c).pres = s.pres := rfl
@[simp] theorem State.setCtx_bals (s : State) (l : Lane) (t : Nat) (c : Ctx) : (s.setCtx l t c).bals = s.bals := rfl
@[simp] theorem State.setCtx_sysLatch (s : State) (l : Lane) (t : Nat) (c : Ctx) : (s.setCtx l t c).sysLatch = s.sysLatch := rfl
@[simp] theorem State.setCtx_flowLatch (s : State) (l : Lane) (t : Nat) (c : Ctx) : (s.setCtx l t c).flowLatch = s.flowLatch := rfl
@[simp] theorem State.setCtx_runs (s : State) (l : Lane) (t : Nat) (c : Ctx) : (s.setCtx l t c).runs = s.runs := rfl
@[simp] theorem State.setCtx_transients (s : State) (l : Lane) (t : Nat) (c : Ctx) : (s.setCtx l t c).transients = s.transients := rfl
@[simp] theorem State.setCtx_image (s : State) (l : Lane) (t : Nat) (c : Ctx) : (s.setCtx l t c).image = s.image := rfl
@[simp] theorem State.setCtx_oldImage (s : State) (l : Lane) (t : Nat) (c : Ctx) : (s.setCtx l t c).oldImage = s.oldImage := rfl
@[simp] theorem State.setCtx_cfg (s : State) (l : Lane) (t : Nat) (c : Ctx) : (s.setCtx l t c).cfg = s.cfg := rfl
@[simp] theorem State.setCtx_recQ (s : State) (l : Lane) (t : Nat) (c : Ctx) : (s.setCtx l t c).recQ = s.recQ := rfl
@[simp] theorem State.setCtx_recRecent (s : State) (l : Lane) (t : Nat) (c : Ctx) : (s.setCtx l t c).recRecent = s.recRecent := rfl
@[simp] theorem State.setCtx_recRew (s : State) (l : Lane) (t : Nat) (c : Ctx) : (s.setCtx l t c).recRew = s.recRew := rfl
@[simp] theorem State.setCtx_olcImage (s : State) (l : Lane) (t : Nat) (c : Ctx) : (s.setCtx l t c).olcImage = s.olcImage := rfl
@[simp] theorem State.setCtx_rodTab (s : State) (l : Lane) (t : Nat) (c : Ctx) : (s.setCtx l t c).rodTab = s.rodTab := rfl
@[simp] theorem State.setCtx_flowTab (s : State) (l : Lane) (t : Nat) (c : Ctx) : (s.setCtx l t c).flowTab = s.flowTab := rfl
@[simp] theorem State.setCtx_lastTx (s : State) (l : Lane) (t : Nat) (c : Ctx) : (s.setCtx l t c).lastTx = s.lastTx := rfl
@[simp] theorem State.setCtx_openTx (s : State) (l : Lane) (t : Nat) (c : Ctx) : (s.setCtx l t c).openTx = s.openTx := rfl
@[simp] theorem State.setCtx_openRx (s : State) (l : Lane) (t : Nat) (c : Ctx) : (s.setCtx l t c).openRx = s.openRx := rfl
@[simp] theorem State.setCtx_descs (s : State) (l : Lane) (t : Nat) (c : Ctx) : (s.setCtx l t c).descs = s.descs := rfl
@[simp] theorem State.setCtx_hostMem (s : State) (l : Lane) (t : Nat) (c : Ctx) : (s.setCtx l t c).hostMem = s.hostMem := rfl
@[simp] theorem State.setCtx_farOps (s : State) (l : Lane) (t : Nat) (c : Ctx) : (s.setCtx l t c).farOps = s.farOps := rfl
@[simp] theorem State.setCtx_lastCl (s : State) (l : Lane) (t : Nat) (c : Ctx) : (s.setCtx l t c).lastCl = s.lastCl := rfl
@[simp] theorem State.setCtx_twinOut (s : State) (l : Lane) (t : Nat) (c : Ctx) : (s.setCtx l t c).twinOut = s.twinOut := rfl
@[simp] theorem State.setCtx_shadowQ (s : State) (l : Lane) (t : Nat) (c : Ctx) : (s.setCtx l t c).shadowQ = s.shadowQ := rfl
@[simp] theorem State.setCtx_wakeSeen (s : State) (l : Lane) (t : Nat) (c : Ctx) : (s.setCtx l t c).wakeSeen = s.wakeSeen := rfl

/-! ### `setPres` -/

@[simp] theorem State.setPres_pending (s : State) (l : Lane) (t : Nat) (p : Option Pres) : (s.setPres l t p).pending = s.pending := rfl
@[simp] theorem State.setPres_freeCount (s : State) (l : Lane) (t : Nat) (p : Option Pres) : (s.setPres l t p).freeCount = s.freeCount := rfl
@[simp] theorem State.setPres_fld (s : State) (l : Lane) (t : Nat) (p : Option Pres) : (s.setPres l t p).fld = s.fld := rfl
@[simp] theorem State.setPres_mem (s : State) (l : Lane) (t : Nat) (p : Option Pres) : (s.setPres l t p).mem = s.mem := rfl
@[simp] theorem State.setPres_junk (s : State) (l : Lane) (t : Nat) (p : Option Pres) : (s.setPres l t p).junk = s.junk := rfl
@[simp] theorem State.setPres_ctxs (s : State) (l : Lane) (t : Nat) (p : Option Pres) : (s.setPres l t p).ctxs = s.ctxs := rfl
@[simp] theorem State.setPres_bals (s : State) (l : Lane) (t : Nat) (p : Option Pres) : (s.setPres l t p).bals = s.bals := rfl
@[simp] theorem State.setPres_sysLatch (s : State) (l : Lane) (t : Nat) (p : Option Pres) : (s.setPres l t p).sysLatch = s.sysLatch := rfl
@[simp] theorem State.setPres_flowLatch (s : State) (l : Lane) (t : Nat) (p : Option Pres) : (s.setPres l t p).flowLatch = s.flowLatch := rfl
@[simp] theorem State.setPres_runs (s : State) (l : Lane) (t : Nat) (p : Option Pres) : (s.setPres l t p).runs = s.runs := rfl
@[simp] theorem State.setPres_transients (s : State) (l : Lane) (t : Nat) (p : Option Pres) : (s.setPres l t p).transients = s.transients := rfl
@[simp] theorem State.setPres_image (s : State) (l : Lane) (t : Nat) (p : Option Pres) : (s.setPres l t p).image = s.image := rfl
@[simp] theorem State.setPres_oldImage (s : State) (l : Lane) (t : Nat) (p : Option Pres) : (s.setPres l t p).oldImage = s.oldImage := rfl
@[simp] theorem State.setPres_cfg (s : State) (l : Lane) (t : Nat) (p : Option Pres) : (s.setPres l t p).cfg = s.cfg := rfl
@[simp] theorem State.setPres_recQ (s : State) (l : Lane) (t : Nat) (p : Option Pres) : (s.setPres l t p).recQ = s.recQ := rfl
@[simp] theorem State.setPres_recRecent (s : State) (l : Lane) (t : Nat) (p : Option Pres) : (s.setPres l t p).recRecent = s.recRecent := rfl
@[simp] theorem State.setPres_recRew (s : State) (l : Lane) (t : Nat) (p : Option Pres) : (s.setPres l t p).recRew = s.recRew := rfl
@[simp] theorem State.setPres_olcImage (s : State) (l : Lane) (t : Nat) (p : Option Pres) : (s.setPres l t p).olcImage = s.olcImage := rfl
@[simp] theorem State.setPres_rodTab (s : State) (l : Lane) (t : Nat) (p : Option Pres) : (s.setPres l t p).rodTab = s.rodTab := rfl
@[simp] theorem State.setPres_flowTab (s : State) (l : Lane) (t : Nat) (p : Option Pres) : (s.setPres l t p).flowTab = s.flowTab := rfl
@[simp] theorem State.setPres_lastTx (s : State) (l : Lane) (t : Nat) (p : Option Pres) : (s.setPres l t p).lastTx = s.lastTx := rfl
@[simp] theorem State.setPres_openTx (s : State) (l : Lane) (t : Nat) (p : Option Pres) : (s.setPres l t p).openTx = s.openTx := rfl
@[simp] theorem State.setPres_openRx (s : State) (l : Lane) (t : Nat) (p : Option Pres) : (s.setPres l t p).openRx = s.openRx := rfl
@[simp] theorem State.setPres_descs (s : State) (l : Lane) (t : Nat) (p : Option Pres) : (s.setPres l t p).descs = s.descs := rfl
@[simp] theorem State.setPres_hostMem (s : State) (l : Lane) (t : Nat) (p : Option Pres) : (s.setPres l t p).hostMem = s.hostMem := rfl
@[simp] theorem State.setPres_farOps (s : State) (l : Lane) (t : Nat) (p : Option Pres) : (s.setPres l t p).farOps = s.farOps := rfl
@[simp] theorem State.setPres_lastCl (s : State) (l : Lane) (t : Nat) (p : Option Pres) : (s.setPres l t p).lastCl = s.lastCl := rfl
@[simp] theorem State.setPres_twinOut (s : State) (l : Lane) (t : Nat) (p : Option Pres) : (s.setPres l t p).twinOut = s.twinOut := rfl
@[simp] theorem State.setPres_shadowQ (s : State) (l : Lane) (t : Nat) (p : Option Pres) : (s.setPres l t p).shadowQ = s.shadowQ := rfl
@[simp] theorem State.setPres_wakeSeen (s : State) (l : Lane) (t : Nat) (p : Option Pres) : (s.setPres l t p).wakeSeen = s.wakeSeen := rfl

/-! ### `setBal` -/

@[simp] theorem State.setBal_pending (s : State) (t : Nat) (b : Balance) : (s.setBal t b).pending = s.pending := rfl
@[simp] theorem State.setBal_freeCount (s : State) (t : Nat) (b : Balance) : (s.setBal t b).freeCount = s.freeCount := rfl
@[simp] theorem State.setBal_fld (s : State) (t : Nat) (b : Balance) : (s.setBal t b).fld = s.fld := rfl
@[simp] theorem State.setBal_mem (s : State) (t : Nat) (b : Balance) : (s.setBal t b).mem = s.mem := rfl
@[simp] theorem State.setBal_junk (s : State) (t : Nat) (b : Balance) : (s.setBal t b).junk = s.junk := rfl
@[simp] theorem State.setBal_ctxs (s : State) (t : Nat) (b : Balance) : (s.setBal t b).ctxs = s.ctxs := rfl
@[simp] theorem State.setBal_pres (s : State) (t : Nat) (b : Balance) : (s.setBal t b).pres = s.pres := rfl
@[simp] theorem State.setBal_sysLatch (s : State) (t : Nat) (b : Balance) : (s.setBal t b).sysLatch = s.sysLatch := rfl
@[simp] theorem State.setBal_flowLatch (s : State) (t : Nat) (b : Balance) : (s.setBal t b).flowLatch = s.flowLatch := rfl
@[simp] theorem State.setBal_runs (s : State) (t : Nat) (b : Balance) : (s.setBal t b).runs = s.runs := rfl
@[simp] theorem State.setBal_transients (s : State) (t : Nat) (b : Balance) : (s.setBal t b).transients = s.transients := rfl
@[simp] theorem State.setBal_image (s : State) (t : Nat) (b : Balance) : (s.setBal t b).image = s.image := rfl
@[simp] theorem State.setBal_oldImage (s : State) (t : Nat) (b : Balance) : (s.setBal t b).oldImage = s.oldImage := rfl
@[simp] theorem State.setBal_cfg (s : State) (t : Nat) (b : Balance) : (s.setBal t b).cfg = s.cfg := rfl
@[simp] theorem State.setBal_recQ (s : State) (t : Nat) (b : Balance) : (s.setBal t b).recQ = s.recQ := rfl
@[simp] theorem State.setBal_recRecent (s : State) (t : Nat) (b : Balance) : (s.setBal t b).recRecent = s.recRecent := rfl
@[simp] theorem State.setBal_recRew (s : State) (t : Nat) (b : Balance) : (s.setBal t b).recRew = s.recRew := rfl
@[simp] theorem State.setBal_olcImage (s : State) (t : Nat) (b : Balance) : (s.setBal t b).olcImage = s.olcImage := rfl
@[simp] theorem State.setBal_rodTab (s : State) (t : Nat) (b : Balance) : (s.setBal t b).rodTab = s.rodTab := rfl
@[simp] theorem State.setBal_flowTab (s : State) (t : Nat) (b : Balance) : (s.setBal t b).flowTab = s.flowTab := rfl
@[simp] theorem State.setBal_lastTx (s : State) (t : Nat) (b : Balance) : (s.setBal t b).lastTx = s.lastTx := rfl
@[simp] theorem State.setBal_openTx (s : State) (t : Nat) (b : Balance) : (s.setBal t b).openTx = s.openTx := rfl
@[simp] theorem State.setBal_openRx (s : State) (t : Nat) (b : Balance) : (s.setBal t b).openRx = s.openRx := rfl
@[simp] theorem State.setBal_descs (s : State) (t : Nat) (b : Balance) : (s.setBal t b).descs = s.descs := rfl
@[simp] theorem State.setBal_hostMem (s : State) (t : Nat) (b : Balance) : (s.setBal t b).hostMem = s.hostMem := rfl
@[simp] theorem State.setBal_farOps (s : State) (t : Nat) (b : Balance) : (s.setBal t b).farOps = s.farOps := rfl
@[simp] theorem State.setBal_lastCl (s : State) (t : Nat) (b : Balance) : (s.setBal t b).lastCl = s.lastCl := rfl
@[simp] theorem State.setBal_twinOut (s : State) (t : Nat) (b : Balance) : (s.setBal t b).twinOut = s.twinOut := rfl
@[simp] theorem State.setBal_shadowQ (s : State) (t : Nat) (b : Balance) : (s.setBal t b).shadowQ = s.shadowQ := rfl
@[simp] theorem State.setBal_wakeSeen (s : State) (t : Nat) (b : Balance) : (s.setBal t b).wakeSeen = s.wakeSeen := rfl

/-! ### `setSys` -/

@[simp] theorem State.setSys_pending (s : State) (t : Nat) (v : SysLatch) : (s.setSys t v).pending = s.pending := rfl
@[simp] theorem State.setSys_freeCount (s : State) (t : Nat) (v : SysLatch) : (s.setSys t v).freeCount = s.freeCount := rfl
@[simp] theorem State.setSys_fld (s : State) (t : Nat) (v : SysLatch) : (s.setSys t v).fld = s.fld := rfl
@[simp] theorem State.setSys_mem (s : State) (t : Nat) (v : SysLatch) : (s.setSys t v).mem = s.mem := rfl
@[simp] theorem State.setSys_junk (s : State) (t : Nat) (v : SysLatch) : (s.setSys t v).junk = s.junk := rfl
@[simp] theorem State.setSys_ctxs (s : State) (t : Nat) (v : SysLatch) : (s.setSys t v).ctxs = s.ctxs := rfl
@[simp] theorem State.setSys_pres (s : State) (t : Nat) (v : SysLatch) : (s.setSys t v).pres = s.pres := rfl
@[simp] theorem State.setSys_bals (s : State) (t : Nat) (v : SysLatch) : (s.setSys t v).bals = s.bals := rfl
@[simp] theorem State.setSys_flowLatch (s : State) (t : Nat) (v : SysLatch) : (s.setSys t v).flowLatch = s.flowLatch := rfl
@[simp] theorem State.setSys_runs (s : State) (t : Nat) (v : SysLatch) : (s.setSys t v).runs = s.runs := rfl
@[simp] theorem State.setSys_transients (s : State) (t : Nat) (v : SysLatch) : (s.setSys t v).transients = s.transients := rfl
@[simp] theorem State.setSys_image (s : State) (t : Nat) (v : SysLatch) : (s.setSys t v).image = s.image := rfl
@[simp] theorem State.setSys_oldImage (s : State) (t : Nat) (v : SysLatch) : (s.setSys t v).oldImage = s.oldImage := rfl
@[simp] theorem State.setSys_cfg (s : State) (t : Nat) (v : SysLatch) : (s.setSys t v).cfg = s.cfg := rfl
@[simp] theorem State.setSys_recQ (s : State) (t : Nat) (v : SysLatch) : (s.setSys t v).recQ = s.recQ := rfl
@[simp] theorem State.setSys_recRecent (s : State) (t : Nat) (v : SysLatch) : (s.setSys t v).recRecent = s.recRecent := rfl
@[simp] theorem State.setSys_recRew (s : State) (t : Nat) (v : SysLatch) : (s.setSys t v).recRew = s.recRew := rfl
@[simp] theorem State.setSys_olcImage (s : State) (t : Nat) (v : SysLatch) : (s.setSys t v).olcImage = s.olcImage := rfl
@[simp] theorem State.setSys_rodTab (s : State) (t : Nat) (v : SysLatch) : (s.setSys t v).rodTab = s.rodTab := rfl
@[simp] theorem State.setSys_flowTab (s : State) (t : Nat) (v : SysLatch) : (s.setSys t v).flowTab = s.flowTab := rfl
@[simp] theorem State.setSys_lastTx (s : State) (t : Nat) (v : SysLatch) : (s.setSys t v).lastTx = s.lastTx := rfl
@[simp] theorem State.setSys_openTx (s : State) (t : Nat) (v : SysLatch) : (s.setSys t v).openTx = s.openTx := rfl
@[simp] theorem State.setSys_openRx (s : State) (t : Nat) (v : SysLatch) : (s.setSys t v).openRx = s.openRx := rfl
@[simp] theorem State.setSys_descs (s : State) (t : Nat) (v : SysLatch) : (s.setSys t v).descs = s.descs := rfl
@[simp] theorem State.setSys_hostMem (s : State) (t : Nat) (v : SysLatch) : (s.setSys t v).hostMem = s.hostMem := rfl
@[simp] theorem State.setSys_farOps (s : State) (t : Nat) (v : SysLatch) : (s.setSys t v).farOps = s.farOps := rfl
@[simp] theorem State.setSys_lastCl (s : State) (t : Nat) (v : SysLatch) : (s.setSys t v).lastCl = s.lastCl := rfl
@[simp] theorem State.setSys_twinOut (s : State) (t : Nat) (v : SysLatch) : (s.setSys t v).twinOut = s.twinOut := rfl
@[simp] theorem State.setSys_shadowQ (s : State) (t : Nat) (v : SysLatch) : (s.setSys t v).shadowQ = s.shadowQ := rfl
@[simp] theorem State.setSys_wakeSeen (s : State) (t : Nat) (v : SysLatch) : (s.setSys t v).wakeSeen = s.wakeSeen := rfl

/-! ### `setFlowSeen` -/

@[simp] theorem State.setFlowSeen_pending (s : State) (t f : Nat) (v : FlowLatch) : (s.setFlowSeen t f v).pending = s.pending := rfl
@[simp] theorem State.setFlowSeen_freeCount (s : State) (t f : Nat) (v : FlowLatch) : (s.setFlowSeen t f v).freeCount = s.freeCount := rfl
@[simp] theorem State.setFlowSeen_fld (s : State) (t f : Nat) (v : FlowLatch) : (s.setFlowSeen t f v).fld = s.fld := rfl
@[simp] theorem State.setFlowSeen_mem (s : State) (t f : Nat) (v : FlowLatch) : (s.setFlowSeen t f v).mem = s.mem := rfl
@[simp] theorem State.setFlowSeen_junk (s : State) (t f : Nat) (v : FlowLatch) : (s.setFlowSeen t f v).junk = s.junk := rfl
@[simp] theorem State.setFlowSeen_ctxs (s : State) (t f : Nat) (v : FlowLatch) : (s.setFlowSeen t f v).ctxs = s.ctxs := rfl
@[simp] theorem State.setFlowSeen_pres (s : State) (t f : Nat) (v : FlowLatch) : (s.setFlowSeen t f v).pres = s.pres := rfl
@[simp] theorem State.setFlowSeen_bals (s : State) (t f : Nat) (v : FlowLatch) : (s.setFlowSeen t f v).bals = s.bals := rfl
@[simp] theorem State.setFlowSeen_sysLatch (s : State) (t f : Nat) (v : FlowLatch) : (s.setFlowSeen t f v).sysLatch = s.sysLatch := rfl
@[simp] theorem State.setFlowSeen_runs (s : State) (t f : Nat) (v : FlowLatch) : (s.setFlowSeen t f v).runs = s.runs := rfl
@[simp] theorem State.setFlowSeen_transients (s : State) (t f : Nat) (v : FlowLatch) : (s.setFlowSeen t f v).transients = s.transients := rfl
@[simp] theorem State.setFlowSeen_image (s : State) (t f : Nat) (v : FlowLatch) : (s.setFlowSeen t f v).image = s.image := rfl
@[simp] theorem State.setFlowSeen_oldImage (s : State) (t f : Nat) (v : FlowLatch) : (s.setFlowSeen t f v).oldImage = s.oldImage := rfl
@[simp] theorem State.setFlowSeen_cfg (s : State) (t f : Nat) (v : FlowLatch) : (s.setFlowSeen t f v).cfg = s.cfg := rfl
@[simp] theorem State.setFlowSeen_recQ (s : State) (t f : Nat) (v : FlowLatch) : (s.setFlowSeen t f v).recQ = s.recQ := rfl
@[simp] theorem State.setFlowSeen_recRecent (s : State) (t f : Nat) (v : FlowLatch) : (s.setFlowSeen t f v).recRecent = s.recRecent := rfl
@[simp] theorem State.setFlowSeen_recRew (s : State) (t f : Nat) (v : FlowLatch) : (s.setFlowSeen t f v).recRew = s.recRew := rfl
@[simp] theorem State.setFlowSeen_olcImage (s : State) (t f : Nat) (v : FlowLatch) : (s.setFlowSeen t f v).olcImage = s.olcImage := rfl
@[simp] theorem State.setFlowSeen_rodTab (s : State) (t f : Nat) (v : FlowLatch) : (s.setFlowSeen t f v).rodTab = s.rodTab := rfl
@[simp] theorem State.setFlowSeen_flowTab (s : State) (t f : Nat) (v : FlowLatch) : (s.setFlowSeen t f v).flowTab = s.flowTab := rfl
@[simp] theorem State.setFlowSeen_lastTx (s : State) (t f : Nat) (v : FlowLatch) : (s.setFlowSeen t f v).lastTx = s.lastTx := rfl
@[simp] theorem State.setFlowSeen_openTx (s : State) (t f : Nat) (v : FlowLatch) : (s.setFlowSeen t f v).openTx = s.openTx := rfl
@[simp] theorem State.setFlowSeen_openRx (s : State) (t f : Nat) (v : FlowLatch) : (s.setFlowSeen t f v).openRx = s.openRx := rfl
@[simp] theorem State.setFlowSeen_descs (s : State) (t f : Nat) (v : FlowLatch) : (s.setFlowSeen t f v).descs = s.descs := rfl
@[simp] theorem State.setFlowSeen_hostMem (s : State) (t f : Nat) (v : FlowLatch) : (s.setFlowSeen t f v).hostMem = s.hostMem := rfl
@[simp] theorem State.setFlowSeen_farOps (s : State) (t f : Nat) (v : FlowLatch) : (s.setFlowSeen t f v).farOps = s.farOps := rfl
@[simp] theorem State.setFlowSeen_lastCl (s : State) (t f : Nat) (v : FlowLatch) : (s.setFlowSeen t f v).lastCl = s.lastCl := rfl
@[simp] theorem State.setFlowSeen_twinOut (s : State) (t f : Nat) (v : FlowLatch) : (s.setFlowSeen t f v).twinOut = s.twinOut := rfl
@[simp] theorem State.setFlowSeen_shadowQ (s : State) (t f : Nat) (v : FlowLatch) : (s.setFlowSeen t f v).shadowQ = s.shadowQ := rfl
@[simp] theorem State.setFlowSeen_wakeSeen (s : State) (t f : Nat) (v : FlowLatch) : (s.setFlowSeen t f v).wakeSeen = s.wakeSeen := rfl

/-! ### `setRun` -/

@[simp] theorem State.setRun_pending (s : State) (x t : Nat) (l : Lane) (n : Nat) : (s.setRun x t l n).pending = s.pending := rfl
@[simp] theorem State.setRun_freeCount (s : State) (x t : Nat) (l : Lane) (n : Nat) : (s.setRun x t l n).freeCount = s.freeCount := rfl
@[simp] theorem State.setRun_fld (s : State) (x t : Nat) (l : Lane) (n : Nat) : (s.setRun x t l n).fld = s.fld := rfl
@[simp] theorem State.setRun_mem (s : State) (x t : Nat) (l : Lane) (n : Nat) : (s.setRun x t l n).mem = s.mem := rfl
@[simp] theorem State.setRun_junk (s : State) (x t : Nat) (l : Lane) (n : Nat) : (s.setRun x t l n).junk = s.junk := rfl
@[simp] theorem State.setRun_ctxs (s : State) (x t : Nat) (l : Lane) (n : Nat) : (s.setRun x t l n).ctxs = s.ctxs := rfl
@[simp] theorem State.setRun_pres (s : State) (x t : Nat) (l : Lane) (n : Nat) : (s.setRun x t l n).pres = s.pres := rfl
@[simp] theorem State.setRun_bals (s : State) (x t : Nat) (l : Lane) (n : Nat) : (s.setRun x t l n).bals = s.bals := rfl
@[simp] theorem State.setRun_sysLatch (s : State) (x t : Nat) (l : Lane) (n : Nat) : (s.setRun x t l n).sysLatch = s.sysLatch := rfl
@[simp] theorem State.setRun_flowLatch (s : State) (x t : Nat) (l : Lane) (n : Nat) : (s.setRun x t l n).flowLatch = s.flowLatch := rfl
@[simp] theorem State.setRun_transients (s : State) (x t : Nat) (l : Lane) (n : Nat) : (s.setRun x t l n).transients = s.transients := rfl
@[simp] theorem State.setRun_image (s : State) (x t : Nat) (l : Lane) (n : Nat) : (s.setRun x t l n).image = s.image := rfl
@[simp] theorem State.setRun_oldImage (s : State) (x t : Nat) (l : Lane) (n : Nat) : (s.setRun x t l n).oldImage = s.oldImage := rfl
@[simp] theorem State.setRun_cfg (s : State) (x t : Nat) (l : Lane) (n : Nat) : (s.setRun x t l n).cfg = s.cfg := rfl
@[simp] theorem State.setRun_recQ (s : State) (x t : Nat) (l : Lane) (n : Nat) : (s.setRun x t l n).recQ = s.recQ := rfl
@[simp] theorem State.setRun_recRecent (s : State) (x t : Nat) (l : Lane) (n : Nat) : (s.setRun x t l n).recRecent = s.recRecent := rfl
@[simp] theorem State.setRun_recRew (s : State) (x t : Nat) (l : Lane) (n : Nat) : (s.setRun x t l n).recRew = s.recRew := rfl
@[simp] theorem State.setRun_olcImage (s : State) (x t : Nat) (l : Lane) (n : Nat) : (s.setRun x t l n).olcImage = s.olcImage := rfl
@[simp] theorem State.setRun_rodTab (s : State) (x t : Nat) (l : Lane) (n : Nat) : (s.setRun x t l n).rodTab = s.rodTab := rfl
@[simp] theorem State.setRun_flowTab (s : State) (x t : Nat) (l : Lane) (n : Nat) : (s.setRun x t l n).flowTab = s.flowTab := rfl
@[simp] theorem State.setRun_lastTx (s : State) (x t : Nat) (l : Lane) (n : Nat) : (s.setRun x t l n).lastTx = s.lastTx := rfl
@[simp] theorem State.setRun_openTx (s : State) (x t : Nat) (l : Lane) (n : Nat) : (s.setRun x t l n).openTx = s.openTx := rfl
@[simp] theorem State.setRun_openRx (s : State) (x t : Nat) (l : Lane) (n : Nat) : (s.setRun x t l n).openRx = s.openRx := rfl
@[simp] theorem State.setRun_descs (s : State) (x t : Nat) (l : Lane) (n : Nat) : (s.setRun x t l n).descs = s.descs := rfl
@[simp] theorem State.setRun_hostMem (s : State) (x t : Nat) (l : Lane) (n : Nat) : (s.setRun x t l n).hostMem = s.hostMem := rfl
@[simp] theorem State.setRun_farOps (s : State) (x t : Nat) (l : Lane) (n : Nat) : (s.setRun x t l n).farOps = s.farOps := rfl
@[simp] theorem State.setRun_lastCl (s : State) (x t : Nat) (l : Lane) (n : Nat) : (s.setRun x t l n).lastCl = s.lastCl := rfl
@[simp] theorem State.setRun_twinOut (s : State) (x t : Nat) (l : Lane) (n : Nat) : (s.setRun x t l n).twinOut = s.twinOut := rfl
@[simp] theorem State.setRun_shadowQ (s : State) (x t : Nat) (l : Lane) (n : Nat) : (s.setRun x t l n).shadowQ = s.shadowQ := rfl
@[simp] theorem State.setRun_wakeSeen (s : State) (x t : Nat) (l : Lane) (n : Nat) : (s.setRun x t l n).wakeSeen = s.wakeSeen := rfl

/-! ### `free` -/

@[simp] theorem State.free_pending (s : State) (w : Nat) : (s.free w).2.pending = s.pending := rfl
@[simp] theorem State.free_fld (s : State) (w : Nat) : (s.free w).2.fld = s.fld := rfl
@[simp] theorem State.free_mem (s : State) (w : Nat) : (s.free w).2.mem = s.mem := rfl
@[simp] theorem State.free_junk (s : State) (w : Nat) : (s.free w).2.junk = s.junk := rfl
@[simp] theorem State.free_ctxs (s : State) (w : Nat) : (s.free w).2.ctxs = s.ctxs := rfl
@[simp] theorem State.free_pres (s : State) (w : Nat) : (s.free w).2.pres = s.pres := rfl
@[simp] theorem State.free_bals (s : State) (w : Nat) : (s.free w).2.bals = s.bals := rfl
@[simp] theorem State.free_sysLatch (s : State) (w : Nat) : (s.free w).2.sysLatch = s.sysLatch := rfl
@[simp] theorem State.free_flowLatch (s : State) (w : Nat) : (s.free w).2.flowLatch = s.flowLatch := rfl
@[simp] theorem State.free_runs (s : State) (w : Nat) : (s.free w).2.runs = s.runs := rfl
@[simp] theorem State.free_transients (s : State) (w : Nat) : (s.free w).2.transients = s.transients := rfl
@[simp] theorem State.free_image (s : State) (w : Nat) : (s.free w).2.image = s.image := rfl
@[simp] theorem State.free_oldImage (s : State) (w : Nat) : (s.free w).2.oldImage = s.oldImage := rfl
@[simp] theorem State.free_cfg (s : State) (w : Nat) : (s.free w).2.cfg = s.cfg := rfl
@[simp] theorem State.free_recQ (s : State) (w : Nat) : (s.free w).2.recQ = s.recQ := rfl
@[simp] theorem State.free_recRecent (s : State) (w : Nat) : (s.free w).2.recRecent = s.recRecent := rfl
@[simp] theorem State.free_recRew (s : State) (w : Nat) : (s.free w).2.recRew = s.recRew := rfl
@[simp] theorem State.free_olcImage (s : State) (w : Nat) : (s.free w).2.olcImage = s.olcImage := rfl
@[simp] theorem State.free_rodTab (s : State) (w : Nat) : (s.free w).2.rodTab = s.rodTab := rfl
@[simp] theorem State.free_flowTab (s : State) (w : Nat) : (s.free w).2.flowTab = s.flowTab := rfl
@[simp] theorem State.free_lastTx (s : State) (w : Nat) : (s.free w).2.lastTx = s.lastTx := rfl
@[simp] theorem State.free_openTx (s : State) (w : Nat) : (s.free w).2.openTx = s.openTx := rfl
@[simp] theorem State.free_openRx (s : State) (w : Nat) : (s.free w).2.openRx = s.openRx := rfl
@[simp] theorem State.free_descs (s : State) (w : Nat) : (s.free w).2.descs = s.descs := rfl
@[simp] theorem State.free_hostMem (s : State) (w : Nat) : (s.free w).2.hostMem = s.hostMem := rfl
@[simp] theorem State.free_farOps (s : State) (w : Nat) : (s.free w).2.farOps = s.farOps := rfl
@[simp] theorem State.free_lastCl (s : State) (w : Nat) : (s.free w).2.lastCl = s.lastCl := rfl
@[simp] theorem State.free_twinOut (s : State) (w : Nat) : (s.free w).2.twinOut = s.twinOut := rfl
@[simp] theorem State.free_shadowQ (s : State) (w : Nat) : (s.free w).2.shadowQ = s.shadowQ := rfl
@[simp] theorem State.free_wakeSeen (s : State) (w : Nat) : (s.free w).2.wakeSeen = s.wakeSeen := rfl

/-! ### Readers of another table -/

@[simp] theorem State.byte_set (s : State) (f : Fld) (v : Nat) (i : Nat) : (s.set f v).byte i = s.byte i := rfl
@[simp] theorem State.ctx_set (s : State) (f : Fld) (v : Nat) (m : Lane) (u : Nat) : (s.set f v).ctx m u = s.ctx m u := rfl
@[simp] theorem State.presOf_set (s : State) (f : Fld) (v : Nat) (m : Lane) (u : Nat) : (s.set f v).presOf m u = s.presOf m u := rfl
@[simp] theorem State.bal_set (s : State) (f : Fld) (v : Nat) (u : Nat) : (s.set f v).bal u = s.bal u := rfl
@[simp] theorem State.sys_set (s : State) (f : Fld) (v : Nat) (u : Nat) : (s.set f v).sys u = s.sys u := rfl
@[simp] theorem State.flowSeen_set (s : State) (f : Fld) (v : Nat) (u g : Nat) : (s.set f v).flowSeen u g = s.flowSeen u g := rfl
@[simp] theorem State.run_set (s : State) (f : Fld) (v : Nat) (y u : Nat) (m : Lane) : (s.set f v).run y u m = s.run y u m := rfl
@[simp] theorem State.byte_restore (s : State) (f : Fld) (n : Nat) (i : Nat) : (s.restore f n).byte i = s.byte i := rfl
@[simp] theorem State.ctx_restore (s : State) (f : Fld) (n : Nat) (m : Lane) (u : Nat) : (s.restore f n).ctx m u = s.ctx m u := rfl
@[simp] theorem State.presOf_restore (s : State) (f : Fld) (n : Nat) (m : Lane) (u : Nat) : (s.restore f n).presOf m u = s.presOf m u := rfl
@[simp] theorem State.bal_restore (s : State) (f : Fld) (n : Nat) (u : Nat) : (s.restore f n).bal u = s.bal u := rfl
@[simp] theorem State.sys_restore (s : State) (f : Fld) (n : Nat) (u : Nat) : (s.restore f n).sys u = s.sys u := rfl
@[simp] theorem State.flowSeen_restore (s : State) (f : Fld) (n : Nat) (u g : Nat) : (s.restore f n).flowSeen u g = s.flowSeen u g := rfl
@[simp] theorem State.run_restore (s : State) (f : Fld) (n : Nat) (y u : Nat) (m : Lane) : (s.restore f n).run y u m = s.run y u m := rfl
@[simp] theorem State.get_setByte (s : State) (a : Nat) (b : Byte) (g : Fld) : (s.setByte a b).get g = s.get g := rfl
@[simp] theorem State.ctx_setByte (s : State) (a : Nat) (b : Byte) (m : Lane) (u : Nat) : (s.setByte a b).ctx m u = s.ctx m u := rfl
@[simp] theorem State.presOf_setByte (s : State) (a : Nat) (b : Byte) (m : Lane) (u : Nat) : (s.setByte a b).presOf m u = s.presOf m u := rfl
@[simp] theorem State.bal_setByte (s : State) (a : Nat) (b : Byte) (u : Nat) : (s.setByte a b).bal u = s.bal u := rfl
@[simp] theorem State.sys_setByte (s : State) (a : Nat) (b : Byte) (u : Nat) : (s.setByte a b).sys u = s.sys u := rfl
@[simp] theorem State.flowSeen_setByte (s : State) (a : Nat) (b : Byte) (u g : Nat) : (s.setByte a b).flowSeen u g = s.flowSeen u g := rfl
@[simp] theorem State.run_setByte (s : State) (a : Nat) (b : Byte) (y u : Nat) (m : Lane) : (s.setByte a b).run y u m = s.run y u m := rfl
@[simp] theorem State.get_copy (s : State) (a b n : Nat) (g : Fld) : (s.copy a b n).get g = s.get g := rfl
@[simp] theorem State.ctx_copy (s : State) (a b n : Nat) (m : Lane) (u : Nat) : (s.copy a b n).ctx m u = s.ctx m u := rfl
@[simp] theorem State.presOf_copy (s : State) (a b n : Nat) (m : Lane) (u : Nat) : (s.copy a b n).presOf m u = s.presOf m u := rfl
@[simp] theorem State.bal_copy (s : State) (a b n : Nat) (u : Nat) : (s.copy a b n).bal u = s.bal u := rfl
@[simp] theorem State.sys_copy (s : State) (a b n : Nat) (u : Nat) : (s.copy a b n).sys u = s.sys u := rfl
@[simp] theorem State.flowSeen_copy (s : State) (a b n : Nat) (u g : Nat) : (s.copy a b n).flowSeen u g = s.flowSeen u g := rfl
@[simp] theorem State.run_copy (s : State) (a b n : Nat) (y u : Nat) (m : Lane) : (s.copy a b n).run y u m = s.run y u m := rfl
@[simp] theorem State.get_zero (s : State) (a n : Nat) (g : Fld) : (s.zero a n).get g = s.get g := rfl
@[simp] theorem State.ctx_zero (s : State) (a n : Nat) (m : Lane) (u : Nat) : (s.zero a n).ctx m u = s.ctx m u := rfl
@[simp] theorem State.presOf_zero (s : State) (a n : Nat) (m : Lane) (u : Nat) : (s.zero a n).presOf m u = s.presOf m u := rfl
@[simp] theorem State.bal_zero (s : State) (a n : Nat) (u : Nat) : (s.zero a n).bal u = s.bal u := rfl
@[simp] theorem State.sys_zero (s : State) (a n : Nat) (u : Nat) : (s.zero a n).sys u = s.sys u := rfl
@[simp] theorem State.flowSeen_zero (s : State) (a n : Nat) (u g : Nat) : (s.zero a n).flowSeen u g = s.flowSeen u g := rfl
@[simp] theorem State.run_zero (s : State) (a n : Nat) (y u : Nat) (m : Lane) : (s.zero a n).run y u m = s.run y u m := rfl
@[simp] theorem State.get_destroy (s : State) (a n : Nat) (g : Fld) : (s.destroy a n).get g = s.get g := rfl
@[simp] theorem State.ctx_destroy (s : State) (a n : Nat) (m : Lane) (u : Nat) : (s.destroy a n).ctx m u = s.ctx m u := rfl
@[simp] theorem State.presOf_destroy (s : State) (a n : Nat) (m : Lane) (u : Nat) : (s.destroy a n).presOf m u = s.presOf m u := rfl
@[simp] theorem State.bal_destroy (s : State) (a n : Nat) (u : Nat) : (s.destroy a n).bal u = s.bal u := rfl
@[simp] theorem State.sys_destroy (s : State) (a n : Nat) (u : Nat) : (s.destroy a n).sys u = s.sys u := rfl
@[simp] theorem State.flowSeen_destroy (s : State) (a n : Nat) (u g : Nat) : (s.destroy a n).flowSeen u g = s.flowSeen u g := rfl
@[simp] theorem State.run_destroy (s : State) (a n : Nat) (y u : Nat) (m : Lane) : (s.destroy a n).run y u m = s.run y u m := rfl
@[simp] theorem State.get_setCtx (s : State) (l : Lane) (t : Nat) (c : Ctx) (g : Fld) : (s.setCtx l t c).get g = s.get g := rfl
@[simp] theorem State.byte_setCtx (s : State) (l : Lane) (t : Nat) (c : Ctx) (i : Nat) : (s.setCtx l t c).byte i = s.byte i := rfl
@[simp] theorem State.presOf_setCtx (s : State) (l : Lane) (t : Nat) (c : Ctx) (m : Lane) (u : Nat) : (s.setCtx l t c).presOf m u = s.presOf m u := rfl
@[simp] theorem State.bal_setCtx (s : State) (l : Lane) (t : Nat) (c : Ctx) (u : Nat) : (s.setCtx l t c).bal u = s.bal u := rfl
@[simp] theorem State.sys_setCtx (s : State) (l : Lane) (t : Nat) (c : Ctx) (u : Nat) : (s.setCtx l t c).sys u = s.sys u := rfl
@[simp] theorem State.flowSeen_setCtx (s : State) (l : Lane) (t : Nat) (c : Ctx) (u g : Nat) : (s.setCtx l t c).flowSeen u g = s.flowSeen u g := rfl
@[simp] theorem State.run_setCtx (s : State) (l : Lane) (t : Nat) (c : Ctx) (y u : Nat) (m : Lane) : (s.setCtx l t c).run y u m = s.run y u m := rfl
@[simp] theorem State.get_setPres (s : State) (l : Lane) (t : Nat) (p : Option Pres) (g : Fld) : (s.setPres l t p).get g = s.get g := rfl
@[simp] theorem State.byte_setPres (s : State) (l : Lane) (t : Nat) (p : Option Pres) (i : Nat) : (s.setPres l t p).byte i = s.byte i := rfl
@[simp] theorem State.ctx_setPres (s : State) (l : Lane) (t : Nat) (p : Option Pres) (m : Lane) (u : Nat) : (s.setPres l t p).ctx m u = s.ctx m u := rfl
@[simp] theorem State.bal_setPres (s : State) (l : Lane) (t : Nat) (p : Option Pres) (u : Nat) : (s.setPres l t p).bal u = s.bal u := rfl
@[simp] theorem State.sys_setPres (s : State) (l : Lane) (t : Nat) (p : Option Pres) (u : Nat) : (s.setPres l t p).sys u = s.sys u := rfl
@[simp] theorem State.flowSeen_setPres (s : State) (l : Lane) (t : Nat) (p : Option Pres) (u g : Nat) : (s.setPres l t p).flowSeen u g = s.flowSeen u g := rfl
@[simp] theorem State.run_setPres (s : State) (l : Lane) (t : Nat) (p : Option Pres) (y u : Nat) (m : Lane) : (s.setPres l t p).run y u m = s.run y u m := rfl
@[simp] theorem State.get_setBal (s : State) (t : Nat) (b : Balance) (g : Fld) : (s.setBal t b).get g = s.get g := rfl
@[simp] theorem State.byte_setBal (s : State) (t : Nat) (b : Balance) (i : Nat) : (s.setBal t b).byte i = s.byte i := rfl
@[simp] theorem State.ctx_setBal (s : State) (t : Nat) (b : Balance) (m : Lane) (u : Nat) : (s.setBal t b).ctx m u = s.ctx m u := rfl
@[simp] theorem State.presOf_setBal (s : State) (t : Nat) (b : Balance) (m : Lane) (u : Nat) : (s.setBal t b).presOf m u = s.presOf m u := rfl
@[simp] theorem State.sys_setBal (s : State) (t : Nat) (b : Balance) (u : Nat) : (s.setBal t b).sys u = s.sys u := rfl
@[simp] theorem State.flowSeen_setBal (s : State) (t : Nat) (b : Balance) (u g : Nat) : (s.setBal t b).flowSeen u g = s.flowSeen u g := rfl
@[simp] theorem State.run_setBal (s : State) (t : Nat) (b : Balance) (y u : Nat) (m : Lane) : (s.setBal t b).run y u m = s.run y u m := rfl
@[simp] theorem State.get_setSys (s : State) (t : Nat) (v : SysLatch) (g : Fld) : (s.setSys t v).get g = s.get g := rfl
@[simp] theorem State.byte_setSys (s : State) (t : Nat) (v : SysLatch) (i : Nat) : (s.setSys t v).byte i = s.byte i := rfl
@[simp] theorem State.ctx_setSys (s : State) (t : Nat) (v : SysLatch) (m : Lane) (u : Nat) : (s.setSys t v).ctx m u = s.ctx m u := rfl
@[simp] theorem State.presOf_setSys (s : State) (t : Nat) (v : SysLatch) (m : Lane) (u : Nat) : (s.setSys t v).presOf m u = s.presOf m u := rfl
@[simp] theorem State.bal_setSys (s : State) (t : Nat) (v : SysLatch) (u : Nat) : (s.setSys t v).bal u = s.bal u := rfl
@[simp] theorem State.flowSeen_setSys (s : State) (t : Nat) (v : SysLatch) (u g : Nat) : (s.setSys t v).flowSeen u g = s.flowSeen u g := rfl
@[simp] theorem State.run_setSys (s : State) (t : Nat) (v : SysLatch) (y u : Nat) (m : Lane) : (s.setSys t v).run y u m = s.run y u m := rfl
@[simp] theorem State.get_setFlowSeen (s : State) (t f : Nat) (v : FlowLatch) (g : Fld) : (s.setFlowSeen t f v).get g = s.get g := rfl
@[simp] theorem State.byte_setFlowSeen (s : State) (t f : Nat) (v : FlowLatch) (i : Nat) : (s.setFlowSeen t f v).byte i = s.byte i := rfl
@[simp] theorem State.ctx_setFlowSeen (s : State) (t f : Nat) (v : FlowLatch) (m : Lane) (u : Nat) : (s.setFlowSeen t f v).ctx m u = s.ctx m u := rfl
@[simp] theorem State.presOf_setFlowSeen (s : State) (t f : Nat) (v : FlowLatch) (m : Lane) (u : Nat) : (s.setFlowSeen t f v).presOf m u = s.presOf m u := rfl
@[simp] theorem State.bal_setFlowSeen (s : State) (t f : Nat) (v : FlowLatch) (u : Nat) : (s.setFlowSeen t f v).bal u = s.bal u := rfl
@[simp] theorem State.sys_setFlowSeen (s : State) (t f : Nat) (v : FlowLatch) (u : Nat) : (s.setFlowSeen t f v).sys u = s.sys u := rfl
@[simp] theorem State.run_setFlowSeen (s : State) (t f : Nat) (v : FlowLatch) (y u : Nat) (m : Lane) : (s.setFlowSeen t f v).run y u m = s.run y u m := rfl
@[simp] theorem State.get_setRun (s : State) (x t : Nat) (l : Lane) (n : Nat) (g : Fld) : (s.setRun x t l n).get g = s.get g := rfl
@[simp] theorem State.byte_setRun (s : State) (x t : Nat) (l : Lane) (n : Nat) (i : Nat) : (s.setRun x t l n).byte i = s.byte i := rfl
@[simp] theorem State.ctx_setRun (s : State) (x t : Nat) (l : Lane) (n : Nat) (m : Lane) (u : Nat) : (s.setRun x t l n).ctx m u = s.ctx m u := rfl
@[simp] theorem State.presOf_setRun (s : State) (x t : Nat) (l : Lane) (n : Nat) (m : Lane) (u : Nat) : (s.setRun x t l n).presOf m u = s.presOf m u := rfl
@[simp] theorem State.bal_setRun (s : State) (x t : Nat) (l : Lane) (n : Nat) (u : Nat) : (s.setRun x t l n).bal u = s.bal u := rfl
@[simp] theorem State.sys_setRun (s : State) (x t : Nat) (l : Lane) (n : Nat) (u : Nat) : (s.setRun x t l n).sys u = s.sys u := rfl
@[simp] theorem State.flowSeen_setRun (s : State) (x t : Nat) (l : Lane) (n : Nat) (u g : Nat) : (s.setRun x t l n).flowSeen u g = s.flowSeen u g := rfl
@[simp] theorem State.get_free (s : State) (w : Nat) (g : Fld) : (s.free w).2.get g = s.get g := rfl
@[simp] theorem State.byte_free (s : State) (w : Nat) (i : Nat) : (s.free w).2.byte i = s.byte i := rfl
@[simp] theorem State.ctx_free (s : State) (w : Nat) (m : Lane) (u : Nat) : (s.free w).2.ctx m u = s.ctx m u := rfl
@[simp] theorem State.presOf_free (s : State) (w : Nat) (m : Lane) (u : Nat) : (s.free w).2.presOf m u = s.presOf m u := rfl
@[simp] theorem State.bal_free (s : State) (w : Nat) (u : Nat) : (s.free w).2.bal u = s.bal u := rfl
@[simp] theorem State.sys_free (s : State) (w : Nat) (u : Nat) : (s.free w).2.sys u = s.sys u := rfl
@[simp] theorem State.flowSeen_free (s : State) (w : Nat) (u g : Nat) : (s.free w).2.flowSeen u g = s.flowSeen u g := rfl
@[simp] theorem State.run_free (s : State) (w : Nat) (y u : Nat) (m : Lane) : (s.free w).2.run y u m = s.run y u m := rfl

/-! ### Reading back -/

theorem State.get_set_same (s : State) (f : Fld) (v : Nat) : (s.set f v).get f = v % 2 ^ f.w :=
  Sparse.get_set_same _ _ _ _

theorem State.get_set_other (s : State) {f g : Fld} (v : Nat) (h : g.key ≠ f.key) : (s.set f v).get g = s.get g :=
  Sparse.get_set_other _ _ _ _ h

/-- A field reads back a value that fits, another field is as it was. -/
theorem State.get_set (s : State) (f g : Fld) (v : Nat) (h : g.key = f.key → g = f) :
    (s.set f v).get g = if g = f then v % 2 ^ f.w else s.get g := by
  split
  · rename_i e; subst e; exact State.get_set_same s g v
  · rename_i e; exact State.get_set_other s v fun k => e (h k)

theorem State.get_put_same (s : State) {f : Fld} (b : Bool) (h : 0 < f.w) : (s.put f b).get f = bit b := by
  have : 2 ≤ 2 ^ f.w := Nat.le_trans (by decide : 2 ≤ 2 ^ 1) (Nat.pow_le_pow_right (by decide) h)
  refine (State.get_set_same s f _).trans (Nat.mod_eq_of_lt ?_)
  cases b <;> simp [bit] <;> omega

theorem State.get_put_other (s : State) {f g : Fld} (b : Bool) (h : g.key ≠ f.key) : (s.put f b).get g = s.get g :=
  State.get_set_other s _ h

theorem State.get_add_same (s : State) (f : Fld) (n : Nat) : (s.add f n).get f = min (s.get f + n) (2 ^ f.w - 1) := by
  refine (State.get_set_same s f _).trans (Nat.mod_eq_of_lt ?_)
  have := Nat.two_pow_pos f.w
  unfold satAdd; omega

theorem State.get_add_other (s : State) {f g : Fld} (n : Nat) (h : g.key ≠ f.key) : (s.add f n).get g = s.get g :=
  State.get_set_other s _ h

theorem State.get_raise_flag (s : State) {f c : Fld} (h : f.key ≠ c.key) (w : 0 < f.w) : (s.raise f c).get f = 1 := by
  refine (State.get_add_other _ 1 h).trans ((State.get_set_same s f 1).trans (Nat.mod_eq_of_lt ?_))
  exact Nat.lt_of_lt_of_le (by decide : 1 < 2 ^ 1) (Nat.pow_le_pow_right (by decide) w)

theorem State.get_raise_count (s : State) {f c : Fld} (h : c.key ≠ f.key) :
    (s.raise f c).get c = min (s.get c + 1) (2 ^ c.w - 1) := by
  unfold State.raise State.inc
  rw [State.get_add_same, State.get_set_other _ _ h]

theorem State.get_raise_other (s : State) {f c g : Fld} (h : g.key ≠ f.key) (k : g.key ≠ c.key) :
    (s.raise f c).get g = s.get g := (State.get_add_other _ 1 k).trans (State.get_set_other s 1 h)

theorem State.byte_setByte (s : State) (a i : Nat) (b : Byte) : (s.setByte a b).byte i = if i = a then b else s.byte i := by
  split
  · rename_i h; subst h; exact State.byte_setByte_same s i b
  · rename_i h; exact State.byte_setByte_other s b h

theorem ltKey_inj {l m : Lane} {t u : Nat} (ht : t < 16) (hu : u < 16) (h : ltKey l t = ltKey m u) : l = m ∧ t = u := by
  unfold ltKey at h
  cases l <;> cases m <;> simp [Lane.idx] at h ⊢ <;> omega

theorem State.ctx_setCtx_same (s : State) (l : Lane) (t : Nat) (c : Ctx) : (s.setCtx l t c).ctx l t = c :=
  Sparse.get_set_same _ _ _ _

theorem State.ctx_setCtx_other (s : State) {l m : Lane} {t u : Nat} (c : Ctx) (h : ltKey m u ≠ ltKey l t) :
    (s.setCtx l t c).ctx m u = s.ctx m u := Sparse.get_set_other _ _ _ _ h

theorem State.presOf_setPres_same (s : State) (l : Lane) (t : Nat) (p : Option Pres) : (s.setPres l t p).presOf l t = p :=
  Sparse.get_set_same _ _ _ _

theorem State.bal_setBal_same (s : State) (t : Nat) (b : Balance) : (s.setBal t b).bal t = b := Sparse.get_set_same _ _ _ _

/-! ### Words and runs of bytes -/

theorem State.wr_only (s : State) (a n v : Nat) : { s.wr a n v with mem := s.mem } = s := by
  induction n generalizing s a v with
  | zero => rfl
  | succ n ih =>
    have h := ih (s.setByte a (BitVec.ofNat 8 v)) (a + 1) (v / 256)
    have : ({ s.wr a (n + 1) v with mem := s.mem } : State) =
        { { (s.setByte a (BitVec.ofNat 8 v)).wr (a + 1) n (v / 256) with mem := (s.setByte a (BitVec.ofNat 8 v)).mem } with mem := s.mem } := rfl
    rw [this, h]; rfl

theorem State.byte_wr_other (s : State) {a n : Nat} (v i : Nat) (h : i < a ∨ a + n ≤ i) : (s.wr a n v).byte i = s.byte i := by
  induction n generalizing s a v with
  | zero => rfl
  | succ n ih =>
    unfold State.wr
    rw [ih _ _ (by omega), State.byte_setByte_other _ _ (by omega)]

theorem State.rd_congr {s t : State} {a n : Nat} (h : ∀ i, a ≤ i → i < a + n → t.byte i = s.byte i) : t.rd a n = s.rd a n := by
  induction n generalizing a with
  | zero => rfl
  | succ n ih =>
    unfold State.rd
    rw [h a (by omega) (by omega), ih fun i h1 h2 => h i (by omega) (by omega)]

theorem State.rd_wr_same (s : State) (a n v : Nat) : (s.wr a n v).rd a n = v % 256 ^ n := by
  induction n generalizing s a v with
  | zero => simp [State.rd, Nat.mod_one]
  | succ n ih =>
    unfold State.wr State.rd
    rw [ih, State.byte_wr_other _ _ _ (by omega), State.byte_setByte_same]
    have h : (BitVec.ofNat 8 v).toNat = v % 256 := BitVec.toNat_ofNat v 8
    rw [h, Nat.pow_succ', Nat.mod_mul]

theorem State.rd_wr_other (s : State) {a n b k : Nat} (v : Nat) (h : b + k ≤ a ∨ a + n ≤ b) :
    (s.wr a n v).rd b k = s.rd b k := State.rd_congr fun i h1 h2 => State.byte_wr_other s v i (by omega)

theorem State.word_setWord_same (s : State) (a : Nat) (w : Word) : (s.setWord a w).word a = w := by
  unfold State.word State.setWord
  rw [State.rd_wr_same]
  apply BitVec.eq_of_toNat_eq
  have := w.isLt
  rw [BitVec.toNat_ofNat]; omega

theorem State.setWord_only (s : State) (a : Nat) (w : Word) : { s.setWord a w with mem := s.mem } = s := State.wr_only s a 4 _

theorem State.setWords_only (s : State) (a : Nat) (ws : List Word) : { s.setWords a ws with mem := s.mem } = s := by
  induction ws generalizing s a with
  | nil => rfl
  | cons w r ih =>
    have h := ih (s.setWord a w) (a + 4)
    have : ({ s.setWords a (w :: r) with mem := s.mem } : State) =
        { { (s.setWord a w).setWords (a + 4) r with mem := (s.setWord a w).mem } with mem := s.mem } := rfl
    rw [this, h]; exact State.setWord_only s a w

theorem State.setBytes_only (s : State) (a : Nat) (bs : List Byte) : { s.setBytes a bs with mem := s.mem } = s := by
  induction bs generalizing s a with
  | nil => rfl
  | cons b r ih =>
    have h := ih (s.setByte a b) (a + 1)
    have : ({ s.setBytes a (b :: r) with mem := s.mem } : State) =
        { { (s.setByte a b).setBytes (a + 1) r with mem := (s.setByte a b).mem } with mem := s.mem } := rfl
    rw [this, h]; rfl

theorem State.byte_setBytes_other (s : State) {a : Nat} {bs : List Byte} (i : Nat) (h : i < a ∨ a + bs.length ≤ i) :
    (s.setBytes a bs).byte i = s.byte i := by
  induction bs generalizing s a with
  | nil => rfl
  | cons b r ih =>
    simp only [List.length_cons] at h
    unfold State.setBytes
    rw [ih _ (by omega), State.byte_setByte_other _ _ (by omega)]

theorem State.bytes_congr {s t : State} {a n : Nat} (h : ∀ i, a ≤ i → i < a + n → t.byte i = s.byte i) :
    t.bytes a n = s.bytes a n := by
  induction n generalizing a with
  | zero => rfl
  | succ n ih =>
    unfold State.bytes
    rw [h a (by omega) (by omega), ih fun i h1 h2 => h i (by omega) (by omega)]

theorem State.bytes_setBytes_same (s : State) (a : Nat) (bs : List Byte) : (s.setBytes a bs).bytes a bs.length = bs := by
  induction bs generalizing s a with
  | nil => rfl
  | cons b r ih =>
    unfold State.setBytes
    simp only [List.length_cons, State.bytes]
    rw [ih, State.byte_setBytes_other _ _ (by omega), State.byte_setByte_same]

end Sys2Proof.Machine
end

