-- ==== Sys2Proof/Laws/Events.lean ====
section
/-! SUPPORT. What recording an event changes: the recorder's lists and its own fields, nothing else (R384, R387, R388). -/

namespace Sys2Proof.Machine
open Reg Hid

theorem State.only_refl (s : State) (fs : List Fld) : s.only s fs := ⟨rfl, fun _ _ => rfl⟩

theorem State.onlyAndEvents_refl (s : State) (fs : List Fld) : s.onlyAndEvents s fs := ⟨rfl, fun _ _ => rfl⟩

theorem State.onlyAndEvents.trans {a b c : State} {fs : List Fld} (h : a.onlyAndEvents b fs) (k : b.onlyAndEvents c fs) :
    a.onlyAndEvents c fs := by
  refine ⟨?_, fun f hf => (k.2 f hf).trans (h.2 f hf)⟩
  have hk := k.1
  have hh := h.1
  rw [← hk] at hh
  exact hh

theorem State.onlyAndEvents.mono {a b : State} {fs gs : List Fld} (h : a.onlyAndEvents b fs) (k : ∀ f ∈ fs, f ∈ gs) :
    a.onlyAndEvents b gs := by
  refine ⟨h.1, fun f hf => h.2 f fun g hg => hf g ?_⟩
  simp only [List.mem_append] at hg ⊢
  exact hg.imp (k g) id

theorem State.onlyAndEvents.set {a b : State} {fs : List Fld} {f : Fld} (v : Nat) (h : a.onlyAndEvents b fs)
    (hf : f ∈ fs ++ recorderFields) : a.onlyAndEvents (b.set f v) fs :=
  ⟨h.1, fun g hg => (State.get_set_other b v (hg f hf)).trans (h.2 g hg)⟩

theorem State.only.set {a b : State} {fs : List Fld} {f : Fld} (v : Nat) (h : a.only b fs) (hf : f ∈ fs) :
    a.only (b.set f v) fs :=
  ⟨h.1, fun g hg => (State.get_set_other b v (hg f hf)).trans (h.2 g hg)⟩

/-- What does not look at the fields or the recorder's lists is as it was. -/
theorem State.onlyAndEvents.proj {α : Type} {a b : State} {fs : List Fld} (h : a.onlyAndEvents b fs) (π : State → α)
    (hp : π { b with fld := a.fld, recQ := a.recQ, recRecent := a.recRecent, recRew := a.recRew } = π b) : π b = π a :=
  hp.symm.trans (congrArg π h.1)

/-- An event record changes the recorder and nothing else. -/
theorem State.ev_onlyAndEvents (s : State) (code src p32 a b c : Nat) : s.onlyAndEvents (s.ev code src p32 a b c) [] := by
  have r := fun (f : Fld) (h : f ∈ recorderFields) => show f ∈ [] ++ recorderFields from h
  have base : ∀ (x y z : List Rec), s.onlyAndEvents { s with recQ := x, recRecent := y, recRew := z } [] :=
    fun _ _ _ => ⟨rfl, fun _ _ => rfl⟩
  unfold State.ev
  extract_lets sb t
  split
  · unfold State.mergeInto
    extract_lets up queued t u
    have hu : s.onlyAndEvents u [] := by
      show s.onlyAndEvents (if queued then t else if t.recRew.any _ then _ else _) []
      split
      · exact base _ _ _
      · split
        · exact base _ _ _
        · exact base _ _ _
    exact hu.set _ (r _ (by decide))
  · split
    · exact (State.onlyAndEvents_refl s []).set _ (r _ (by decide))
    · split
      · have ht : s.onlyAndEvents t [] := by
          show s.onlyAndEvents (if _ then _ else _) []
          split
          · exact ((State.onlyAndEvents_refl s []).set _ (r _ (by decide))).set _ (r _ (by decide))
          · exact State.onlyAndEvents_refl s []
        exact (((ht.set _ (r _ (by decide))).set _ (r _ (by decide))).set _ (r _ (by decide))).set _ (r _ (by decide))
      · unfold State.enqueueRec
        extract_lets n ready rec t u v
        have hv : s.onlyAndEvents v [] := by
          show s.onlyAndEvents (if ready then _ else _) []
          split
          · exact ((base _ _ _).set _ (r _ (by decide))).set _ (r _ (by decide))
          · exact (base _ _ _).set _ (r _ (by decide))
        exact hv.set _ (r _ (by decide))

/-- A field outside the recorder reads after an event what it read before it. -/
theorem State.get_ev (s : State) {f : Fld} (code src p32 a b c : Nat) (h : ∀ g ∈ recorderFields, f.key ≠ g.key) :
    (s.ev code src p32 a b c).get f = s.get f := (State.ev_onlyAndEvents s code src p32 a b c).2 f h

@[simp] theorem State.ev_pending (s : State) (code src p32 a b c : Nat) : (s.ev code src p32 a b c).pending = s.pending :=
  (State.ev_onlyAndEvents s code src p32 a b c).proj State.pending rfl
@[simp] theorem State.ev_freeCount (s : State) (code src p32 a b c : Nat) : (s.ev code src p32 a b c).freeCount = s.freeCount :=
  (State.ev_onlyAndEvents s code src p32 a b c).proj State.freeCount rfl
@[simp] theorem State.ev_mem (s : State) (code src p32 a b c : Nat) : (s.ev code src p32 a b c).mem = s.mem :=
  (State.ev_onlyAndEvents s code src p32 a b c).proj State.mem rfl
@[simp] theorem State.ev_junk (s : State) (code src p32 a b c : Nat) : (s.ev code src p32 a b c).junk = s.junk :=
  (State.ev_onlyAndEvents s code src p32 a b c).proj State.junk rfl
@[simp] theorem State.ev_ctxs (s : State) (code src p32 a b c : Nat) : (s.ev code src p32 a b c).ctxs = s.ctxs :=
  (State.ev_onlyAndEvents s code src p32 a b c).proj State.ctxs rfl
@[simp] theorem State.ev_pres (s : State) (code src p32 a b c : Nat) : (s.ev code src p32 a b c).pres = s.pres :=
  (State.ev_onlyAndEvents s code src p32 a b c).proj State.pres rfl
@[simp] theorem State.ev_bals (s : State) (code src p32 a b c : Nat) : (s.ev code src p32 a b c).bals = s.bals :=
  (State.ev_onlyAndEvents s code src p32 a b c).proj State.bals rfl
@[simp] theorem State.ev_sysLatch (s : State) (code src p32 a b c : Nat) : (s.ev code src p32 a b c).sysLatch = s.sysLatch :=
  (State.ev_onlyAndEvents s code src p32 a b c).proj State.sysLatch rfl
@[simp] theorem State.ev_flowLatch (s : State) (code src p32 a b c : Nat) : (s.ev code src p32 a b c).flowLatch = s.flowLatch :=
  (State.ev_onlyAndEvents s code src p32 a b c).proj State.flowLatch rfl
@[simp] theorem State.ev_runs (s : State) (code src p32 a b c : Nat) : (s.ev code src p32 a b c).runs = s.runs :=
  (State.ev_onlyAndEvents s code src p32 a b c).proj State.runs rfl
@[simp] theorem State.ev_transients (s : State) (code src p32 a b c : Nat) : (s.ev code src p32 a b c).transients = s.transients :=
  (State.ev_onlyAndEvents s code src p32 a b c).proj State.transients rfl
@[simp] theorem State.ev_image (s : State) (code src p32 a b c : Nat) : (s.ev code src p32 a b c).image = s.image :=
  (State.ev_onlyAndEvents s code src p32 a b c).proj State.image rfl
@[simp] theorem State.ev_oldImage (s : State) (code src p32 a b c : Nat) : (s.ev code src p32 a b c).oldImage = s.oldImage :=
  (State.ev_onlyAndEvents s code src p32 a b c).proj State.oldImage rfl
@[simp] theorem State.ev_cfg (s : State) (code src p32 a b c : Nat) : (s.ev code src p32 a b c).cfg = s.cfg :=
  (State.ev_onlyAndEvents s code src p32 a b c).proj State.cfg rfl
@[simp] theorem State.ev_olcImage (s : State) (code src p32 a b c : Nat) : (s.ev code src p32 a b c).olcImage = s.olcImage :=
  (State.ev_onlyAndEvents s code src p32 a b c).proj State.olcImage rfl
@[simp] theorem State.ev_rodTab (s : State) (code src p32 a b c : Nat) : (s.ev code src p32 a b c).rodTab = s.rodTab :=
  (State.ev_onlyAndEvents s code src p32 a b c).proj State.rodTab rfl
@[simp] theorem State.ev_flowTab (s : State) (code src p32 a b c : Nat) : (s.ev code src p32 a b c).flowTab = s.flowTab :=
  (State.ev_onlyAndEvents s code src p32 a b c).proj State.flowTab rfl
@[simp] theorem State.ev_lastTx (s : State) (code src p32 a b c : Nat) : (s.ev code src p32 a b c).lastTx = s.lastTx :=
  (State.ev_onlyAndEvents s code src p32 a b c).proj State.lastTx rfl
@[simp] theorem State.ev_openTx (s : State) (code src p32 a b c : Nat) : (s.ev code src p32 a b c).openTx = s.openTx :=
  (State.ev_onlyAndEvents s code src p32 a b c).proj State.openTx rfl
@[simp] theorem State.ev_openRx (s : State) (code src p32 a b c : Nat) : (s.ev code src p32 a b c).openRx = s.openRx :=
  (State.ev_onlyAndEvents s code src p32 a b c).proj State.openRx rfl
@[simp] theorem State.ev_descs (s : State) (code src p32 a b c : Nat) : (s.ev code src p32 a b c).descs = s.descs :=
  (State.ev_onlyAndEvents s code src p32 a b c).proj State.descs rfl
@[simp] theorem State.ev_hostMem (s : State) (code src p32 a b c : Nat) : (s.ev code src p32 a b c).hostMem = s.hostMem :=
  (State.ev_onlyAndEvents s code src p32 a b c).proj State.hostMem rfl
@[simp] theorem State.ev_farOps (s : State) (code src p32 a b c : Nat) : (s.ev code src p32 a b c).farOps = s.farOps :=
  (State.ev_onlyAndEvents s code src p32 a b c).proj State.farOps rfl
@[simp] theorem State.ev_lastCl (s : State) (code src p32 a b c : Nat) : (s.ev code src p32 a b c).lastCl = s.lastCl :=
  (State.ev_onlyAndEvents s code src p32 a b c).proj State.lastCl rfl
@[simp] theorem State.ev_twinOut (s : State) (code src p32 a b c : Nat) : (s.ev code src p32 a b c).twinOut = s.twinOut :=
  (State.ev_onlyAndEvents s code src p32 a b c).proj State.twinOut rfl
@[simp] theorem State.ev_shadowQ (s : State) (code src p32 a b c : Nat) : (s.ev code src p32 a b c).shadowQ = s.shadowQ :=
  (State.ev_onlyAndEvents s code src p32 a b c).proj State.shadowQ rfl
@[simp] theorem State.ev_wakeSeen (s : State) (code src p32 a b c : Nat) : (s.ev code src p32 a b c).wakeSeen = s.wakeSeen :=
  (State.ev_onlyAndEvents s code src p32 a b c).proj State.wakeSeen rfl

end Sys2Proof.Machine
end

