-- ==== Sys2Proof/Laws/Keeps.lean ====
section
/-! SUPPORT. What every operation keeps: the queue of waiting commands, the canonical form of the tables and of memory; here
for the named operations over fields, memory and records. -/

namespace Sys2Proof.Machine
open Reg Hid

/-- `t` comes from `s` by operations that leave the queue alone and keep the canonical form. -/
structure State.Keeps (s t : State) : Prop where
  queue : t.pending = s.pending
  tables : s.tablesWf = true → t.tablesWf = true
  memory : Memory.wf s.junk s.mem = true → Memory.wf t.junk t.mem = true

namespace Keeps

theorem refl (s : State) : s.Keeps s := ⟨rfl, id, id⟩

theorem trans {a b c : State} (h : a.Keeps b) (k : b.Keeps c) : a.Keeps c :=
  ⟨k.queue.trans h.queue, fun x => k.tables (h.tables x), fun x => k.memory (h.memory x)⟩

/-- An update that leaves the queue, the tables and memory as they are. -/
theorem other {b s t : State} (h : b.Keeps s) (hq : t.pending = s.pending) (ht : t.tablesWf = s.tablesWf)
    (hj : t.junk = s.junk) (hm : t.mem = s.mem) : b.Keeps t :=
  trans h ⟨hq, fun x => ht.trans x, fun x => by rw [hj, hm]; exact x⟩

/-- An update of the tables that keeps their keys rising. -/
theorem table {b s t : State} (h : b.Keeps s) (hq : t.pending = s.pending) (ht : s.tablesWf = true → t.tablesWf = true)
    (hj : t.junk = s.junk) (hm : t.mem = s.mem) : b.Keeps t :=
  trans h ⟨hq, ht, fun x => by rw [hj, hm]; exact x⟩

/-- An update of memory that keeps its canonical form. -/
theorem bytes {b s t : State} (h : b.Keeps s) (hq : t.pending = s.pending) (ht : t.tablesWf = s.tablesWf)
    (hm : Memory.wf s.junk s.mem = true → Memory.wf t.junk t.mem = true) : b.Keeps t :=
  trans h ⟨hq, fun x => ht.trans x, hm⟩

/-- The seven tables. -/
theorem tablesWf_iff {s : State} : s.tablesWf = true ↔ Sparse.rising 0 s.fld = true ∧ Sparse.rising 0 s.ctxs = true ∧
    Sparse.rising 0 s.pres = true ∧ Sparse.rising 0 s.bals = true ∧ Sparse.rising 0 s.sysLatch = true ∧
    Sparse.rising 0 s.flowLatch = true ∧ Sparse.rising 0 s.runs = true := by
  simp [State.tablesWf, and_assoc]

theorem fldTo {b s : State} (m : List (Nat × Nat)) (h : b.Keeps s) (hm : Sparse.rising 0 s.fld = true → Sparse.rising 0 m = true) :
    b.Keeps { s with fld := m } :=
  table h rfl (fun x => by rw [tablesWf_iff] at x ⊢; exact ⟨hm x.1, x.2⟩) rfl rfl

theorem set {b s : State} {f : Fld} {v : Nat} (h : b.Keeps s) : b.Keeps (s.set f v) :=
  fldTo _ h fun x => Sparse.rising_set _ _ _ x

theorem restore {b s : State} {f : Fld} {n : Nat} (h : b.Keeps s) : b.Keeps (s.restore f n) :=
  fldTo _ h fun x => Sparse.rising_clear _ _ x

theorem resetRegs {b s : State} {a n : Nat} (h : b.Keeps s) : b.Keeps (s.resetRegs a n) :=
  fldTo _ h fun x => Sparse.rising_clear _ _ x

theorem put {b s : State} {f : Fld} {v : Bool} (h : b.Keeps s) : b.Keeps (s.put f v) := set h

theorem add {b s : State} {f : Fld} {n : Nat} (h : b.Keeps s) : b.Keeps (s.add f n) := set h

theorem inc {b s : State} {f : Fld} (h : b.Keeps s) : b.Keeps (s.inc f) := add h

theorem raise {b s : State} {f c : Fld} (h : b.Keeps s) : b.Keeps (s.raise f c) := inc (set h)

theorem setIf {b s : State} {c : Bool} {f : Fld} {v : Nat} (h : b.Keeps s) : b.Keeps (s.setIf c f v) := by
  unfold State.setIf; split
  · exact set h
  · exact h

theorem when {b s : State} {c : Bool} {f : State → State} (h : b.Keeps s) (hf : ∀ s, b.Keeps s → b.Keeps (f s)) :
    b.Keeps (s.when c f) := by
  unfold State.when; split
  · exact hf s h
  · exact h

theorem each {α : Type} {b s : State} {l : List α} {f : State → α → State} (h : b.Keeps s)
    (hf : ∀ s x, b.Keeps s → b.Keeps (f s x)) : b.Keeps (s.each l f) := by
  unfold State.each
  induction l generalizing s with
  | nil => exact h
  | cons x r ih => exact ih (hf s x h)

theorem foldl {α β : Type} {b : State} {l : List α} {f : State × β → α → State × β} {p : State × β} (h : b.Keeps p.1)
    (hf : ∀ p x, b.Keeps p.1 → b.Keeps (f p x).1) : b.Keeps (l.foldl f p).1 := by
  induction l generalizing p with
  | nil => exact h
  | cons x r ih => exact ih (hf p x h)

theorem foldlState {α : Type} {b s : State} {l : List α} {f : State → α → State} (h : b.Keeps s)
    (hf : ∀ s x, b.Keeps s → b.Keeps (f s x)) : b.Keeps (l.foldl f s) := each h hf

theorem setByte {b s : State} {a : Nat} {v : Byte} (h : b.Keeps s) : b.Keeps (s.setByte a v) :=
  bytes h rfl rfl (State.setByte_memory s a v)

theorem wr {b s : State} {a n v : Nat} (h : b.Keeps s) : b.Keeps (s.wr a n v) := by
  induction n generalizing s a v with
  | zero => exact h
  | succ n ih => exact ih (setByte h)

theorem setWord {b s : State} {a : Nat} {w : Word} (h : b.Keeps s) : b.Keeps (s.setWord a w) := wr h

theorem setWords {b s : State} {a : Nat} {ws : List Word} (h : b.Keeps s) : b.Keeps (s.setWords a ws) := by
  induction ws generalizing s a with
  | nil => exact h
  | cons w r ih => exact ih (setWord h)

theorem setBytes {b s : State} {a : Nat} {bs : List Byte} (h : b.Keeps s) : b.Keeps (s.setBytes a bs) := by
  induction bs generalizing s a with
  | nil => exact h
  | cons w r ih => exact ih (setByte h)

theorem copy {b s : State} {src dst n : Nat} (h : b.Keeps s) : b.Keeps (s.copy src dst n) :=
  bytes h rfl rfl (State.copy_memory s src dst n)

theorem zero {b s : State} {a n : Nat} (h : b.Keeps s) : b.Keeps (s.zero a n) := bytes h rfl rfl (State.zero_memory s a n)

theorem destroy {b s : State} {a n : Nat} (h : b.Keeps s) : b.Keeps (s.destroy a n) :=
  bytes h rfl rfl (State.destroy_memory s a n)

theorem setCtx {b s : State} {l : Lane} {t : Nat} {c : Ctx} (h : b.Keeps s) : b.Keeps (s.setCtx l t c) :=
  table h rfl (fun x => by rw [tablesWf_iff] at x ⊢; exact ⟨x.1, Sparse.rising_set _ _ _ x.2.1, x.2.2⟩) rfl rfl

theorem setPres {b s : State} {l : Lane} {t : Nat} {p : Option Pres} (h : b.Keeps s) : b.Keeps (s.setPres l t p) :=
  table h rfl (fun x => by rw [tablesWf_iff] at x ⊢; exact ⟨x.1, x.2.1, Sparse.rising_set _ _ _ x.2.2.1, x.2.2.2⟩) rfl rfl

theorem setBal {b s : State} {t : Nat} {v : Balance} (h : b.Keeps s) : b.Keeps (s.setBal t v) :=
  table h rfl (fun x => by
    rw [tablesWf_iff] at x ⊢; exact ⟨x.1, x.2.1, x.2.2.1, Sparse.rising_set _ _ _ x.2.2.2.1, x.2.2.2.2⟩) rfl rfl

theorem setSys {b s : State} {t : Nat} {v : SysLatch} (h : b.Keeps s) : b.Keeps (s.setSys t v) :=
  table h rfl (fun x => by
    rw [tablesWf_iff] at x ⊢
    exact ⟨x.1, x.2.1, x.2.2.1, x.2.2.2.1, Sparse.rising_set _ _ _ x.2.2.2.2.1, x.2.2.2.2.2⟩) rfl rfl

theorem setFlowSeen {b s : State} {t f : Nat} {v : FlowLatch} (h : b.Keeps s) : b.Keeps (s.setFlowSeen t f v) :=
  table h rfl (fun x => by
    rw [tablesWf_iff] at x ⊢
    exact ⟨x.1, x.2.1, x.2.2.1, x.2.2.2.1, x.2.2.2.2.1, Sparse.rising_set _ _ _ x.2.2.2.2.2.1, x.2.2.2.2.2.2⟩) rfl rfl

theorem setRun {b s : State} {x t : Nat} {l : Lane} {n : Nat} (h : b.Keeps s) : b.Keeps (s.setRun x t l n) :=
  table h rfl (fun x => by
    rw [tablesWf_iff] at x ⊢
    exact ⟨x.1, x.2.1, x.2.2.1, x.2.2.2.1, x.2.2.2.2.1, x.2.2.2.2.2.1, Sparse.rising_set _ _ _ x.2.2.2.2.2.2⟩) rfl rfl

theorem free {b s : State} {w : Nat} (h : b.Keeps s) : b.Keeps (s.free w).2 := other h rfl rfl rfl rfl

theorem noRuns {b s : State} (h : b.Keeps s) : b.Keeps { s with runs := [] } :=
  table h rfl (fun x => by
    rw [tablesWf_iff] at x ⊢; exact ⟨x.1, x.2.1, x.2.2.1, x.2.2.2.1, x.2.2.2.2.1, x.2.2.2.2.2.1, rfl⟩) rfl rfl

theorem noLatches {b s : State} (h : b.Keeps s) : b.Keeps { s with sysLatch := [], flowLatch := [] } :=
  table h rfl (fun x => by
    rw [tablesWf_iff] at x ⊢; exact ⟨x.1, x.2.1, x.2.2.1, x.2.2.2.1, rfl, rfl, x.2.2.2.2.2.2⟩) rfl rfl

/-- An update of any other fields. -/
theorem rest {b s : State} {freeCount_ : Nat} {transients_ : List (Nat × List Nat)} {image_ : Option LogicImage} {oldImage_ : Option LogicImage} {cfg_ : ConfigSet} {recQ_ : List Rec} {recRecent_ : List Rec} {recRew_ : List Rec} {olcImage_ : Option LogicImage} {rodTab_ : List (Nat × List Nat)} {flowTab_ : List (Nat × List Nat)} {lastTx_ : List (Nat × Option NetFrame)} {openTx_ : List (Nat × NetFrame)} {openRx_ : List (Nat × NetFrame)} {descs_ : List Desc} {hostMem_ : List Host.Cell} {farOps_ : List FarOp} {lastCl_ : List (Nat × Option ClPacket)} {twinOut_ : List (Nat × List Byte)} {shadowQ_ : List (Nat × Nat)} {wakeSeen_ : List (Nat × Nat × Nat)} (h : b.Keeps s) :
    b.Keeps { s with freeCount := freeCount_, transients := transients_, image := image_, oldImage := oldImage_, cfg := cfg_, recQ := recQ_, recRecent := recRecent_, recRew := recRew_, olcImage := olcImage_, rodTab := rodTab_, flowTab := flowTab_, lastTx := lastTx_, openTx := openTx_, openRx := openRx_, descs := descs_, hostMem := hostMem_, farOps := farOps_, lastCl := lastCl_, twinOut := twinOut_, shadowQ := shadowQ_, wakeSeen := wakeSeen_ } :=
  other h rfl rfl rfl rfl

theorem ite {b s t : State} {c : Prop} [Decidable c] (h : b.Keeps s) (k : b.Keeps t) : b.Keeps (if c then s else t) := by
  split
  · exact h
  · exact k

theorem ite1 {α : Type} {b : State} {p q : State × α} {c : Prop} [Decidable c] (h : b.Keeps p.1) (k : b.Keeps q.1) :
    b.Keeps (if c then p else q).1 := by
  split
  · exact h
  · exact k

theorem optMap {α : Type} {b s : State} {o : Option α} {f : α → State} (h : b.Keeps s) (hf : ∀ x, b.Keeps (f x)) :
    b.Keeps ((o.map f).getD s) := by
  cases o with
  | none => exact h
  | some x => exact hf x

theorem ofNext {s t : State} (h : s.Keeps s → s.Keeps t) :
    ∃ u, (Host.Outcome.next t : Host.Outcome State Fault Refusal) = .next u ∧ s.Keeps u := ⟨t, rfl, h (refl s)⟩

theorem ofHappens {b : Bool} {s : State} {f : State → State} (h : ∀ s', s.Keeps s' → s.Keeps (f s')) :
    ∃ u, happens b s f = .next u ∧ s.Keeps u := by
  unfold happens
  split
  · exact ⟨_, rfl, h s (refl s)⟩
  · exact ⟨_, rfl, refl s⟩

theorem ofOccurs {b : Bool} {s : State} {f : State → State} (h : ∀ s', s.Keeps s' → s.Keeps (f s')) :
    ∃ u, occurs b s f = .next u ∧ s.Keeps u := ofHappens h

end Keeps

end Sys2Proof.Machine
end

