-- ==== Sys2Proof/Laws/KeepsOps.lean ====
section
/-! SUPPORT. What the operations and commands of Machine/Ops.lean keep. -/

namespace Sys2Proof.Machine
open Reg Hid

theorem State.elapse_keeps {s₀ : State} {s : State} {n : Nat} (hk : s₀.Keeps s) : s₀.Keeps (State.elapse s n) := by
  unfold State.elapse
  repeat' first
    | with_reducible assumption
    | extract_lets
    | intro _
    | with_reducible apply Keeps.each
    | with_reducible apply Keeps.set
    | with_reducible apply Keeps.ite
    | split
    | dsimp +zetaDelta only

theorem State.tick_keeps {s₀ : State} {s : State} (hk : s₀.Keeps s) : s₀.Keeps (State.tick s) := by
  unfold State.tick
  repeat' first
    | with_reducible assumption
    | extract_lets
    | intro _
    | with_reducible apply State.elapse_keeps
    | with_reducible apply Keeps.ite
    | split
    | dsimp +zetaDelta only

theorem State.elapseTo_keeps {s₀ : State} {s : State} {due : Nat} (hk : s₀.Keeps s) : s₀.Keeps (State.elapseTo s due) := by
  unfold State.elapseTo
  repeat' first
    | with_reducible assumption
    | extract_lets
    | intro _
    | with_reducible apply State.elapse_keeps
    | with_reducible apply Keeps.ite
    | split
    | dsimp +zetaDelta only

theorem State.elapseNet_keeps {s₀ : State} {s : State} {due : Nat} (hk : s₀.Keeps s) : s₀.Keeps (State.elapseNet s due) := by
  unfold State.elapseNet
  repeat' first
    | with_reducible assumption
    | extract_lets
    | intro _
    | with_reducible apply State.elapse_keeps
    | with_reducible apply Keeps.ite
    | split
    | dsimp +zetaDelta only

theorem State.mergeInto_keeps {s₀ : State} {s : State} {r : Rec} (hk : s₀.Keeps s) : s₀.Keeps (State.mergeInto s r) := by
  unfold State.mergeInto
  repeat' first
    | with_reducible assumption
    | extract_lets
    | intro _
    | with_reducible apply Keeps.inc
    | with_reducible apply Keeps.ite
    | split
    | with_reducible apply Keeps.rest
    | dsimp +zetaDelta only

theorem State.enqueueRec_keeps {s₀ : State} {s : State} {code src p32 a b c flags : Nat} (hk : s₀.Keeps s) : s₀.Keeps (State.enqueueRec s code src p32 a b c flags) := by
  unfold State.enqueueRec
  repeat' first
    | with_reducible assumption
    | extract_lets
    | intro _
    | with_reducible apply Keeps.set
    | with_reducible apply Keeps.ite
    | split
    | with_reducible apply Keeps.rest
    | dsimp +zetaDelta only

theorem State.ev_keeps {s₀ : State} {s : State} {code src p32 : Nat} {a : Nat} {b : Nat} {c : Nat} (hk : s₀.Keeps s) : s₀.Keeps (State.ev s code src p32 a b c) := by
  unfold State.ev
  repeat' first
    | with_reducible assumption
    | extract_lets
    | intro _
    | with_reducible apply State.mergeInto_keeps
    | with_reducible apply State.enqueueRec_keeps
    | with_reducible apply Keeps.inc
    | with_reducible apply Keeps.set
    | with_reducible apply Keeps.raise
    | with_reducible apply Keeps.ite
    | split
    | dsimp +zetaDelta only

theorem State.setLane_keeps {s₀ : State} {s : State} {l : Lane} {x : LaneState} (hk : s₀.Keeps s) : s₀.Keeps (State.setLane s l x) := by
  unfold State.setLane
  repeat' first
    | with_reducible assumption
    | extract_lets
    | intro _
    | with_reducible apply Keeps.set
    | with_reducible apply Keeps.put
    | split
    | dsimp +zetaDelta only

end Sys2Proof.Machine
end

