-- ==== Sys2Proof/Laws/KeepsBridgeOps.lean ====
section
/-! SUPPORT. What the operations and commands of Machine/BridgeOps.lean keep. -/

namespace Sys2Proof.Machine
open Reg Hid

theorem State.sendCl_keeps {s₀ : State} {s : State} {k : Nat} {p : ClPacket} (hk : s₀.Keeps s) : s₀.Keeps (State.sendCl s k p) := by
  unfold State.sendCl
  repeat' first
    | with_reducible assumption
    | extract_lets
    | intro _
    | with_reducible apply Keeps.set
    | split
    | with_reducible apply Keeps.rest
    | dsimp +zetaDelta only

theorem State.showBr_keeps {s₀ : State} {s : State} (hk : s₀.Keeps s) : s₀.Keeps (State.showBr s) := by
  unfold State.showBr
  repeat' first
    | with_reducible assumption
    | extract_lets
    | intro _
    | with_reducible apply Keeps.each
    | with_reducible apply Keeps.set
    | with_reducible apply Keeps.foldl
    | with_reducible apply Keeps.foldlState
    | split
    | dsimp +zetaDelta only

theorem State.putOp_keeps {s₀ : State} {s : State} {o o' : FarOp} (hk : s₀.Keeps s) : s₀.Keeps (State.putOp s o o') := by
  unfold State.putOp
  repeat' first
    | with_reducible assumption
    | extract_lets
    | intro _
    | with_reducible apply Keeps.ite
    | split
    | with_reducible apply Keeps.rest
    | dsimp +zetaDelta only

theorem State.dropOp_keeps {s₀ : State} {s : State} {o : FarOp} (hk : s₀.Keeps s) : s₀.Keeps (State.dropOp s o) := by
  unfold State.dropOp
  repeat' first
    | with_reducible assumption
    | extract_lets
    | intro _
    | split
    | with_reducible apply Keeps.rest
    | dsimp +zetaDelta only

theorem State.issue_keeps {s₀ : State} {s : State} {o : FarOp} (hk : s₀.Keeps s) : s₀.Keeps (State.issue s o) := by
  unfold State.issue
  repeat' first
    | with_reducible assumption
    | extract_lets
    | intro _
    | with_reducible apply State.putOp_keeps
    | with_reducible apply State.sendCl_keeps
    | with_reducible apply Keeps.set
    | with_reducible apply Keeps.ite
    | split
    | dsimp +zetaDelta only

theorem State.pumpN_keeps {b : State} {s : State} {n : Nat} (h : b.Keeps s) : b.Keeps (s.pumpN n) := by
  induction n generalizing s with
  | zero => exact h
  | succ n ih =>
    unfold State.pumpN
    split
    · exact ih (State.issue_keeps h)
    · exact h

theorem State.pump_keeps {s₀ : State} {s : State} (hk : s₀.Keeps s) : s₀.Keeps (State.pump s) := by
  unfold State.pump
  repeat' first
    | with_reducible assumption
    | extract_lets
    | intro _
    | with_reducible apply State.pumpN_keeps
    | with_reducible apply State.showBr_keeps
    | split
    | dsimp +zetaDelta only

theorem State.presentOp_keeps {s₀ : State} {s : State} {kind ini far addr len : Nat} {sharers : List Nat} {data : List Byte} (hk : s₀.Keeps s) : s₀.Keeps (State.presentOp s kind ini far addr len sharers data) := by
  unfold State.presentOp
  repeat' first
    | with_reducible assumption
    | extract_lets
    | intro _
    | with_reducible apply State.pump_keeps
    | split
    | with_reducible apply Keeps.rest
    | dsimp +zetaDelta only

theorem State.writeFailed_keeps {s₀ : State} {s : State} {o : FarOp} {cause : Nat} (hk : s₀.Keeps s) : s₀.Keeps (State.writeFailed s o cause) := by
  unfold State.writeFailed
  repeat' first
    | with_reducible assumption
    | extract_lets
    | intro _
    | with_reducible apply State.dropOp_keeps
    | with_reducible apply State.ev_keeps
    | with_reducible apply Keeps.set
    | with_reducible apply Keeps.raise
    | split
    | dsimp +zetaDelta only

theorem State.farWrite_keeps {s₀ : State} {s : State} {ini far addr : Nat} {data : List Byte} (hk : s₀.Keeps s) : s₀.Keeps (State.farWrite s ini far addr data) := by
  unfold State.farWrite
  repeat' first
    | with_reducible assumption
    | extract_lets
    | intro _
    | with_reducible apply State.ev_keeps
    | with_reducible apply State.presentOp_keeps
    | with_reducible apply Keeps.set
    | with_reducible apply Keeps.raise
    | with_reducible apply Keeps.ite
    | split
    | dsimp +zetaDelta only

theorem State.pumpTwin_keeps {s₀ : State} {s : State} (hk : s₀.Keeps s) : s₀.Keeps (State.pumpTwin s) := by
  unfold State.pumpTwin
  repeat' first
    | with_reducible assumption
    | extract_lets
    | intro _
    | with_reducible apply State.farWrite_keeps
    | with_reducible apply Keeps.ite
    | split
    | with_reducible apply Keeps.rest
    | dsimp +zetaDelta only

theorem State.twinSend_keeps {s₀ : State} {s : State} {addr : Nat} {d : List Byte} (hk : s₀.Keeps s) : s₀.Keeps (State.twinSend s addr d) := by
  unfold State.twinSend
  repeat' first
    | with_reducible assumption
    | extract_lets
    | intro _
    | with_reducible apply State.pumpTwin_keeps
    | split
    | with_reducible apply Keeps.rest
    | dsimp +zetaDelta only

theorem State.showGroup_keeps {s₀ : State} {s : State} (hk : s₀.Keeps s) : s₀.Keeps (State.showGroup s) := by
  unfold State.showGroup
  repeat' first
    | with_reducible assumption
    | extract_lets
    | intro _
    | with_reducible apply State.ev_keeps
    | with_reducible apply Keeps.each
    | with_reducible apply Keeps.put
    | with_reducible apply Keeps.raise
    | with_reducible apply Keeps.foldl
    | with_reducible apply Keeps.foldlState
    | with_reducible apply Keeps.ite
    | split
    | dsimp +zetaDelta only

theorem State.loadersFail_keeps {s₀ : State} {s : State} {inis : List Nat} (hk : s₀.Keeps s) : s₀.Keeps (State.loadersFail s inis) := by
  unfold State.loadersFail
  repeat' first
    | with_reducible assumption
    | extract_lets
    | intro _
    | with_reducible apply Keeps.each
    | with_reducible apply Keeps.set
    | with_reducible apply Keeps.ite
    | split
    | dsimp +zetaDelta only

theorem State.failLink_keeps {s₀ : State} {s : State} {k : Nat} (hk : s₀.Keeps s) : s₀.Keeps (State.failLink s k) := by
  unfold State.failLink
  repeat' first
    | with_reducible assumption
    | extract_lets
    | intro _
    | with_reducible apply State.dropOp_keeps
    | with_reducible apply State.loadersFail_keeps
    | with_reducible apply State.pump_keeps
    | with_reducible apply State.putOp_keeps
    | with_reducible apply State.writeFailed_keeps
    | with_reducible apply Keeps.each
    | with_reducible apply Keeps.set
    | with_reducible apply Keeps.setIf
    | with_reducible apply Keeps.ite
    | split
    | with_reducible apply Keeps.rest
    | dsimp +zetaDelta only

theorem State.linkDown_keeps {s₀ : State} {s : State} {k cause goal : Nat} (hk : s₀.Keeps s) : s₀.Keeps (State.linkDown s k cause goal) := by
  unfold State.linkDown
  repeat' first
    | with_reducible assumption
    | extract_lets
    | intro _
    | with_reducible apply State.ev_keeps
    | with_reducible apply State.failLink_keeps
    | with_reducible apply State.showGroup_keeps
    | with_reducible apply Keeps.set
    | with_reducible apply Keeps.raise
    | with_reducible apply Keeps.ite
    | split
    | dsimp +zetaDelta only

theorem State.groupBoundary_keeps {s₀ : State} {s : State} (hk : s₀.Keeps s) : s₀.Keeps (State.groupBoundary s) := by
  unfold State.groupBoundary
  repeat' first
    | with_reducible assumption
    | extract_lets
    | intro _
    | with_reducible apply State.ev_keeps
    | with_reducible apply State.sendCl_keeps
    | with_reducible apply Keeps.each
    | with_reducible apply Keeps.set
    | with_reducible apply Keeps.raise
    | with_reducible apply Keeps.ite
    | split
    | dsimp +zetaDelta only

end Sys2Proof.Machine
end

