-- ==== Sys2Proof/Laws/KeepsImages.lean ====
section
/-! SUPPORT. What the operations and commands of Machine/Images.lean keep. -/

namespace Sys2Proof.Machine
open Reg Hid

theorem State.showKeys_keeps {s₀ : State} {s : State} (hk : s₀.Keeps s) : s₀.Keeps (State.showKeys s) := by
  unfold State.showKeys
  repeat' first
    | with_reducible assumption
    | extract_lets
    | intro _
    | with_reducible apply Keeps.each
    | with_reducible apply Keeps.put
    | split
    | dsimp +zetaDelta only

end Sys2Proof.Machine
end

