-- ==== Sys2Proof/Laws/KeepsRingOps.lean ====
section
/-! SUPPORT. What the operations and commands of Machine/RingOps.lean keep. -/

namespace Sys2Proof.Machine
open Reg Hid

theorem State.hostWrite_keeps {b : State} {s : State} {a : Nat} {bs : List Byte} (h : b.Keeps s) :
    b.Keeps (s.hostWrite a bs) := by
  induction bs generalizing s a with
  | nil => exact h
  | cons x r ih => exact ih (Keeps.rest h)

theorem State.msix_keeps {s₀ : State} {s : State} {v : Nat} (hk : s₀.Keeps s) : s₀.Keeps (State.msix s v) := by
  unfold State.msix
  repeat' first
    | with_reducible assumption
    | extract_lets
    | intro _
    | with_reducible apply Keeps.set
    | with_reducible apply Keeps.inc
    | with_reducible apply Keeps.ite
    | split
    | dsimp +zetaDelta only

theorem State.faultMsg_keeps {s₀ : State} {s : State} (hk : s₀.Keeps s) : s₀.Keeps (State.faultMsg s) := by
  unfold State.faultMsg
  repeat' first
    | with_reducible assumption
    | extract_lets
    | intro _
    | with_reducible apply State.msix_keeps
    | split
    | dsimp +zetaDelta only

theorem State.signal_keeps {s₀ : State} {s : State} {v : Nat} (hk : s₀.Keeps s) : s₀.Keeps (State.signal s v) := by
  unfold State.signal
  repeat' first
    | with_reducible assumption
    | extract_lets
    | intro _
    | with_reducible apply State.msix_keeps
    | with_reducible apply Keeps.set
    | split
    | dsimp +zetaDelta only

theorem State.countVector_keeps {s₀ : State} {s : State} {v : Nat} (hk : s₀.Keeps s) : s₀.Keeps (State.countVector s v) := by
  unfold State.countVector
  repeat' first
    | with_reducible assumption
    | extract_lets
    | intro _
    | with_reducible apply State.signal_keeps
    | with_reducible apply Keeps.inc
    | with_reducible apply Keeps.setIf
    | with_reducible apply Keeps.ite
    | split
    | dsimp +zetaDelta only

theorem State.shadow_keeps {s₀ : State} {s : State} {ok : Bool} {ws : List (Nat × Nat)} (hk : s₀.Keeps s) : s₀.Keeps (State.shadow s ok ws) := by
  unfold State.shadow
  repeat' first
    | with_reducible assumption
    | extract_lets
    | intro _
    | with_reducible apply State.ev_keeps
    | with_reducible apply State.faultMsg_keeps
    | with_reducible apply State.hostWrite_keeps
    | with_reducible apply Keeps.each
    | with_reducible apply Keeps.put
    | with_reducible apply Keeps.raise
    | with_reducible apply Keeps.foldl
    | with_reducible apply Keeps.foldlState
    | with_reducible apply Keeps.ite
    | split
    | with_reducible apply Keeps.rest
    | dsimp +zetaDelta only

theorem State.sqMark_keeps {s₀ : State} {s : State} {r cause : Nat} (hk : s₀.Keeps s) : s₀.Keeps (State.sqMark s r cause) := by
  unfold State.sqMark
  repeat' first
    | with_reducible assumption
    | extract_lets
    | intro _
    | with_reducible apply Keeps.set
    | with_reducible apply Keeps.raise
    | split
    | dsimp +zetaDelta only

theorem State.sqFault_keeps {s₀ : State} {s : State} {r cause : Nat} (hk : s₀.Keeps s) : s₀.Keeps (State.sqFault s r cause) := by
  unfold State.sqFault
  repeat' first
    | with_reducible assumption
    | extract_lets
    | intro _
    | with_reducible apply State.ev_keeps
    | with_reducible apply State.faultMsg_keeps
    | with_reducible apply State.sqMark_keeps
    | split
    | dsimp +zetaDelta only

theorem State.showProg_keeps {s₀ : State} {s : State} (hk : s₀.Keeps s) : s₀.Keeps (State.showProg s) := by
  unfold State.showProg
  repeat' first
    | with_reducible assumption
    | extract_lets
    | intro _
    | with_reducible apply Keeps.each
    | with_reducible apply Keeps.set
    | with_reducible apply Keeps.put
    | split
    | dsimp +zetaDelta only

theorem State.cqFault_keeps {s₀ : State} {s : State} {c kind : Nat} (hk : s₀.Keeps s) : s₀.Keeps (State.cqFault s c kind) := by
  unfold State.cqFault
  repeat' first
    | with_reducible assumption
    | extract_lets
    | intro _
    | with_reducible apply State.ev_keeps
    | with_reducible apply State.faultMsg_keeps
    | with_reducible apply State.showProg_keeps
    | with_reducible apply State.sqMark_keeps
    | with_reducible apply Keeps.each
    | with_reducible apply Keeps.set
    | with_reducible apply Keeps.add
    | with_reducible apply Keeps.raise
    | split
    | with_reducible apply Keeps.rest
    | dsimp +zetaDelta only

theorem State.putDesc_keeps {s₀ : State} {s : State} {d : Desc} (hk : s₀.Keeps s) : s₀.Keeps (State.putDesc s d) := by
  unfold State.putDesc
  repeat' first
    | with_reducible assumption
    | extract_lets
    | intro _
    | with_reducible apply Keeps.ite
    | split
    | with_reducible apply Keeps.rest
    | dsimp +zetaDelta only

theorem State.finish_keeps {s₀ : State} {s : State} {d : Desc} {status : Nat} {result : Nat} (hk : s₀.Keeps s) : s₀.Keeps (State.finish s d status result) := by
  unfold State.finish
  repeat' first
    | with_reducible assumption
    | extract_lets
    | intro _
    | with_reducible apply State.putDesc_keeps
    | split
    | dsimp +zetaDelta only

theorem State.await_keeps {s₀ : State} {s : State} {d : Desc} (hk : s₀.Keeps s) : s₀.Keeps (State.await s d) := by
  unfold State.await
  repeat' first
    | with_reducible assumption
    | extract_lets
    | intro _
    | with_reducible apply State.putDesc_keeps
    | split
    | dsimp +zetaDelta only

theorem State.settle_keeps {s₀ : State} {s : State} {op : Nat} {p : Desc → Bool} {status result : Nat} (hk : s₀.Keeps s) : s₀.Keeps (State.settle s op p status result) := by
  unfold State.settle
  repeat' first
    | with_reducible assumption
    | extract_lets
    | intro _
    | with_reducible apply Keeps.ite
    | split
    | with_reducible apply Keeps.rest
    | dsimp +zetaDelta only

theorem State.start_keeps {b : State} {s : State} {r op : Nat} {f : State → Desc → State} (h : b.Keeps s)
    (hf : ∀ s d, b.Keeps s → b.Keeps (f s d)) : b.Keeps (s.start r op f) := by
  unfold State.start
  split
  · split
    · exact hf _ _ h
    · exact h
  · exact h

theorem State.bufferFailed_keeps {s₀ : State} {s : State} {d : Desc} (hk : s₀.Keeps s) : s₀.Keeps (State.bufferFailed s d) := by
  unfold State.bufferFailed
  repeat' first
    | with_reducible assumption
    | extract_lets
    | intro _
    | with_reducible apply State.faultMsg_keeps
    | with_reducible apply State.finish_keeps
    | split
    | dsimp +zetaDelta only

theorem State.answer_keeps {s₀ : State} {s : State} {d : Desc} {memOk : Bool} {bs : List Byte} (hk : s₀.Keeps s) : s₀.Keeps (State.answer s d memOk bs) := by
  unfold State.answer
  repeat' first
    | with_reducible assumption
    | extract_lets
    | intro _
    | with_reducible apply State.bufferFailed_keeps
    | with_reducible apply State.finish_keeps
    | with_reducible apply State.hostWrite_keeps
    | with_reducible apply Keeps.ite
    | split
    | dsimp +zetaDelta only

theorem State.relayEnd_keeps {s₀ : State} {s : State} (hk : s₀.Keeps s) : s₀.Keeps (State.relayEnd s) := by
  unfold State.relayEnd
  repeat' first
    | with_reducible assumption
    | extract_lets
    | intro _
    | with_reducible apply State.settle_keeps
    | with_reducible apply Keeps.set
    | with_reducible apply Keeps.ite
    | split
    | dsimp +zetaDelta only

theorem State.outcome_keeps {s₀ : State} {s : State} {d : Desc} {pending : Bool} {reason : Nat} (hk : s₀.Keeps s) : s₀.Keeps (State.outcome s d pending reason) := by
  unfold State.outcome
  repeat' first
    | with_reducible assumption
    | extract_lets
    | intro _
    | with_reducible apply State.await_keeps
    | with_reducible apply State.finish_keeps
    | with_reducible apply Keeps.ite
    | split
    | dsimp +zetaDelta only

end Sys2Proof.Machine
end

