-- ==== Sys2Proof/Laws/KeepsCanOps.lean ====
section
/-! SUPPORT. What the operations and commands of Machine/CanOps.lean keep. -/

namespace Sys2Proof.Machine
open Reg Hid

theorem State.showObj_keeps {s₀ : State} {s : State} {n k : Nat} (hk : s₀.Keeps s) : s₀.Keeps (State.showObj s n k) := by
  unfold State.showObj
  repeat' first
    | with_reducible assumption
    | extract_lets
    | intro _
    | with_reducible apply Keeps.wr
    | split
    | dsimp +zetaDelta only

theorem State.reloadObjects_keeps {s₀ : State} {s : State} {n : Nat} (hk : s₀.Keeps s) : s₀.Keeps (State.reloadObjects s n) := by
  unfold State.reloadObjects
  repeat' first
    | with_reducible assumption
    | extract_lets
    | intro _
    | with_reducible apply Keeps.each
    | with_reducible apply Keeps.setByte
    | split
    | dsimp +zetaDelta only

theorem State.objectFailure_keeps {s₀ : State} {s : State} {n k : Nat} (hk : s₀.Keeps s) : s₀.Keeps (State.objectFailure s n k) := by
  unfold State.objectFailure
  repeat' first
    | with_reducible assumption
    | extract_lets
    | intro _
    | with_reducible apply State.ev_keeps
    | with_reducible apply State.reloadObjects_keeps
    | with_reducible apply Keeps.set
    | with_reducible apply Keeps.raise
    | with_reducible apply Keeps.ite
    | split
    | dsimp +zetaDelta only

theorem State.canAnswer_keeps {s₀ : State} {s : State} {n k status result : Nat} (hk : s₀.Keeps s) : s₀.Keeps (State.canAnswer s n k status result) := by
  unfold State.canAnswer
  repeat' first
    | with_reducible assumption
    | extract_lets
    | intro _
    | with_reducible apply State.settle_keeps
    | split
    | dsimp +zetaDelta only

theorem State.canRemove_keeps {s₀ : State} {s : State} {n k : Nat} (hk : s₀.Keeps s) : s₀.Keeps (State.canRemove s n k) := by
  unfold State.canRemove
  repeat' first
    | with_reducible assumption
    | extract_lets
    | intro _
    | with_reducible apply State.canAnswer_keeps
    | with_reducible apply State.showObj_keeps
    | with_reducible apply Keeps.set
    | with_reducible apply Keeps.ite
    | split
    | dsimp +zetaDelta only

theorem State.canRequest_keeps {s₀ : State} {s : State} {n k : Nat} {data : List Byte} (hk : s₀.Keeps s) : s₀.Keeps (State.canRequest s n k data) := by
  unfold State.canRequest
  repeat' first
    | with_reducible assumption
    | extract_lets
    | intro _
    | with_reducible apply State.showObj_keeps
    | with_reducible apply Keeps.set
    | with_reducible apply Keeps.setBytes
    | with_reducible apply Keeps.zero
    | with_reducible apply Keeps.ite
    | split
    | dsimp +zetaDelta only

theorem State.canWithdrawSafety_keeps {s₀ : State} {s : State} (hk : s₀.Keeps s) : s₀.Keeps (State.canWithdrawSafety s) := by
  unfold State.canWithdrawSafety
  repeat' first
    | with_reducible assumption
    | extract_lets
    | intro _
    | with_reducible apply State.canRemove_keeps
    | with_reducible apply State.ev_keeps
    | with_reducible apply Keeps.each
    | with_reducible apply Keeps.set
    | with_reducible apply Keeps.raise
    | with_reducible apply Keeps.ite
    | split
    | dsimp +zetaDelta only

theorem State.canStageObj_keeps {s₀ : State} {s : State} {n k : Nat} (hk : s₀.Keeps s) : s₀.Keeps (State.canStageObj s n k) := by
  unfold State.canStageObj
  repeat' first
    | with_reducible assumption
    | extract_lets
    | intro _
    | with_reducible apply State.canRemove_keeps
    | with_reducible apply Keeps.set
    | with_reducible apply Keeps.put
    | with_reducible apply Keeps.setBytes
    | with_reducible apply Keeps.zero
    | with_reducible apply Keeps.ite
    | split
    | dsimp +zetaDelta only

theorem State.canStage_keeps {s₀ : State} {s : State} {t : Nat} (hk : s₀.Keeps s) : s₀.Keeps (State.canStage s t) := by
  unfold State.canStage
  repeat' first
    | with_reducible assumption
    | extract_lets
    | intro _
    | with_reducible apply State.canStageObj_keeps
    | with_reducible apply Keeps.each
    | split
    | dsimp +zetaDelta only

theorem State.canLaunch_keeps {s₀ : State} {s : State} {t : Nat} (hk : s₀.Keeps s) : s₀.Keeps (State.canLaunch s t) := by
  unfold State.canLaunch
  repeat' first
    | with_reducible assumption
    | extract_lets
    | intro _
    | with_reducible apply State.canRequest_keeps
    | with_reducible apply Keeps.each
    | with_reducible apply Keeps.set
    | with_reducible apply Keeps.ite
    | split
    | dsimp +zetaDelta only

theorem State.canRestart_keeps {s₀ : State} {s : State} {t : Nat} (hk : s₀.Keeps s) : s₀.Keeps (State.canRestart s t) := by
  unfold State.canRestart
  repeat' first
    | with_reducible assumption
    | extract_lets
    | intro _
    | with_reducible apply Keeps.each
    | with_reducible apply Keeps.set
    | split
    | dsimp +zetaDelta only

theorem State.putFrame_keeps {s₀ : State} {s : State} {n k : Nat} {f : CanFrame} {sof : Nat} (hk : s₀.Keeps s) : s₀.Keeps (State.putFrame s n k f sof) := by
  unfold State.putFrame
  repeat' first
    | with_reducible assumption
    | extract_lets
    | intro _
    | with_reducible apply Keeps.wr
    | with_reducible apply Keeps.setBytes
    | with_reducible apply Keeps.zero
    | split
    | dsimp +zetaDelta only

theorem State.storeFrame_keeps {s₀ : State} {s : State} {n k : Nat} {f : CanFrame} {sof : Nat} (hk : s₀.Keeps s) : s₀.Keeps (State.storeFrame s n k f sof) := by
  unfold State.storeFrame
  repeat' first
    | with_reducible assumption
    | extract_lets
    | intro _
    | with_reducible apply State.ev_keeps
    | with_reducible apply State.putFrame_keeps
    | with_reducible apply State.showObj_keeps
    | with_reducible apply Keeps.set
    | with_reducible apply Keeps.inc
    | with_reducible apply Keeps.raise
    | with_reducible apply Keeps.copy
    | with_reducible apply Keeps.ite
    | split
    | dsimp +zetaDelta only

theorem State.canStore_keeps {s₀ : State} {s : State} {n : Nat} {f : CanFrame} {sof : Nat} (hk : s₀.Keeps s) : s₀.Keeps (State.canStore s n f sof) := by
  unfold State.canStore
  repeat' first
    | with_reducible assumption
    | extract_lets
    | intro _
    | with_reducible apply State.objectFailure_keeps
    | with_reducible apply State.storeFrame_keeps
    | with_reducible apply Keeps.ite
    | split
    | dsimp +zetaDelta only

theorem State.canAge_keeps {s₀ : State} {s : State} {t : Nat} (hk : s₀.Keeps s) : s₀.Keeps (State.canAge s t) := by
  unfold State.canAge
  repeat' first
    | with_reducible assumption
    | extract_lets
    | intro _
    | with_reducible apply Keeps.each
    | with_reducible apply Keeps.set
    | with_reducible apply Keeps.inc
    | with_reducible apply Keeps.ite
    | split
    | dsimp +zetaDelta only

theorem State.canClear_keeps {s₀ : State} {s : State} {n k src : Nat} (hk : s₀.Keeps s) : s₀.Keeps (State.canClear s n k src) := by
  unfold State.canClear
  repeat' first
    | with_reducible assumption
    | extract_lets
    | intro _
    | with_reducible apply State.ev_keeps
    | with_reducible apply State.showObj_keeps
    | with_reducible apply Keeps.set
    | split
    | dsimp +zetaDelta only

theorem State.objClear_keeps {s₀ : State} {s : State} {n k src : Nat} (hk : s₀.Keeps s) : s₀.Keeps (State.objClear s n k src) := by
  unfold State.objClear
  repeat' first
    | with_reducible assumption
    | extract_lets
    | intro _
    | with_reducible apply State.canClear_keeps
    | with_reducible apply State.ev_keeps
    | with_reducible apply Keeps.set
    | with_reducible apply Keeps.ite
    | split
    | dsimp +zetaDelta only

theorem State.canRecover_keeps {s₀ : State} {s : State} {n : Nat} (hk : s₀.Keeps s) : s₀.Keeps (State.canRecover s n) := by
  unfold State.canRecover
  repeat' first
    | with_reducible assumption
    | extract_lets
    | intro _
    | with_reducible apply State.ev_keeps
    | with_reducible apply Keeps.set
    | with_reducible apply Keeps.ite
    | split
    | dsimp +zetaDelta only

end Sys2Proof.Machine
end

