-- ==== Sys2Proof/Laws/KeepsTwinMsg.lean ====
section
/-! SUPPORT. What the operations and commands of Machine/TwinMsg.lean keep. -/

namespace Sys2Proof.Machine
open Reg Hid

theorem State.sendReady_keeps {s₀ : State} {s : State} {f : Nat} {payload : List Byte} (hk : s₀.Keeps s) : s₀.Keeps (State.sendReady s f payload) := by
  unfold State.sendReady
  repeat' first
    | with_reducible assumption
    | extract_lets
    | intro _
    | with_reducible apply Keeps.set
    | with_reducible apply Keeps.setBytes
    | with_reducible apply Keeps.copy
    | with_reducible apply Keeps.zero
    | split
    | dsimp +zetaDelta only

theorem State.setExpiry_keeps {s₀ : State} {s : State} {f : Nat} (hk : s₀.Keeps s) : s₀.Keeps (State.setExpiry s f) := by
  unfold State.setExpiry
  repeat' first
    | with_reducible assumption
    | extract_lets
    | intro _
    | with_reducible apply Keeps.set
    | split
    | dsimp +zetaDelta only

theorem State.twinCanRemove_keeps {s₀ : State} {s : State} (hk : s₀.Keeps s) : s₀.Keeps (State.twinCanRemove s) := by
  unfold State.twinCanRemove
  repeat' first
    | with_reducible assumption
    | extract_lets
    | intro _
    | with_reducible apply State.canRemove_keeps
    | with_reducible apply Keeps.each
    | split
    | dsimp +zetaDelta only

theorem State.shadowsOff_keeps {s₀ : State} {s : State} (hk : s₀.Keeps s) : s₀.Keeps (State.shadowsOff s) := by
  unfold State.shadowsOff
  repeat' first
    | with_reducible assumption
    | extract_lets
    | intro _
    | with_reducible apply Keeps.each
    | with_reducible apply Keeps.set
    | with_reducible apply Keeps.restore
    | split
    | dsimp +zetaDelta only

theorem State.setRole_keeps {s₀ : State} {s : State} {r : Role} {cause : Nat} (hk : s₀.Keeps s) : s₀.Keeps (State.setRole s r cause) := by
  unfold State.setRole
  repeat' first
    | with_reducible assumption
    | extract_lets
    | intro _
    | with_reducible apply State.ev_keeps
    | with_reducible apply State.shadowsOff_keeps
    | with_reducible apply State.twinCanRemove_keeps
    | with_reducible apply Keeps.set
    | with_reducible apply Keeps.put
    | with_reducible apply Keeps.ite
    | split
    | dsimp +zetaDelta only

theorem State.goPassive_keeps {s₀ : State} {s : State} {why cause : Nat} (hk : s₀.Keeps s) : s₀.Keeps (State.goPassive s why cause) := by
  unfold State.goPassive
  repeat' first
    | with_reducible assumption
    | extract_lets
    | intro _
    | with_reducible apply State.ev_keeps
    | with_reducible apply State.setRole_keeps
    | with_reducible apply Keeps.raise
    | split
    | dsimp +zetaDelta only

theorem State.sendLease_keeps {s₀ : State} {s : State} {req grant rel : Bool} {freq : Nat} (hk : s₀.Keeps s) : s₀.Keeps (State.sendLease s req grant rel freq) := by
  unfold State.sendLease
  repeat' first
    | with_reducible assumption
    | extract_lets
    | intro _
    | with_reducible apply State.sendReady_keeps
    | with_reducible apply State.twinSend_keeps
    | with_reducible apply Keeps.set
    | with_reducible apply Keeps.ite
    | split
    | dsimp +zetaDelta only

theorem State.showPad_keeps {s₀ : State} {s : State} {g : Nat} (hk : s₀.Keeps s) : s₀.Keeps (State.showPad s g) := by
  unfold State.showPad
  repeat' first
    | with_reducible assumption
    | extract_lets
    | intro _
    | with_reducible apply Keeps.set
    | with_reducible apply Keeps.put
    | with_reducible apply Keeps.ite
    | split
    | dsimp +zetaDelta only

theorem State.twinDriveOff_keeps {s₀ : State} {s : State} (hk : s₀.Keeps s) : s₀.Keeps (State.twinDriveOff s) := by
  unfold State.twinDriveOff
  repeat' first
    | with_reducible assumption
    | extract_lets
    | intro _
    | with_reducible apply State.showPad_keeps
    | with_reducible apply Keeps.each
    | with_reducible apply Keeps.set
    | split
    | dsimp +zetaDelta only

theorem State.relinquish_keeps {s₀ : State} {s : State} {cause : Nat} {able : Bool} (hk : s₀.Keeps s) : s₀.Keeps (State.relinquish s cause able) := by
  unfold State.relinquish
  repeat' first
    | with_reducible assumption
    | extract_lets
    | intro _
    | with_reducible apply State.ev_keeps
    | with_reducible apply State.goPassive_keeps
    | with_reducible apply State.sendLease_keeps
    | with_reducible apply State.setRole_keeps
    | with_reducible apply State.twinDriveOff_keeps
    | with_reducible apply Keeps.set
    | with_reducible apply Keeps.raise
    | with_reducible apply Keeps.ite
    | split
    | with_reducible apply Keeps.rest
    | dsimp +zetaDelta only

theorem State.leaseBoundary_keeps {s₀ : State} {s : State} (hk : s₀.Keeps s) : s₀.Keeps (State.leaseBoundary s) := by
  unfold State.leaseBoundary
  repeat' first
    | with_reducible assumption
    | extract_lets
    | intro _
    | with_reducible apply State.goPassive_keeps
    | with_reducible apply Keeps.ite
    | split
    | dsimp +zetaDelta only

end Sys2Proof.Machine
end

