-- ==== Sys2Proof/Laws/KeepsUpdStore.lean ====
section
/-! SUPPORT. What the operations and commands of Machine/UpdStore.lean keep. -/

namespace Sys2Proof.Machine
open Reg Hid

theorem State.setJournal_keeps {s₀ : State} {s : State} {st kinds : Nat} (hk : s₀.Keeps s) : s₀.Keeps (State.setJournal s st kinds) := by
  unfold State.setJournal
  repeat' first
    | with_reducible assumption
    | extract_lets
    | intro _
    | with_reducible apply Keeps.set
    | split
    | dsimp +zetaDelta only

theorem State.saveBlock_keeps {s₀ : State} {s : State} {b : Nat} (hk : s₀.Keeps s) : s₀.Keeps (State.saveBlock s b) := by
  unfold State.saveBlock
  repeat' first
    | with_reducible assumption
    | extract_lets
    | intro _
    | with_reducible apply Keeps.setBytes
    | with_reducible apply Keeps.copy
    | with_reducible apply Keeps.ite
    | split
    | dsimp +zetaDelta only

theorem State.replay_keeps {s₀ : State} {s : State} {kinds : List Nat} {cause : Nat} (hk : s₀.Keeps s) : s₀.Keeps (State.replay s kinds cause) := by
  unfold State.replay
  repeat' first
    | with_reducible assumption
    | extract_lets
    | intro _
    | with_reducible apply State.ev_keeps
    | with_reducible apply State.setJournal_keeps
    | with_reducible apply Keeps.each
    | with_reducible apply Keeps.set
    | with_reducible apply Keeps.raise
    | with_reducible apply Keeps.copy
    | with_reducible apply Keeps.zero
    | with_reducible apply Keeps.foldl
    | with_reducible apply Keeps.foldlState
    | with_reducible apply Keeps.ite
    | split
    | dsimp +zetaDelta only

theorem State.setFloor_keeps {s₀ : State} {s : State} {k v : Nat} (hk : s₀.Keeps s) : s₀.Keeps (State.setFloor s k v) := by
  unfold State.setFloor
  repeat' first
    | with_reducible assumption
    | extract_lets
    | intro _
    | with_reducible apply Keeps.set
    | split
    | dsimp +zetaDelta only

theorem State.showImages_keeps {s₀ : State} {s : State} (hk : s₀.Keeps s) : s₀.Keeps (State.showImages s) := by
  unfold State.showImages
  repeat' first
    | with_reducible assumption
    | extract_lets
    | intro _
    | with_reducible apply Keeps.each
    | with_reducible apply Keeps.set
    | split
    | dsimp +zetaDelta only

theorem State.writeFloors_keeps {s₀ : State} {s : State} (hk : s₀.Keeps s) : s₀.Keeps (State.writeFloors s) := by
  unfold State.writeFloors
  repeat' first
    | with_reducible assumption
    | extract_lets
    | intro _
    | with_reducible apply Keeps.setBytes
    | split
    | dsimp +zetaDelta only

theorem State.raiseFloor_keeps {s₀ : State} {s : State} {k v : Nat} (hk : s₀.Keeps s) : s₀.Keeps (State.raiseFloor s k v) := by
  unfold State.raiseFloor
  repeat' first
    | with_reducible assumption
    | extract_lets
    | intro _
    | with_reducible apply State.ev_keeps
    | with_reducible apply State.setFloor_keeps
    | with_reducible apply State.writeFloors_keeps
    | with_reducible apply Keeps.set
    | with_reducible apply Keeps.raise
    | with_reducible apply Keeps.ite
    | split
    | dsimp +zetaDelta only

theorem State.loadWindow_keeps {s₀ : State} {s : State} {ls : List Lane} (hk : s₀.Keeps s) : s₀.Keeps (State.loadWindow s ls) := by
  unfold State.loadWindow
  repeat' first
    | with_reducible assumption
    | extract_lets
    | intro _
    | with_reducible apply State.ev_keeps
    | with_reducible apply Keeps.each
    | with_reducible apply Keeps.set
    | with_reducible apply Keeps.raise
    | with_reducible apply Keeps.setBytes
    | with_reducible apply Keeps.zero
    | with_reducible apply Keeps.ite
    | split
    | dsimp +zetaDelta only

theorem State.sendUpd_keeps {s₀ : State} {s : State} {src : Nat} {b : List Byte} (hk : s₀.Keeps s) : s₀.Keeps (State.sendUpd s src b) := by
  unfold State.sendUpd
  repeat' first
    | with_reducible assumption
    | extract_lets
    | intro _
    | with_reducible apply State.sendReady_keeps
    | with_reducible apply State.twinSend_keeps
    | with_reducible apply Keeps.ite
    | split
    | dsimp +zetaDelta only

theorem State.updReply_keeps {s₀ : State} {s : State} {src status result : Nat} (hk : s₀.Keeps s) : s₀.Keeps (State.updReply s src status result) := by
  unfold State.updReply
  repeat' first
    | with_reducible assumption
    | extract_lets
    | intro _
    | with_reducible apply State.sendUpd_keeps
    | with_reducible apply Keeps.set
    | split
    | dsimp +zetaDelta only

theorem State.olcReply_keeps {s₀ : State} {s : State} {status result : Nat} (hk : s₀.Keeps s) : s₀.Keeps (State.olcReply s status result) := by
  unfold State.olcReply
  repeat' first
    | with_reducible assumption
    | extract_lets
    | intro _
    | with_reducible apply State.updReply_keeps
    | with_reducible apply Keeps.set
    | with_reducible apply Keeps.ite
    | split
    | dsimp +zetaDelta only

theorem State.closeKinds_keeps {s₀ : State} {s : State} (hk : s₀.Keeps s) : s₀.Keeps (State.closeKinds s) := by
  unfold State.closeKinds
  repeat' first
    | with_reducible assumption
    | extract_lets
    | intro _
    | with_reducible apply Keeps.each
    | with_reducible apply Keeps.set
    | split
    | dsimp +zetaDelta only

theorem State.release_keeps {s₀ : State} {s : State} {cause : Nat} (hk : s₀.Keeps s) : s₀.Keeps (State.release s cause) := by
  unfold State.release
  repeat' first
    | with_reducible assumption
    | extract_lets
    | intro _
    | with_reducible apply State.closeKinds_keeps
    | with_reducible apply State.ev_keeps
    | with_reducible apply State.replay_keeps
    | with_reducible apply Keeps.set
    | with_reducible apply Keeps.ite
    | split
    | dsimp +zetaDelta only

theorem State.beginProbation_keeps {s₀ : State} {s : State} {m : Nat} (hk : s₀.Keeps s) : s₀.Keeps (State.beginProbation s m) := by
  unfold State.beginProbation
  repeat' first
    | with_reducible assumption
    | extract_lets
    | intro _
    | with_reducible apply Keeps.set
    | split
    | dsimp +zetaDelta only

theorem State.linkLost_keeps {s₀ : State} {s : State} {k cause goal : Nat} (hk : s₀.Keeps s) : s₀.Keeps (State.linkLost s k cause goal) := by
  unfold State.linkLost
  repeat' first
    | with_reducible assumption
    | extract_lets
    | intro _
    | with_reducible apply State.linkDown_keeps
    | with_reducible apply State.relayEnd_keeps
    | with_reducible apply State.release_keeps
    | with_reducible apply Keeps.ite
    | split
    | dsimp +zetaDelta only

end Sys2Proof.Machine
end

