-- ==== Sys2Proof/Laws/KeepsBlocks.lean ====
section
/-! SUPPORT. What the operations and commands of Machine/Blocks.lean keep. -/

namespace Sys2Proof.Machine
open Reg Hid

theorem State.dropScan_keeps {s₀ : State} {s : State} {l : Lane} {t : Nat} (hk : s₀.Keeps s) : s₀.Keeps (State.dropScan s l t) := by
  unfold State.dropScan
  repeat' first
    | with_reducible assumption
    | extract_lets
    | intro _
    | with_reducible apply State.start_keeps
    | with_reducible apply Keeps.setCtx
    | with_reducible apply Keeps.setPres
    | split
    | dsimp +zetaDelta only

theorem State.paceNote_keeps {s₀ : State} {s : State} (hk : s₀.Keeps s) : s₀.Keeps (State.paceNote s) := by
  unfold State.paceNote
  repeat' first
    | with_reducible assumption
    | extract_lets
    | intro _
    | with_reducible apply Keeps.each
    | with_reducible apply Keeps.set
    | with_reducible apply Keeps.put
    | with_reducible apply Keeps.ite
    | split
    | dsimp +zetaDelta only

theorem State.pacePeriod_keeps {s₀ : State} {s : State} {t : Nat} (hk : s₀.Keeps s) : s₀.Keeps (State.pacePeriod s t) := by
  unfold State.pacePeriod
  repeat' first
    | with_reducible assumption
    | extract_lets
    | intro _
    | with_reducible apply State.paceNote_keeps
    | with_reducible apply Keeps.each
    | with_reducible apply Keeps.set
    | with_reducible apply Keeps.ite
    | split
    | dsimp +zetaDelta only

theorem State.abandonScan_keeps {s₀ : State} {s : State} {t : Nat} (hk : s₀.Keeps s) : s₀.Keeps (State.abandonScan s t) := by
  unfold State.abandonScan
  repeat' first
    | with_reducible assumption
    | extract_lets
    | intro _
    | with_reducible apply State.dropScan_keeps
    | with_reducible apply Keeps.each
    | with_reducible apply Keeps.set
    | with_reducible apply Keeps.setBal
    | split
    | dsimp +zetaDelta only

theorem State.driveOff_keeps {s₀ : State} {s : State} {l : Lane} (hk : s₀.Keeps s) : s₀.Keeps (State.driveOff s l) := by
  unfold State.driveOff
  repeat' first
    | with_reducible assumption
    | extract_lets
    | intro _
    | with_reducible apply State.showPad_keeps
    | with_reducible apply Keeps.each
    | with_reducible apply Keeps.set
    | split
    | dsimp +zetaDelta only

theorem State.summarise_keeps {s₀ : State} {s : State} {g : Nat} (hk : s₀.Keeps s) : s₀.Keeps (State.summarise s g) := by
  unfold State.summarise
  repeat' first
    | with_reducible assumption
    | extract_lets
    | intro _
    | with_reducible apply State.ev_keeps
    | with_reducible apply Keeps.set
    | with_reducible apply Keeps.put
    | with_reducible apply Keeps.raise
    | with_reducible apply Keeps.ite
    | split
    | dsimp +zetaDelta only

theorem State.refuseAlone_keeps {s₀ : State} {s : State} {t block index : Nat} (hk : s₀.Keeps s) : s₀.Keeps (State.refuseAlone s t block index) := by
  unfold State.refuseAlone
  repeat' first
    | with_reducible assumption
    | extract_lets
    | intro _
    | with_reducible apply State.ev_keeps
    | with_reducible apply Keeps.raise
    | split
    | dsimp +zetaDelta only

theorem State.olcAbort_keeps {s₀ : State} {s : State} {reason : Nat} (hk : s₀.Keeps s) : s₀.Keeps (State.olcAbort s reason) := by
  unfold State.olcAbort
  repeat' first
    | fail
    | with_reducible assumption
    | extract_lets
    | intro _
    | with_reducible apply State.ev_keeps
    | with_reducible apply State.settle_keeps
    | with_reducible apply State.olcReply_keeps
    | with_reducible apply State.replay_keeps
    | with_reducible apply Keeps.set
    | with_reducible apply Keeps.raise
    | with_reducible apply Keeps.each
    | with_reducible apply Keeps.ite
    | split
    | with_reducible apply Keeps.rest
    | dsimp +zetaDelta only

end Sys2Proof.Machine
end

