-- ==== Sys2Proof/Laws/KeepsPowerBack.lean ====
section
/-! SUPPORT. What the operations and commands of Machine/PowerBack.lean keep. -/

namespace Sys2Proof.Machine
open Reg Hid

theorem State.planRestart_keeps {s₀ : State} {s : State} {t kind occ start : Nat} (hk : s₀.Keeps s) : s₀.Keeps (State.planRestart s t kind occ start) := by
  unfold State.planRestart
  repeat' first
    | with_reducible assumption
    | extract_lets
    | intro _
    | with_reducible apply State.start_keeps
    | with_reducible apply Keeps.set
    | split
    | dsimp +zetaDelta only

theorem State.restartAll_keeps {s₀ : State} {s : State} {kind occ : Nat} (hk : s₀.Keeps s) : s₀.Keeps (State.restartAll s kind occ) := by
  unfold State.restartAll
  repeat' first
    | with_reducible assumption
    | extract_lets
    | intro _
    | with_reducible apply State.planRestart_keeps
    | with_reducible apply Keeps.each
    | split
    | dsimp +zetaDelta only

theorem State.powerShow_keeps {s₀ : State} {s : State} {reason refuser : Nat} (hk : s₀.Keeps s) : s₀.Keeps (State.powerShow s reason refuser) := by
  unfold State.powerShow
  repeat' first
    | with_reducible assumption
    | extract_lets
    | intro _
    | with_reducible apply State.ev_keeps
    | with_reducible apply Keeps.set
    | with_reducible apply Keeps.raise
    | with_reducible apply Keeps.foldl
    | with_reducible apply Keeps.foldlState
    | split
    | dsimp +zetaDelta only

theorem State.canPins_keeps {s₀ : State} {s : State} (hk : s₀.Keeps s) : s₀.Keeps (State.canPins s) := by
  unfold State.canPins
  repeat' first
    | with_reducible assumption
    | extract_lets
    | intro _
    | with_reducible apply Keeps.each
    | with_reducible apply Keeps.put
    | split
    | dsimp +zetaDelta only

theorem State.restartBlock_keeps {s₀ : State} {s : State} {n : Nat} (hk : s₀.Keeps s) : s₀.Keeps (State.restartBlock s n) := by
  unfold State.restartBlock
  repeat' first
    | with_reducible assumption
    | extract_lets
    | intro _
    | with_reducible apply State.planRestart_keeps
    | with_reducible apply State.canPins_keeps
    | with_reducible apply Keeps.set
    | with_reducible apply Keeps.restore
    | with_reducible apply Keeps.each
    | with_reducible apply Keeps.ite
    | split
    | dsimp +zetaDelta only

theorem State.restartBlocks_keeps {s₀ : State} {s : State} (hk : s₀.Keeps s) : s₀.Keeps (State.restartBlocks s) := by
  unfold State.restartBlocks
  repeat' first
    | with_reducible assumption
    | extract_lets
    | intro _
    | with_reducible apply State.restartBlock_keeps
    | with_reducible apply Keeps.each
    | split
    | dsimp +zetaDelta only

theorem State.powerBack_keeps {s₀ : State} {s : State} {reason refuser : Nat} (hk : s₀.Keeps s) : s₀.Keeps (State.powerBack s reason refuser) := by
  unfold State.powerBack
  repeat' first
    | with_reducible assumption
    | extract_lets
    | intro _
    | with_reducible apply State.powerShow_keeps
    | with_reducible apply State.restartBlocks_keeps
    | with_reducible apply State.settle_keeps
    | with_reducible apply Keeps.set
    | with_reducible apply Keeps.ite
    | split
    | dsimp +zetaDelta only

end Sys2Proof.Machine
end

