-- ==== Sys2Proof/Laws/KeepsLaneOps.lean ====
section
/-! SUPPORT. What the operations and commands of Machine/LaneOps.lean keep. -/

namespace Sys2Proof.Machine
open Reg Hid

theorem State.enterSafe_keeps {s₀ : State} {s : State} {reason mask : Nat} (hk : s₀.Keeps s) : s₀.Keeps (State.enterSafe s reason mask) := by
  unfold State.enterSafe
  repeat' first
    | with_reducible assumption
    | extract_lets
    | intro _
    | with_reducible apply State.abandonScan_keeps
    | with_reducible apply State.canWithdrawSafety_keeps
    | with_reducible apply State.driveOff_keeps
    | with_reducible apply State.ev_keeps
    | with_reducible apply State.olcAbort_keeps
    | with_reducible apply State.paceNote_keeps
    | with_reducible apply State.powerBack_keeps
    | with_reducible apply State.relinquish_keeps
    | with_reducible apply State.settle_keeps
    | with_reducible apply Keeps.each
    | with_reducible apply Keeps.set
    | with_reducible apply Keeps.ite
    | split
    | dsimp +zetaDelta only

theorem State.stopSingles_keeps {s₀ : State} {s : State} {l : Lane} (hk : s₀.Keeps s) : s₀.Keeps (State.stopSingles s l) := by
  unfold State.stopSingles
  repeat' first
    | with_reducible assumption
    | extract_lets
    | intro _
    | with_reducible apply State.abandonScan_keeps
    | with_reducible apply State.ev_keeps
    | with_reducible apply Keeps.each
    | with_reducible apply Keeps.set
    | split
    | dsimp +zetaDelta only

theorem State.fallback_keeps {s₀ : State} {s : State} {t : Nat} (hk : s₀.Keeps s) : s₀.Keeps (State.fallback s t) := by
  unfold State.fallback
  repeat' first
    | with_reducible assumption
    | extract_lets
    | intro _
    | with_reducible apply State.abandonScan_keeps
    | with_reducible apply State.ev_keeps
    | with_reducible apply Keeps.set
    | with_reducible apply Keeps.ite
    | split
    | dsimp +zetaDelta only

theorem State.retire_keeps {s₀ : State} {s : State} {l : Lane} {reason : Nat} (hk : s₀.Keeps s) : s₀.Keeps (State.retire s l reason) := by
  unfold State.retire
  repeat' first
    | with_reducible assumption
    | extract_lets
    | intro _
    | with_reducible apply State.driveOff_keeps
    | with_reducible apply State.dropScan_keeps
    | with_reducible apply State.enterSafe_keeps
    | with_reducible apply State.ev_keeps
    | with_reducible apply State.fallback_keeps
    | with_reducible apply State.setLane_keeps
    | with_reducible apply Keeps.each
    | with_reducible apply Keeps.set
    | with_reducible apply Keeps.ite
    | split
    | dsimp +zetaDelta only

theorem State.enterAssay_keeps {s₀ : State} {s : State} {l : Lane} {cause task : Nat} (hk : s₀.Keeps s) : s₀.Keeps (State.enterAssay s l cause task) := by
  unfold State.enterAssay
  repeat' first
    | with_reducible assumption
    | extract_lets
    | intro _
    | with_reducible apply State.driveOff_keeps
    | with_reducible apply State.ev_keeps
    | with_reducible apply State.olcAbort_keeps
    | with_reducible apply State.powerBack_keeps
    | with_reducible apply State.setLane_keeps
    | with_reducible apply State.stopSingles_keeps
    | with_reducible apply Keeps.each
    | with_reducible apply Keeps.set
    | with_reducible apply Keeps.raise
    | split
    | dsimp +zetaDelta only

theorem State.noMajority_keeps {s₀ : State} {s : State} {t kind : Nat} (hk : s₀.Keeps s) : s₀.Keeps (State.noMajority s t kind) := by
  unfold State.noMajority
  repeat' first
    | with_reducible assumption
    | extract_lets
    | intro _
    | with_reducible apply State.ev_keeps
    | with_reducible apply Keeps.set
    | with_reducible apply Keeps.raise
    | split
    | dsimp +zetaDelta only

theorem State.secondTrigger_keeps {s₀ : State} {s : State} {l : Lane} {task mask : Nat} (hk : s₀.Keeps s) : s₀.Keeps (State.secondTrigger s l task mask) := by
  unfold State.secondTrigger
  repeat' first
    | with_reducible assumption
    | extract_lets
    | intro _
    | with_reducible apply State.enterSafe_keeps
    | with_reducible apply State.noMajority_keeps
    | with_reducible apply Keeps.each
    | split
    | dsimp +zetaDelta only

theorem State.trigger_keeps {s₀ : State} {s : State} {l : Lane} {cause : Nat} {task : Nat} (hk : s₀.Keeps s) : s₀.Keeps (State.trigger s l cause task) := by
  unfold State.trigger
  repeat' first
    | fail
    | with_reducible assumption
    | extract_lets
    | intro _
    | with_reducible apply State.ev_keeps
    | with_reducible apply State.retire_keeps
    | with_reducible apply State.secondTrigger_keeps
    | with_reducible apply State.noMajority_keeps
    | with_reducible apply Keeps.each
    | with_reducible apply State.enterSafe_keeps
    | with_reducible apply State.powerBack_keeps
    | with_reducible apply State.start_keeps
    | with_reducible apply State.enterAssay_keeps
    | with_reducible apply Keeps.inc
    | with_reducible apply Keeps.set
    | with_reducible apply Keeps.ite
    | split
    | dsimp +zetaDelta only

theorem State.triggers_keeps {s₀ : State} {s : State} {ls : List Lane} {cause task : Nat} (hk : s₀.Keeps s) : s₀.Keeps (State.triggers s ls cause task) := by
  unfold State.triggers
  repeat' first
    | with_reducible assumption
    | extract_lets
    | intro _
    | with_reducible apply State.enterSafe_keeps
    | with_reducible apply State.noMajority_keeps
    | with_reducible apply State.trigger_keeps
    | with_reducible apply Keeps.when
    | split
    | dsimp +zetaDelta only

theorem State.trip_keeps {s₀ : State} {s : State} {t : Nat} (hk : s₀.Keeps s) : s₀.Keeps (State.trip s t) := by
  unfold State.trip
  repeat' first
    | with_reducible assumption
    | extract_lets
    | intro _
    | with_reducible apply State.abandonScan_keeps
    | with_reducible apply State.paceNote_keeps
    | with_reducible apply Keeps.set
    | split
    | dsimp +zetaDelta only

end Sys2Proof.Machine
end

