-- ==== Sys2Proof/Laws/KeepsBridge.lean ====
section
/-! SUPPORT. What the operations and commands of Machine/Bridge.lean keep. -/

namespace Sys2Proof.Machine
open Reg Hid

theorem execRetryRead_keeps (i far addr len : Nat) (s : State) : ∃ u, execRetryRead i far addr len s = .next u ∧ s.Keeps u := by
  unfold execRetryRead
  repeat' first
    | with_reducible assumption
    | extract_lets
    | intro _
    | with_reducible apply State.dropOp_keeps
    | with_reducible apply State.issue_keeps
    | with_reducible apply State.pump_keeps
    | with_reducible apply State.showBr_keeps
    | with_reducible apply Keeps.set
    | with_reducible apply Keeps.ite
    | refine Keeps.ofOccurs ?_
    | split
    | with_reducible apply Keeps.rest
    | dsimp +zetaDelta only

theorem State.heldRead_keeps {s₀ : State} {s : State} {i far addr len : Nat} {sharers : List Nat} (hk : s₀.Keeps s) : s₀.Keeps (State.heldRead s i far addr len sharers) := by
  unfold State.heldRead
  repeat' first
    | with_reducible assumption
    | extract_lets
    | intro _
    | with_reducible apply State.loadersFail_keeps
    | with_reducible apply State.presentOp_keeps
    | with_reducible apply State.putOp_keeps
    | with_reducible apply Keeps.each
    | with_reducible apply Keeps.set
    | with_reducible apply Keeps.ite
    | split
    | with_reducible apply Keeps.rest
    | dsimp +zetaDelta only

theorem execHeldRead_keeps (i far addr len : Nat) (s : State) : ∃ u, execHeldRead i far addr len s = .next u ∧ s.Keeps u := by
  unfold execHeldRead
  repeat' first
    | with_reducible assumption
    | extract_lets
    | intro _
    | with_reducible apply State.heldRead_keeps
    | refine Keeps.ofOccurs ?_
    | split
    | dsimp +zetaDelta only

theorem State.impLane_keeps {s₀ : State} {s : State} {i : Nat} {l : Lane} (hk : s₀.Keeps s) : s₀.Keeps (State.impLane s i l) := by
  unfold State.impLane
  repeat' first
    | with_reducible assumption
    | extract_lets
    | intro _
    | with_reducible apply Keeps.set
    | with_reducible apply Keeps.copy
    | with_reducible apply Keeps.ite
    | split
    | dsimp +zetaDelta only

theorem State.impNext_keeps {s₀ : State} {s : State} {i far : Nat} {inis : List Nat} (hk : s₀.Keeps s) : s₀.Keeps (State.impNext s i far inis) := by
  unfold State.impNext
  repeat' first
    | with_reducible assumption
    | extract_lets
    | intro _
    | with_reducible apply State.heldRead_keeps
    | with_reducible apply State.impLane_keeps
    | with_reducible apply Keeps.each
    | with_reducible apply Keeps.set
    | with_reducible apply Keeps.ite
    | split
    | dsimp +zetaDelta only

theorem State.impData_keeps {s₀ : State} {s : State} {o : FarOp} {d : List Byte} (hk : s₀.Keeps s) : s₀.Keeps (State.impData s o d) := by
  unfold State.impData
  repeat' first
    | with_reducible assumption
    | extract_lets
    | intro _
    | with_reducible apply State.impNext_keeps
    | with_reducible apply Keeps.each
    | with_reducible apply Keeps.set
    | with_reducible apply Keeps.setBytes
    | split
    | dsimp +zetaDelta only

theorem execImportRead_keeps (i : Nat) (s : State) : ∃ u, execImportRead i s = .next u ∧ s.Keeps u := by
  unfold execImportRead
  repeat' first
    | with_reducible assumption
    | extract_lets
    | intro _
    | with_reducible apply State.elapseTo_keeps
    | with_reducible apply State.impNext_keeps
    | with_reducible apply State.loadersFail_keeps
    | with_reducible apply Keeps.each
    | with_reducible apply Keeps.set
    | refine Keeps.ofOccurs ?_
    | split
    | dsimp +zetaDelta only

theorem State.readReturns_keeps {s₀ : State} {s : State} {far tag : Nat} {data : Option (List Byte)} (hk : s₀.Keeps s) : s₀.Keeps (State.readReturns s far tag data) := by
  unfold State.readReturns
  repeat' first
    | with_reducible assumption
    | extract_lets
    | intro _
    | with_reducible apply State.dropOp_keeps
    | with_reducible apply State.ev_keeps
    | with_reducible apply State.impData_keeps
    | with_reducible apply State.loadersFail_keeps
    | with_reducible apply State.pump_keeps
    | with_reducible apply State.putOp_keeps
    | with_reducible apply Keeps.each
    | with_reducible apply Keeps.set
    | with_reducible apply Keeps.raise
    | with_reducible apply Keeps.ite
    | split
    | dsimp +zetaDelta only

theorem execFarSideData_keeps (far tag : Nat) (data : Option (List Byte)) (s : State) : ∃ u, execFarSideData far tag data s = .next u ∧ s.Keeps u := by
  unfold execFarSideData
  repeat' first
    | with_reducible assumption
    | extract_lets
    | intro _
    | with_reducible apply State.readReturns_keeps
    | refine Keeps.ofOccurs ?_
    | split
    | dsimp +zetaDelta only

theorem execUnclaimedDataTimeout_keeps (i addr len : Nat) (s : State) : ∃ u, execUnclaimedDataTimeout i addr len s = .next u ∧ s.Keeps u := by
  unfold execUnclaimedDataTimeout
  repeat' first
    | with_reducible assumption
    | extract_lets
    | intro _
    | with_reducible apply State.dropOp_keeps
    | with_reducible apply State.elapseTo_keeps
    | with_reducible apply State.ev_keeps
    | with_reducible apply State.pump_keeps
    | with_reducible apply Keeps.raise
    | refine Keeps.ofNext ?_
    | split
    | dsimp +zetaDelta only

theorem execHoldTimeout_keeps (i : Nat) (s : State) : ∃ u, execHoldTimeout i s = .next u ∧ s.Keeps u := by
  unfold execHoldTimeout
  repeat' first
    | with_reducible assumption
    | extract_lets
    | intro _
    | with_reducible apply State.dropOp_keeps
    | with_reducible apply State.elapseTo_keeps
    | with_reducible apply State.ev_keeps
    | with_reducible apply State.loadersFail_keeps
    | with_reducible apply State.pump_keeps
    | with_reducible apply State.putOp_keeps
    | with_reducible apply Keeps.set
    | with_reducible apply Keeps.raise
    | with_reducible apply Keeps.ite
    | refine Keeps.ofNext ?_
    | split
    | dsimp +zetaDelta only

theorem execNearSideWrite_keeps (i far addr : Nat) (data : List Byte) (s : State) : ∃ u, execNearSideWrite i far addr data s = .next u ∧ s.Keeps u := by
  unfold execNearSideWrite
  repeat' first
    | with_reducible assumption
    | extract_lets
    | intro _
    | with_reducible apply State.farWrite_keeps
    | with_reducible apply Keeps.ite
    | refine Keeps.ofOccurs ?_
    | split
    | dsimp +zetaDelta only

theorem State.writeDone_keeps {s₀ : State} {s : State} {o : FarOp} (hk : s₀.Keeps s) : s₀.Keeps (State.writeDone s o) := by
  unfold State.writeDone
  repeat' first
    | with_reducible assumption
    | extract_lets
    | intro _
    | with_reducible apply State.dropOp_keeps
    | with_reducible apply State.pumpTwin_keeps
    | with_reducible apply State.pump_keeps
    | with_reducible apply Keeps.set
    | with_reducible apply Keeps.put
    | with_reducible apply Keeps.foldl
    | with_reducible apply Keeps.foldlState
    | with_reducible apply Keeps.ite
    | split
    | with_reducible apply Keeps.rest
    | dsimp +zetaDelta only

theorem execFlushReadCompletion_keeps (tag : Nat) (ok : Bool) (s : State) : ∃ u, execFlushReadCompletion tag ok s = .next u ∧ s.Keeps u := by
  unfold execFlushReadCompletion
  repeat' first
    | with_reducible assumption
    | extract_lets
    | intro _
    | with_reducible apply State.pump_keeps
    | with_reducible apply State.writeDone_keeps
    | with_reducible apply State.writeFailed_keeps
    | with_reducible apply Keeps.ite
    | refine Keeps.ofNext ?_
    | refine Keeps.ofOccurs ?_
    | split
    | dsimp +zetaDelta only

theorem execCompletionTimeout_keeps (tag : Nat) (s : State) : ∃ u, execCompletionTimeout tag s = .next u ∧ s.Keeps u := by
  unfold execCompletionTimeout
  repeat' first
    | with_reducible assumption
    | extract_lets
    | intro _
    | with_reducible apply State.elapseTo_keeps
    | with_reducible apply State.ev_keeps
    | with_reducible apply State.pump_keeps
    | with_reducible apply State.putOp_keeps
    | with_reducible apply State.writeFailed_keeps
    | with_reducible apply Keeps.raise
    | with_reducible apply Keeps.ite
    | refine Keeps.ofNext ?_
    | split
    | dsimp +zetaDelta only

theorem execWriteTimeout_keeps (k tag : Nat) (s : State) : ∃ u, execWriteTimeout k tag s = .next u ∧ s.Keeps u := by
  unfold execWriteTimeout
  repeat' first
    | with_reducible assumption
    | extract_lets
    | intro _
    | with_reducible apply State.elapseTo_keeps
    | with_reducible apply State.pumpTwin_keeps
    | with_reducible apply State.pump_keeps
    | with_reducible apply State.writeFailed_keeps
    | with_reducible apply Keeps.raise
    | refine Keeps.ofNext ?_
    | refine Keeps.ofOccurs ?_
    | split
    | dsimp +zetaDelta only

theorem State.partnerLost_keeps {s₀ : State} {s : State} {k kind : Nat} (hk : s₀.Keeps s) : s₀.Keeps (State.partnerLost s k kind) := by
  unfold State.partnerLost
  repeat' first
    | with_reducible assumption
    | extract_lets
    | intro _
    | with_reducible apply State.ev_keeps
    | with_reducible apply State.showGroup_keeps
    | with_reducible apply Keeps.set
    | with_reducible apply Keeps.raise
    | with_reducible apply Keeps.ite
    | split
    | dsimp +zetaDelta only

theorem execAlertPoll_keeps (k : Nat) (word : Option Word) (s : State) : ∃ u, execAlertPoll k word s = .next u ∧ s.Keeps u := by
  unfold execAlertPoll
  repeat' first
    | with_reducible assumption
    | extract_lets
    | intro _
    | with_reducible apply State.elapseTo_keeps
    | with_reducible apply State.partnerLost_keeps
    | with_reducible apply Keeps.set
    | with_reducible apply Keeps.ite
    | refine Keeps.ofOccurs ?_
    | split
    | dsimp +zetaDelta only

theorem execAlertHeartbeat_keeps (s : State) : ∃ u, execAlertHeartbeat s = .next u ∧ s.Keeps u := by
  unfold execAlertHeartbeat
  repeat' first
    | with_reducible assumption
    | extract_lets
    | intro _
    | with_reducible apply State.elapseTo_keeps
    | with_reducible apply Keeps.set
    | with_reducible apply Keeps.free
    | with_reducible apply Keeps.ite
    | refine Keeps.ofOccurs ?_
    | split
    | dsimp +zetaDelta only

theorem State.semTake_keeps {s₀ : State} {s : State} {n tag : Nat} (hk : s₀.Keeps s) : s₀.Keeps (State.semTake s n tag) := by
  unfold State.semTake
  repeat' first
    | with_reducible assumption
    | extract_lets
    | intro _
    | with_reducible apply Keeps.set
    | with_reducible apply Keeps.inc
    | with_reducible apply Keeps.ite
    | split
    | dsimp +zetaDelta only

theorem State.semRelease_keeps {s₀ : State} {s : State} {n tag : Nat} (hk : s₀.Keeps s) : s₀.Keeps (State.semRelease s n tag) := by
  unfold State.semRelease
  repeat' first
    | with_reducible assumption
    | extract_lets
    | intro _
    | with_reducible apply Keeps.set
    | with_reducible apply Keeps.ite
    | split
    | dsimp +zetaDelta only

theorem execSemaphoreTake_keeps (n tag : Nat) (s : State) : ∃ u, execSemaphoreTake n tag s = .next u ∧ s.Keeps u := by
  unfold execSemaphoreTake
  repeat' first
    | with_reducible assumption
    | extract_lets
    | intro _
    | with_reducible apply State.semTake_keeps
    | refine Keeps.ofOccurs ?_
    | split
    | dsimp +zetaDelta only

theorem execSemaphoreRelease_keeps (n tag : Nat) (s : State) : ∃ u, execSemaphoreRelease n tag s = .next u ∧ s.Keeps u := by
  unfold execSemaphoreRelease
  repeat' first
    | with_reducible assumption
    | extract_lets
    | intro _
    | with_reducible apply State.semRelease_keeps
    | refine Keeps.ofOccurs ?_
    | split
    | dsimp +zetaDelta only

theorem execSemaphoreTimeout_keeps (n : Nat) (s : State) : ∃ u, execSemaphoreTimeout n s = .next u ∧ s.Keeps u := by
  unfold execSemaphoreTimeout
  repeat' first
    | with_reducible assumption
    | extract_lets
    | intro _
    | with_reducible apply State.elapseTo_keeps
    | with_reducible apply State.ev_keeps
    | with_reducible apply State.semRelease_keeps
    | with_reducible apply Keeps.raise
    | refine Keeps.ofOccurs ?_
    | split
    | dsimp +zetaDelta only

theorem State.bridgeMaxClear_keeps {s₀ : State} {s : State} (hk : s₀.Keeps s) : s₀.Keeps (State.bridgeMaxClear s) := by
  unfold State.bridgeMaxClear
  repeat' first
    | with_reducible assumption
    | extract_lets
    | intro _
    | with_reducible apply Keeps.set
    | split
    | dsimp +zetaDelta only

theorem execBrMaxclr_keeps (s : State) : ∃ u, execBrMaxclr s = .next u ∧ s.Keeps u := by
  unfold execBrMaxclr
  repeat' first
    | with_reducible assumption
    | extract_lets
    | intro _
    | with_reducible apply State.bridgeMaxClear_keeps
    | refine Keeps.ofOccurs ?_
    | split
    | dsimp +zetaDelta only

end Sys2Proof.Machine
end

