-- ==== Sys2Proof/Laws/KeepsNetOps.lean ====
section
/-! SUPPORT. What the operations and commands of Machine/NetOps.lean keep. -/

namespace Sys2Proof.Machine
open Reg Hid

theorem State.checkFailure_keeps {s₀ : State} {s : State} {entry : Bool} {n place : Nat} {failF skip : Fld} (hk : s₀.Keeps s) : s₀.Keeps (State.checkFailure s entry n place failF skip) := by
  unfold State.checkFailure
  repeat' first
    | with_reducible assumption
    | extract_lets
    | intro _
    | with_reducible apply State.ev_keeps
    | with_reducible apply State.raise_keeps
    | with_reducible apply State.set_keeps
    | with_reducible apply Keeps.set
    | with_reducible apply Keeps.raise
    | with_reducible apply Keeps.ite
    | split
    | dsimp +zetaDelta only

theorem State.ctxCheck_keeps {s₀ : State} {s : State} {f ch : Nat} (hk : s₀.Keeps s) : s₀.Keeps (State.ctxCheck s f ch) := by
  unfold State.ctxCheck
  repeat' first
    | with_reducible assumption
    | extract_lets
    | intro _
    | with_reducible apply State.checkFailure_keeps
    | with_reducible apply Keeps.ite
    | split
    | dsimp +zetaDelta only

theorem State.reloadRods_keeps {s₀ : State} {s : State} (hk : s₀.Keeps s) : s₀.Keeps (State.reloadRods s) := by
  unfold State.reloadRods
  repeat' first
    | with_reducible assumption
    | extract_lets
    | intro _
    | with_reducible apply State.set_keeps
    | with_reducible apply Keeps.set
    | with_reducible apply Keeps.foldl
    | with_reducible apply Keeps.foldlState
    | split
    | with_reducible apply Keeps.rest
    | dsimp +zetaDelta only

theorem State.transmit_keeps {s₀ : State} {s : State} {p : Nat} {f : NetFrame} (hk : s₀.Keeps s) : s₀.Keeps (State.transmit s p f) := by
  unfold State.transmit
  repeat' first
    | with_reducible assumption
    | extract_lets
    | intro _
    | with_reducible apply State.set_keeps
    | with_reducible apply Keeps.set
    | split
    | with_reducible apply Keeps.rest
    | dsimp +zetaDelta only

theorem State.listenTimer_keeps {s₀ : State} {s : State} (hk : s₀.Keeps s) : s₀.Keeps (State.listenTimer s) := by
  unfold State.listenTimer
  repeat' first
    | with_reducible assumption
    | extract_lets
    | intro _
    | with_reducible apply State.set_keeps
    | with_reducible apply Keeps.set
    | with_reducible apply Keeps.ite
    | split
    | dsimp +zetaDelta only

theorem State.clearMeas_keeps {s₀ : State} {s : State} (hk : s₀.Keeps s) : s₀.Keeps (State.clearMeas s) := by
  unfold State.clearMeas
  repeat' first
    | with_reducible assumption
    | extract_lets
    | intro _
    | with_reducible apply State.restore_keeps
    | with_reducible apply Keeps.restore
    | split
    | dsimp +zetaDelta only

theorem State.listen_keeps {s₀ : State} {s : State} {st cause : Nat} (hk : s₀.Keeps s) : s₀.Keeps (State.listen s st cause) := by
  unfold State.listen
  repeat' first
    | with_reducible assumption
    | extract_lets
    | intro _
    | with_reducible apply State.clearMeas_keeps
    | with_reducible apply State.ev_keeps
    | with_reducible apply State.listenTimer_keeps
    | with_reducible apply State.set_keeps
    | with_reducible apply Keeps.set
    | split
    | dsimp +zetaDelta only

theorem State.listenAtStart_keeps {s₀ : State} {s : State} {cause : Nat} (hk : s₀.Keeps s) : s₀.Keeps (State.listenAtStart s cause) := by
  unfold State.listenAtStart
  repeat' first
    | with_reducible assumption
    | extract_lets
    | intro _
    | with_reducible apply State.listen_keeps
    | with_reducible apply State.set_keeps
    | with_reducible apply Keeps.set
    | with_reducible apply Keeps.ite
    | split
    | dsimp +zetaDelta only

theorem State.wakeBurst_keeps {s₀ : State} {s : State} {mask : Nat} {reason : Nat} (hk : s₀.Keeps s) : s₀.Keeps (State.wakeBurst s mask reason) := by
  unfold State.wakeBurst
  repeat' first
    | with_reducible assumption
    | extract_lets
    | intro _
    | with_reducible apply State.ev_keeps
    | with_reducible apply State.set_keeps
    | with_reducible apply Keeps.set
    | with_reducible apply Keeps.foldl
    | with_reducible apply Keeps.foldlState
    | with_reducible apply Keeps.ite
    | split
    | dsimp +zetaDelta only

theorem State.wakeRebroadcast_keeps {s₀ : State} {s : State} (hk : s₀.Keeps s) : s₀.Keeps (State.wakeRebroadcast s) := by
  unfold State.wakeRebroadcast
  repeat' first
    | with_reducible assumption
    | extract_lets
    | intro _
    | with_reducible apply State.wakeBurst_keeps
    | with_reducible apply Keeps.ite
    | split
    | dsimp +zetaDelta only

theorem State.attemptFailed_keeps {s₀ : State} {s : State} (hk : s₀.Keeps s) : s₀.Keeps (State.attemptFailed s) := by
  unfold State.attemptFailed
  repeat' first
    | with_reducible assumption
    | extract_lets
    | intro _
    | with_reducible apply State.set_keeps
    | with_reducible apply Keeps.set
    | split
    | dsimp +zetaDelta only

theorem State.outOfSync_keeps {s₀ : State} {s : State} {m reason : Nat} (hk : s₀.Keeps s) : s₀.Keeps (State.outOfSync s m reason) := by
  unfold State.outOfSync
  repeat' first
    | with_reducible assumption
    | extract_lets
    | intro _
    | with_reducible apply State.ev_keeps
    | with_reducible apply State.listen_keeps
    | with_reducible apply State.raise_keeps
    | with_reducible apply Keeps.raise
    | split
    | dsimp +zetaDelta only

theorem State.integFail_keeps {s₀ : State} {s : State} {cause : Nat} (hk : s₀.Keeps s) : s₀.Keeps (State.integFail s cause) := by
  unfold State.integFail
  repeat' first
    | with_reducible assumption
    | extract_lets
    | intro _
    | with_reducible apply State.listen_keeps
    | with_reducible apply State.raise_keeps
    | with_reducible apply Keeps.raise
    | split
    | dsimp +zetaDelta only

theorem State.collision_keeps {s₀ : State} {s : State} {p sender kind : Nat} (hk : s₀.Keeps s) : s₀.Keeps (State.collision s p sender kind) := by
  unfold State.collision
  repeat' first
    | with_reducible assumption
    | extract_lets
    | intro _
    | with_reducible apply State.attemptFailed_keeps
    | with_reducible apply State.ev_keeps
    | with_reducible apply State.listen_keeps
    | with_reducible apply State.raise_keeps
    | with_reducible apply Keeps.raise
    | split
    | dsimp +zetaDelta only

theorem State.portsGone_keeps {s₀ : State} {s : State} (hk : s₀.Keeps s) : s₀.Keeps (State.portsGone s) := by
  unfold State.portsGone
  repeat' first
    | with_reducible assumption
    | extract_lets
    | intro _
    | with_reducible apply State.listen_keeps
    | with_reducible apply State.outOfSync_keeps
    | with_reducible apply State.set_keeps
    | with_reducible apply Keeps.set
    | with_reducible apply Keeps.ite
    | split
    | dsimp +zetaDelta only

theorem State.enterSync_keeps {s₀ : State} {s : State} (hk : s₀.Keeps s) : s₀.Keeps (State.enterSync s) := by
  unfold State.enterSync
  repeat' first
    | with_reducible assumption
    | extract_lets
    | intro _
    | with_reducible apply State.ev_keeps
    | with_reducible apply State.set_keeps
    | with_reducible apply Keeps.set
    | with_reducible apply Keeps.ite
    | split
    | dsimp +zetaDelta only

theorem State.confirmCold_keeps {s₀ : State} {s : State} {sender : Nat} (hk : s₀.Keeps s) : s₀.Keeps (State.confirmCold s sender) := by
  unfold State.confirmCold
  repeat' first
    | with_reducible assumption
    | extract_lets
    | intro _
    | with_reducible apply State.set_keeps
    | with_reducible apply Keeps.set
    | with_reducible apply Keeps.ite
    | split
    | dsimp +zetaDelta only

theorem State.heard_keeps {s₀ : State} {s : State} (hk : s₀.Keeps s) : s₀.Keeps (State.heard s) := by
  unfold State.heard
  repeat' first
    | with_reducible assumption
    | extract_lets
    | intro _
    | with_reducible apply State.set_keeps
    | with_reducible apply Keeps.set
    | with_reducible apply Keeps.ite
    | split
    | dsimp +zetaDelta only

theorem State.judgePort_keeps {s₀ : State} {s : State} {p d : Nat} (hk : s₀.Keeps s) : s₀.Keeps (State.judgePort s p d) := by
  unfold State.judgePort
  repeat' first
    | with_reducible assumption
    | extract_lets
    | intro _
    | with_reducible apply State.put_keeps
    | with_reducible apply Keeps.put
    | split
    | dsimp +zetaDelta only

theorem State.portLong_keeps {s₀ : State} {s : State} {p d : Nat} (hk : s₀.Keeps s) : s₀.Keeps (State.portLong s p d) := by
  unfold State.portLong
  repeat' first
    | with_reducible assumption
    | extract_lets
    | intro _
    | with_reducible apply State.ev_keeps
    | with_reducible apply State.raise_keeps
    | with_reducible apply Keeps.raise
    | split
    | dsimp +zetaDelta only

theorem State.portChange_keeps {s₀ : State} {s : State} {p : Nat} {was : Bool} {reason : Nat} (hk : s₀.Keeps s) : s₀.Keeps (State.portChange s p was reason) := by
  unfold State.portChange
  repeat' first
    | with_reducible assumption
    | extract_lets
    | intro _
    | with_reducible apply State.ev_keeps
    | with_reducible apply State.portsGone_keeps
    | with_reducible apply State.raise_keeps
    | with_reducible apply State.set_keeps
    | with_reducible apply Keeps.set
    | with_reducible apply Keeps.raise
    | with_reducible apply Keeps.ite
    | split
    | dsimp +zetaDelta only

theorem State.outsideWindow_keeps {s₀ : State} {s : State} {p sender i : Nat} {o : Int} (hk : s₀.Keeps s) : s₀.Keeps (State.outsideWindow s p sender i o) := by
  unfold State.outsideWindow
  repeat' first
    | with_reducible assumption
    | extract_lets
    | intro _
    | with_reducible apply State.ev_keeps
    | with_reducible apply State.inc_keeps
    | with_reducible apply Keeps.inc
    | with_reducible apply Keeps.ite
    | split
    | dsimp +zetaDelta only

theorem State.headerMismatch_keeps {s₀ : State} {s : State} {h : Hdr} {i : Nat} {r : Rod} {field : Nat} (hk : s₀.Keeps s) : s₀.Keeps (State.headerMismatch s h i r field) := by
  unfold State.headerMismatch
  repeat' first
    | with_reducible assumption
    | extract_lets
    | intro _
    | with_reducible apply State.ev_keeps
    | with_reducible apply State.inc_keeps
    | with_reducible apply State.raise_keeps
    | with_reducible apply Keeps.inc
    | with_reducible apply Keeps.raise
    | with_reducible apply Keeps.ite
    | split
    | dsimp +zetaDelta only

theorem State.fcsFailure_keeps {s₀ : State} {s : State} {p sfd : Nat} (hk : s₀.Keeps s) : s₀.Keeps (State.fcsFailure s p sfd) := by
  unfold State.fcsFailure
  repeat' first
    | with_reducible assumption
    | extract_lets
    | intro _
    | with_reducible apply State.ev_keeps
    | with_reducible apply State.raise_keeps
    | with_reducible apply State.set_keeps
    | with_reducible apply Keeps.set
    | with_reducible apply Keeps.raise
    | with_reducible apply Keeps.ite
    | split
    | dsimp +zetaDelta only

theorem State.hdrCrcFailure_keeps {s₀ : State} {s : State} {p sfd i : Nat} (hk : s₀.Keeps s) : s₀.Keeps (State.hdrCrcFailure s p sfd i) := by
  unfold State.hdrCrcFailure
  repeat' first
    | with_reducible assumption
    | extract_lets
    | intro _
    | with_reducible apply State.ev_keeps
    | with_reducible apply State.raise_keeps
    | with_reducible apply State.set_keeps
    | with_reducible apply Keeps.set
    | with_reducible apply Keeps.raise
    | with_reducible apply Keeps.ite
    | split
    | dsimp +zetaDelta only

theorem State.noteValid_keeps {s₀ : State} {s : State} {p : Nat} (hk : s₀.Keeps s) : s₀.Keeps (State.noteValid s p) := by
  unfold State.noteValid
  repeat' first
    | with_reducible assumption
    | extract_lets
    | intro _
    | with_reducible apply State.set_keeps
    | with_reducible apply Keeps.set
    | split
    | dsimp +zetaDelta only

theorem State.showFlow_keeps {s₀ : State} {s : State} {f : Nat} (hk : s₀.Keeps s) : s₀.Keeps (State.showFlow s f) := by
  unfold State.showFlow
  repeat' first
    | with_reducible assumption
    | extract_lets
    | intro _
    | with_reducible apply State.put_keeps
    | with_reducible apply Keeps.put
    | with_reducible apply Keeps.wr
    | split
    | dsimp +zetaDelta only

theorem State.holdCopy_keeps {s₀ : State} {s : State} {f : Nat} {fr : NetFrame} {fur : Int} (hk : s₀.Keeps s) : s₀.Keeps (State.holdCopy s f fr fur) := by
  unfold State.holdCopy
  repeat' first
    | with_reducible assumption
    | extract_lets
    | intro _
    | with_reducible apply State.put_keeps
    | with_reducible apply State.set_keeps
    | with_reducible apply State.showFlow_keeps
    | with_reducible apply Keeps.set
    | with_reducible apply Keeps.put
    | with_reducible apply Keeps.setBytes
    | with_reducible apply Keeps.ite
    | split
    | dsimp +zetaDelta only

theorem State.setAge_keeps {s₀ : State} {s : State} {f age : Nat} (hk : s₀.Keeps s) : s₀.Keeps (State.setAge s f age) := by
  unfold State.setAge
  repeat' first
    | with_reducible assumption
    | extract_lets
    | intro _
    | with_reducible apply State.ev_keeps
    | with_reducible apply State.inc_keeps
    | with_reducible apply State.put_keeps
    | with_reducible apply State.raise_keeps
    | with_reducible apply State.set_keeps
    | with_reducible apply State.showFlow_keeps
    | with_reducible apply Keeps.set
    | with_reducible apply Keeps.put
    | with_reducible apply Keeps.inc
    | with_reducible apply Keeps.raise
    | with_reducible apply Keeps.ite
    | split
    | dsimp +zetaDelta only

theorem State.stepNet_keeps {s₀ : State} {s : State} {new : Lane → Nat} (hk : s₀.Keeps s) : s₀.Keeps (State.stepNet s new) := by
  unfold State.stepNet
  repeat' first
    | with_reducible assumption
    | extract_lets
    | intro _
    | with_reducible apply State.each_keeps
    | with_reducible apply State.setAge_keeps
    | with_reducible apply State.setIf_keeps
    | with_reducible apply State.set_keeps
    | with_reducible apply Keeps.each
    | with_reducible apply Keeps.set
    | with_reducible apply Keeps.setIf
    | with_reducible apply Keeps.ite
    | split
    | dsimp +zetaDelta only

end Sys2Proof.Machine
end

