-- ==== Sys2Proof/Laws/KeepsOperands.lean ====
section
/-! SUPPORT. What the operations and commands of Machine/Operands.lean keep. -/

namespace Sys2Proof.Machine
open Reg Hid

theorem State.storeBit_keeps {s₀ : State} {s : State} {l : Lane} {r : BitRef} {b : Bool} (hk : s₀.Keeps s) : s₀.Keeps (State.storeBit s l r b) := by
  unfold State.storeBit
  repeat' first
    | with_reducible assumption
    | extract_lets
    | intro _
    | with_reducible apply Keeps.setByte
    | split
    | dsimp +zetaDelta only

end Sys2Proof.Machine
end

