-- ==== Sys2Proof/Laws/KeepsMirrorOps.lean ====
section
/-! SUPPORT. What the operations and commands of Machine/MirrorOps.lean keep. -/

namespace Sys2Proof.Machine
open Reg Hid

theorem State.keepBefore_keeps {s₀ : State} {s : State} {t : Nat} {l : Lane} (hk : s₀.Keeps s) : s₀.Keeps (State.keepBefore s t l) := by
  unfold State.keepBefore
  repeat' first
    | with_reducible assumption
    | extract_lets
    | intro _
    | with_reducible apply Keeps.each
    | with_reducible apply Keeps.setWord
    | with_reducible apply Keeps.ite
    | split
    | dsimp +zetaDelta only

theorem State.putState_keeps {s₀ : State} {s : State} {t : Nat} {l : Lane} {r off : Nat} {w : Word} (hk : s₀.Keeps s) : s₀.Keeps (State.putState s t l r off w) := by
  unfold State.putState
  repeat' first
    | with_reducible assumption
    | extract_lets
    | intro _
    | with_reducible apply Keeps.setWord
    | with_reducible apply Keeps.ite
    | split
    | dsimp +zetaDelta only

theorem State.nextMirror_keeps {s₀ : State} {s : State} {t : Nat} (hk : s₀.Keeps s) : s₀.Keeps (State.nextMirror s t) := by
  unfold State.nextMirror
  repeat' first
    | with_reducible assumption
    | extract_lets
    | intro _
    | with_reducible apply Keeps.set
    | split
    | dsimp +zetaDelta only

theorem State.sendRecordA_keeps {s₀ : State} {s : State} {t : Nat} (hk : s₀.Keeps s) : s₀.Keeps (State.sendRecordA s t) := by
  unfold State.sendRecordA
  repeat' first
    | with_reducible assumption
    | extract_lets
    | intro _
    | with_reducible apply State.nextMirror_keeps
    | with_reducible apply State.twinSend_keeps
    | with_reducible apply Keeps.ite
    | split
    | dsimp +zetaDelta only

theorem State.sendRecordB_keeps {s₀ : State} {s : State} {t : Nat} {ls : List Lane} {voted : List Word} (hk : s₀.Keeps s) : s₀.Keeps (State.sendRecordB s t ls voted) := by
  unfold State.sendRecordB
  repeat' first
    | with_reducible assumption
    | extract_lets
    | intro _
    | with_reducible apply State.nextMirror_keeps
    | with_reducible apply State.twinSend_keeps
    | split
    | dsimp +zetaDelta only

theorem State.sendChunk_keeps {s₀ : State} {s : State} {t : Nat} {ls : List Lane} (hk : s₀.Keeps s) : s₀.Keeps (State.sendChunk s t ls) := by
  unfold State.sendChunk
  repeat' first
    | with_reducible assumption
    | extract_lets
    | intro _
    | with_reducible apply State.nextMirror_keeps
    | with_reducible apply State.twinSend_keeps
    | with_reducible apply Keeps.set
    | with_reducible apply Keeps.ite
    | split
    | dsimp +zetaDelta only

theorem State.setShadow_keeps {s₀ : State} {s : State} {t v : Nat} (hk : s₀.Keeps s) : s₀.Keeps (State.setShadow s t v) := by
  unfold State.setShadow
  repeat' first
    | with_reducible assumption
    | extract_lets
    | intro _
    | with_reducible apply Keeps.set
    | with_reducible apply Keeps.put
    | with_reducible apply Keeps.ite
    | split
    | dsimp +zetaDelta only

theorem State.requestState_keeps {s₀ : State} {s : State} {ts : List Nat} (hk : s₀.Keeps s) : s₀.Keeps (State.requestState s ts) := by
  unfold State.requestState
  repeat' first
    | with_reducible assumption
    | extract_lets
    | intro _
    | with_reducible apply State.twinSend_keeps
    | with_reducible apply Keeps.each
    | with_reducible apply Keeps.set
    | with_reducible apply Keeps.foldl
    | with_reducible apply Keeps.foldlState
    | with_reducible apply Keeps.ite
    | split
    | dsimp +zetaDelta only

theorem State.probationFails_keeps {s₀ : State} {s : State} {t : Nat} (hk : s₀.Keeps s) : s₀.Keeps (State.probationFails s t) := by
  unfold State.probationFails
  repeat' first
    | with_reducible assumption
    | extract_lets
    | intro _
    | with_reducible apply State.ev_keeps
    | with_reducible apply Keeps.set
    | with_reducible apply Keeps.raise
    | with_reducible apply Keeps.ite
    | split
    | dsimp +zetaDelta only

theorem State.resync_keeps {s₀ : State} {s : State} {t cause off : Nat} (hk : s₀.Keeps s) : s₀.Keeps (State.resync s t cause off) := by
  unfold State.resync
  repeat' first
    | with_reducible assumption
    | extract_lets
    | intro _
    | with_reducible apply State.abandonScan_keeps
    | with_reducible apply State.ev_keeps
    | with_reducible apply State.probationFails_keeps
    | with_reducible apply State.requestState_keeps
    | with_reducible apply State.setShadow_keeps
    | with_reducible apply Keeps.set
    | with_reducible apply Keeps.inc
    | with_reducible apply Keeps.raise
    | with_reducible apply Keeps.ite
    | split
    | dsimp +zetaDelta only

theorem State.checkFit_keeps {s₀ : State} {s : State} (hk : s₀.Keeps s) : s₀.Keeps (State.checkFit s) := by
  unfold State.checkFit
  repeat' first
    | with_reducible assumption
    | extract_lets
    | intro _
    | with_reducible apply State.ev_keeps
    | with_reducible apply Keeps.set
    | with_reducible apply Keeps.foldl
    | with_reducible apply Keeps.foldlState
    | with_reducible apply Keeps.ite
    | split
    | dsimp +zetaDelta only

theorem State.periodEqual_keeps {s₀ : State} {s : State} {t : Nat} (hk : s₀.Keeps s) : s₀.Keeps (State.periodEqual s t) := by
  unfold State.periodEqual
  repeat' first
    | with_reducible assumption
    | extract_lets
    | intro _
    | with_reducible apply State.checkFit_keeps
    | with_reducible apply State.setShadow_keeps
    | with_reducible apply Keeps.set
    | with_reducible apply Keeps.ite
    | split
    | dsimp +zetaDelta only

theorem State.compareB_keeps {s₀ : State} {s : State} {t : Nat} (hk : s₀.Keeps s) : s₀.Keeps (State.compareB s t) := by
  unfold State.compareB
  repeat' first
    | with_reducible assumption
    | extract_lets
    | intro _
    | with_reducible apply State.periodEqual_keeps
    | with_reducible apply State.resync_keeps
    | with_reducible apply Keeps.set
    | with_reducible apply Keeps.optMap
    | with_reducible apply Keeps.ite
    | split
    | dsimp +zetaDelta only

theorem State.mirrorBalance_keeps {s₀ : State} {s : State} {t : Nat} {ls : List Lane} {voted : List Word} (hk : s₀.Keeps s) : s₀.Keeps (State.mirrorBalance s t ls voted) := by
  unfold State.mirrorBalance
  repeat' first
    | with_reducible assumption
    | extract_lets
    | intro _
    | with_reducible apply State.compareB_keeps
    | with_reducible apply State.sendChunk_keeps
    | with_reducible apply State.sendRecordB_keeps
    | with_reducible apply Keeps.ite
    | split
    | dsimp +zetaDelta only

end Sys2Proof.Machine
end

