-- ==== Sys2Proof/Laws/KeepsVoteOps.lean ====
section
/-! SUPPORT. What the operations and commands of Machine/VoteOps.lean keep. -/

namespace Sys2Proof.Machine
open Reg Hid

theorem State.takeVoted_keeps {s₀ : State} {s : State} {l : Lane} {t : Nat} (hk : s₀.Keeps s) : s₀.Keeps (State.takeVoted s l t) := by
  unfold State.takeVoted
  repeat' first
    | with_reducible assumption
    | extract_lets
    | intro _
    | with_reducible apply Keeps.copy
    | split
    | dsimp +zetaDelta only

theorem State.commitRetained_keeps {s₀ : State} {s : State} {src : Lane} {t : Nat} (hk : s₀.Keeps s) : s₀.Keeps (State.commitRetained s src t) := by
  unfold State.commitRetained
  repeat' first
    | with_reducible assumption
    | extract_lets
    | intro _
    | with_reducible apply Keeps.each
    | with_reducible apply Keeps.setWord
    | with_reducible apply Keeps.ite
    | split
    | dsimp +zetaDelta only

theorem State.startSnapshot_keeps {s₀ : State} {s : State} (hk : s₀.Keeps s) : s₀.Keeps (State.startSnapshot s) := by
  unfold State.startSnapshot
  repeat' first
    | with_reducible assumption
    | extract_lets
    | intro _
    | with_reducible apply Keeps.set
    | with_reducible apply Keeps.put
    | with_reducible apply Keeps.ite
    | split
    | dsimp +zetaDelta only

theorem State.olcBalanced_keeps {s₀ : State} {s : State} {t : Nat} (hk : s₀.Keeps s) : s₀.Keeps (State.olcBalanced s t) := by
  unfold State.olcBalanced
  repeat' first
    | with_reducible assumption
    | extract_lets
    | intro _
    | with_reducible apply State.ev_keeps
    | with_reducible apply State.startSnapshot_keeps
    | with_reducible apply Keeps.set
    | with_reducible apply Keeps.ite
    | split
    | dsimp +zetaDelta only

theorem State.balanceDone_keeps {s₀ : State} {s : State} {t : Nat} {src : Lane} {ws : List Word} (hk : s₀.Keeps s) : s₀.Keeps (State.balanceDone s t src ws) := by
  unfold State.balanceDone
  repeat' first
    | with_reducible assumption
    | extract_lets
    | intro _
    | with_reducible apply State.commitRetained_keeps
    | with_reducible apply State.mirrorBalance_keeps
    | with_reducible apply State.olcBalanced_keeps
    | with_reducible apply State.takeVoted_keeps
    | with_reducible apply Keeps.each
    | with_reducible apply Keeps.set
    | with_reducible apply Keeps.setWords
    | with_reducible apply Keeps.ite
    | split
    | dsimp +zetaDelta only

theorem State.agreed_keeps {s₀ : State} {s : State} {t : Nat} {ls : List Lane} (hk : s₀.Keeps s) : s₀.Keeps (State.agreed s t ls) := by
  unfold State.agreed
  repeat' first
    | with_reducible assumption
    | extract_lets
    | intro _
    | with_reducible apply State.setLane_keeps
    | with_reducible apply State.start_keeps
    | with_reducible apply Keeps.each
    | with_reducible apply Keeps.set
    | split
    | dsimp +zetaDelta only

theorem State.balLast_keeps {s₀ : State} {s : State} {t outcome minority : Nat} (hk : s₀.Keeps s) : s₀.Keeps (State.balLast s t outcome minority) := by
  unfold State.balLast
  repeat' first
    | with_reducible assumption
    | extract_lets
    | intro _
    | with_reducible apply State.minority_keeps
    | with_reducible apply State.outcome_keeps
    | with_reducible apply Keeps.set
    | split
    | dsimp +zetaDelta only

theorem State.seedTask_keeps {s₀ : State} {s : State} {src dst : Lane} {t : Nat} (hk : s₀.Keeps s) : s₀.Keeps (State.seedTask s src dst t) := by
  unfold State.seedTask
  repeat' first
    | with_reducible assumption
    | extract_lets
    | intro _
    | with_reducible apply Keeps.each
    | with_reducible apply Keeps.setByte
    | with_reducible apply Keeps.copy
    | with_reducible apply Keeps.ite
    | split
    | dsimp +zetaDelta only

theorem State.minority_keeps {s₀ : State} {s : State} {t : Nat} {l src : Lane} {cause : Nat} (hk : s₀.Keeps s) : s₀.Keeps (State.minority s t l src cause) := by
  unfold State.minority
  repeat' first
    | with_reducible assumption
    | extract_lets
    | intro _
    | with_reducible apply State.seedTask_keeps
    | with_reducible apply State.trigger_keeps
    | with_reducible apply Keeps.set
    | with_reducible apply Keeps.ite
    | split
    | dsimp +zetaDelta only

theorem State.laneDissent_keeps {s₀ : State} {s : State} {t : Nat} {l src : Lane} {p voted : Pres} (hk : s₀.Keeps s) : s₀.Keeps (State.laneDissent s t l src p voted) := by
  unfold State.laneDissent
  repeat' first
    | with_reducible assumption
    | extract_lets
    | intro _
    | with_reducible apply State.balLast_keeps
    | with_reducible apply State.ev_keeps
    | with_reducible apply State.minority_keeps
    | with_reducible apply State.start_keeps
    | with_reducible apply Keeps.raise
    | with_reducible apply Keeps.ite
    | split
    | dsimp +zetaDelta only

theorem State.majorityAfter_keeps {s₀ : State} {s : State} {t : Nat} {l src : Lane} {p voted : Pres} (hk : s₀.Keeps s) : s₀.Keeps (State.majorityAfter s t l src p voted) := by
  unfold State.majorityAfter
  repeat' first
    | with_reducible assumption
    | extract_lets
    | intro _
    | with_reducible apply State.balLast_keeps
    | with_reducible apply State.ev_keeps
    | with_reducible apply State.minority_keeps
    | with_reducible apply Keeps.raise
    | split
    | dsimp +zetaDelta only

theorem State.haltNoMajority_keeps {s₀ : State} {s : State} {t : Nat} {l : Lane} {mask : Nat} (hk : s₀.Keeps s) : s₀.Keeps (State.haltNoMajority s t l mask) := by
  unfold State.haltNoMajority
  repeat' first
    | with_reducible assumption
    | extract_lets
    | intro _
    | with_reducible apply State.enterSafe_keeps
    | with_reducible apply State.ev_keeps
    | with_reducible apply State.noMajority_keeps
    | with_reducible apply Keeps.raise
    | split
    | dsimp +zetaDelta only

theorem State.closeLate_keeps {s₀ : State} {s : State} {t : Nat} (hk : s₀.Keeps s) : s₀.Keeps (State.closeLate s t) := by
  unfold State.closeLate
  repeat' first
    | with_reducible assumption
    | extract_lets
    | intro _
    | with_reducible apply State.balLast_keeps
    | with_reducible apply State.haltNoMajority_keeps
    | with_reducible apply State.minority_keeps
    | with_reducible apply State.takeVoted_keeps
    | with_reducible apply Keeps.set
    | with_reducible apply Keeps.raise
    | with_reducible apply Keeps.setBal
    | with_reducible apply Keeps.optMap
    | with_reducible apply Keeps.ite
    | split
    | dsimp +zetaDelta only

theorem State.lateDue_keeps {s₀ : State} {s : State} {t : Nat} (hk : s₀.Keeps s) : s₀.Keeps (State.lateDue s t) := by
  unfold State.lateDue
  repeat' first
    | with_reducible assumption
    | extract_lets
    | intro _
    | with_reducible apply State.closeLate_keeps
    | with_reducible apply Keeps.ite
    | split
    | dsimp +zetaDelta only

end Sys2Proof.Machine
end

