-- ==== Sys2Proof/Laws/KeepsScanOps.lean ====
section
/-! SUPPORT. What the operations and commands of Machine/ScanOps.lean keep. -/

namespace Sys2Proof.Machine
open Reg Hid

theorem State.resume_keeps {s₀ : State} {s : State} {l : Lane} (hk : s₀.Keeps s) : s₀.Keeps (State.resume s l) := by
  unfold State.resume
  repeat' first
    | with_reducible assumption
    | extract_lets
    | intro _
    | with_reducible apply Keeps.setCtx
    | split
    | dsimp +zetaDelta only

theorem State.endWith_keeps {s₀ : State} {s : State} {l : Lane} {t : Nat} {p : Pres} (hk : s₀.Keeps s) : s₀.Keeps (State.endWith s l t p) := by
  unfold State.endWith
  repeat' first
    | with_reducible assumption
    | extract_lets
    | intro _
    | with_reducible apply State.resume_keeps
    | with_reducible apply Keeps.setCtx
    | with_reducible apply Keeps.setPres
    | split
    | dsimp +zetaDelta only

theorem State.scanTrip_keeps {s₀ : State} {s : State} {l : Lane} {t : Nat} {c : Ctx} {code b : Nat} {f : Fld} (hk : s₀.Keeps s) : s₀.Keeps (State.scanTrip s l t c code b f) := by
  unfold State.scanTrip
  repeat' first
    | with_reducible assumption
    | extract_lets
    | intro _
    | with_reducible apply State.endWith_keeps
    | with_reducible apply State.ev_keeps
    | with_reducible apply State.trip_keeps
    | with_reducible apply Keeps.set
    | with_reducible apply Keeps.raise
    | with_reducible apply Keeps.setCtx
    | with_reducible apply Keeps.ite
    | split
    | dsimp +zetaDelta only

theorem State.illegal_keeps {s₀ : State} {s : State} {l : Lane} {t : Nat} {c : Ctx} {opc : Nat} (hk : s₀.Keeps s) : s₀.Keeps (State.illegal s l t c opc) := by
  unfold State.illegal
  repeat' first
    | with_reducible assumption
    | extract_lets
    | intro _
    | with_reducible apply State.endWith_keeps
    | with_reducible apply State.ev_keeps
    | with_reducible apply State.trigger_keeps
    | with_reducible apply Keeps.set
    | with_reducible apply Keeps.raise
    | with_reducible apply Keeps.ite
    | split
    | dsimp +zetaDelta only

theorem State.divZero_keeps {s₀ : State} {s : State} {l : Lane} {t : Nat} {c : Ctx} (hk : s₀.Keeps s) : s₀.Keeps (State.divZero s l t c) := by
  unfold State.divZero
  repeat' first
    | with_reducible assumption
    | extract_lets
    | intro _
    | with_reducible apply State.ev_keeps
    | with_reducible apply Keeps.set
    | with_reducible apply Keeps.raise
    | with_reducible apply Keeps.ite
    | split
    | dsimp +zetaDelta only

theorem State.haltLane_keeps {s₀ : State} {s : State} {l : Lane} {t : Nat} {c : Ctx} {why : Nat} (hk : s₀.Keeps s) : s₀.Keeps (State.haltLane s l t c why) := by
  unfold State.haltLane
  repeat' first
    | with_reducible assumption
    | extract_lets
    | intro _
    | with_reducible apply State.paceNote_keeps
    | with_reducible apply State.resume_keeps
    | with_reducible apply Keeps.set
    | with_reducible apply Keeps.setCtx
    | split
    | dsimp +zetaDelta only

theorem State.scan_keeps {b : State} {s : State} {l : Lane} {i : Instr} {ok : State → Nat → Ctx → Bool}
    {eff : State → Nat → Ctx → State} (h : b.Keeps s) (hf : ∀ s t c, b.Keeps s → b.Keeps (eff s t c)) :
    b.Keeps (s.scan l i ok eff) := by
  unfold State.scan
  split
  · exact h
  · extract_lets
    split
    · exact State.haltLane_keeps h
    · split
      · exact hf _ _ _ (Keeps.add h)
      · exact State.illegal_keeps h

theorem State.scanCtx_keeps {s₀ : State} {s : State} {l : Lane} {i : Instr} {ok : State → Nat → Ctx → Bool}
    {f : State → Nat → Ctx → Ctx} (hk : s₀.Keeps s) : s₀.Keeps (State.scanCtx s l i ok f) := by
  unfold State.scanCtx
  repeat' first
    | with_reducible assumption
    | extract_lets
    | intro _
    | with_reducible apply State.scan_keeps
    | with_reducible apply Keeps.setCtx
    | split
    | dsimp +zetaDelta only

theorem State.endScan_keeps {s₀ : State} {s : State} {l : Lane} {t : Nat} {c : Ctx} {b : Nat} (hk : s₀.Keeps s) : s₀.Keeps (State.endScan s l t c b) := by
  unfold State.endScan
  repeat' first
    | with_reducible assumption
    | extract_lets
    | intro _
    | with_reducible apply State.balanceDone_keeps
    | with_reducible apply State.endWith_keeps
    | with_reducible apply State.scanTrip_keeps
    | with_reducible apply Keeps.setCtx
    | with_reducible apply Keeps.setPres
    | with_reducible apply Keeps.setBal
    | with_reducible apply Keeps.ite
    | split
    | dsimp +zetaDelta only

end Sys2Proof.Machine
end

