-- ==== Sys2Proof/Laws/KeepsPStateOps.lean ====
section
/-! SUPPORT. What the operations and commands of Machine/PStateOps.lean keep. -/

namespace Sys2Proof.Machine
open Reg Hid

theorem State.writeSlot_keeps {s₀ : State} {s : State} {i : Nat} {l : Lane} (hk : s₀.Keeps s) : s₀.Keeps (State.writeSlot s i l) := by
  unfold State.writeSlot
  repeat' first
    | with_reducible assumption
    | extract_lets
    | intro _
    | with_reducible apply Keeps.setBytes
    | split
    | dsimp +zetaDelta only

theorem State.commitInitial_keeps {s₀ : State} {s : State} {im : LogicImage} (hk : s₀.Keeps s) : s₀.Keeps (State.commitInitial s im) := by
  unfold State.commitInitial
  repeat' first
    | with_reducible assumption
    | extract_lets
    | intro _
    | with_reducible apply Keeps.each
    | with_reducible apply Keeps.setWord
    | split
    | dsimp +zetaDelta only

theorem State.commitSlot_keeps {s₀ : State} {s : State} {im : LogicImage} {i : Nat} (hk : s₀.Keeps s) : s₀.Keeps (State.commitSlot s im i) := by
  unfold State.commitSlot
  repeat' first
    | with_reducible assumption
    | extract_lets
    | intro _
    | with_reducible apply Keeps.each
    | with_reducible apply Keeps.setWord
    | split
    | dsimp +zetaDelta only

theorem State.chooseRestart_keeps {s₀ : State} {s : State} (hk : s₀.Keeps s) : s₀.Keeps (State.chooseRestart s) := by
  unfold State.chooseRestart
  repeat' first
    | with_reducible assumption
    | extract_lets
    | intro _
    | with_reducible apply State.commitInitial_keeps
    | with_reducible apply State.commitSlot_keeps
    | with_reducible apply State.ev_keeps
    | with_reducible apply Keeps.set
    | with_reducible apply Keeps.raise
    | with_reducible apply Keeps.ite
    | split
    | dsimp +zetaDelta only

theorem State.enterRun_keeps {s₀ : State} {s : State} {cold : Bool} (hk : s₀.Keeps s) : s₀.Keeps (State.enterRun s cold) := by
  unfold State.enterRun
  repeat' first
    | with_reducible assumption
    | extract_lets
    | intro _
    | with_reducible apply State.ev_keeps
    | with_reducible apply State.restartAll_keeps
    | with_reducible apply Keeps.set
    | with_reducible apply Keeps.ite
    | split
    | dsimp +zetaDelta only

theorem State.setProg_keeps {s₀ : State} {s : State} {p : ProgState} {cause : Nat} (hk : s₀.Keeps s) : s₀.Keeps (State.setProg s p cause) := by
  unfold State.setProg
  repeat' first
    | with_reducible assumption
    | extract_lets
    | intro _
    | with_reducible apply State.ev_keeps
    | with_reducible apply State.paceNote_keeps
    | with_reducible apply Keeps.set
    | split
    | dsimp +zetaDelta only

theorem State.dropHalted_keeps {s₀ : State} {s : State} (hk : s₀.Keeps s) : s₀.Keeps (State.dropHalted s) := by
  unfold State.dropHalted
  repeat' first
    | with_reducible assumption
    | extract_lets
    | intro _
    | with_reducible apply State.abandonScan_keeps
    | with_reducible apply Keeps.each
    | with_reducible apply Keeps.set
    | split
    | dsimp +zetaDelta only

theorem State.enterStop_keeps {s₀ : State} {s : State} {cause : Nat} (hk : s₀.Keeps s) : s₀.Keeps (State.enterStop s cause) := by
  unfold State.enterStop
  repeat' first
    | with_reducible assumption
    | extract_lets
    | intro _
    | with_reducible apply State.dropHalted_keeps
    | with_reducible apply State.setProg_keeps
    | with_reducible apply State.startSnapshot_keeps
    | with_reducible apply Keeps.each
    | with_reducible apply Keeps.set
    | split
    | dsimp +zetaDelta only

theorem State.holdLost_keeps {s₀ : State} {s : State} (hk : s₀.Keeps s) : s₀.Keeps (State.holdLost s) := by
  unfold State.holdLost
  repeat' first
    | with_reducible assumption
    | extract_lets
    | intro _
    | with_reducible apply State.enterStop_keeps
    | with_reducible apply Keeps.ite
    | split
    | dsimp +zetaDelta only

theorem State.psSettle_keeps {s₀ : State} {s : State} (hk : s₀.Keeps s) : s₀.Keeps (State.psSettle s) := by
  unfold State.psSettle
  repeat' first
    | with_reducible assumption
    | extract_lets
    | intro _
    | with_reducible apply State.settle_keeps
    | with_reducible apply Keeps.set
    | with_reducible apply Keeps.ite
    | split
    | dsimp +zetaDelta only

theorem State.psRequest_keeps {s₀ : State} {s : State} {target : Nat} {cold : Bool} {src : Nat} (hk : s₀.Keeps s) : s₀.Keeps (State.psRequest s target cold src) := by
  unfold State.psRequest
  repeat' first
    | with_reducible assumption
    | extract_lets
    | intro _
    | with_reducible apply State.dropHalted_keeps
    | with_reducible apply State.enterRun_keeps
    | with_reducible apply State.enterStop_keeps
    | with_reducible apply State.ev_keeps
    | with_reducible apply State.olcAbort_keeps
    | with_reducible apply State.psSettle_keeps
    | with_reducible apply State.restartAll_keeps
    | with_reducible apply State.setProg_keeps
    | with_reducible apply Keeps.each
    | with_reducible apply Keeps.set
    | with_reducible apply Keeps.put
    | with_reducible apply Keeps.raise
    | with_reducible apply Keeps.copy
    | with_reducible apply Keeps.ite
    | split
    | dsimp +zetaDelta only

theorem State.psReached_keeps {s₀ : State} {s : State} {t : Nat} (hk : s₀.Keeps s) : s₀.Keeps (State.psReached s t) := by
  unfold State.psReached
  repeat' first
    | with_reducible assumption
    | extract_lets
    | intro _
    | with_reducible apply State.psSettle_keeps
    | with_reducible apply Keeps.set
    | split
    | dsimp +zetaDelta only

theorem State.taskRestart_keeps {s₀ : State} {s : State} {t : Nat} {cold : Bool} {src : Nat} (hk : s₀.Keeps s) : s₀.Keeps (State.taskRestart s t cold src) := by
  unfold State.taskRestart
  repeat' first
    | with_reducible assumption
    | extract_lets
    | intro _
    | with_reducible apply State.ev_keeps
    | with_reducible apply State.planRestart_keeps
    | with_reducible apply Keeps.set
    | with_reducible apply Keeps.raise
    | with_reducible apply Keeps.ite
    | split
    | dsimp +zetaDelta only

theorem State.unlockDrop_keeps {s₀ : State} {s : State} (hk : s₀.Keeps s) : s₀.Keeps (State.unlockDrop s) := by
  unfold State.unlockDrop
  repeat' first
    | with_reducible assumption
    | extract_lets
    | intro _
    | with_reducible apply Keeps.each
    | with_reducible apply Keeps.set
    | split
    | dsimp +zetaDelta only

theorem State.unlockEnd_keeps {s₀ : State} {s : State} {why : Nat} (hk : s₀.Keeps s) : s₀.Keeps (State.unlockEnd s why) := by
  unfold State.unlockEnd
  repeat' first
    | with_reducible assumption
    | extract_lets
    | intro _
    | with_reducible apply State.ev_keeps
    | with_reducible apply State.holdLost_keeps
    | with_reducible apply State.unlockDrop_keeps
    | with_reducible apply Keeps.ite
    | split
    | dsimp +zetaDelta only

theorem State.debugRequest_keeps {s₀ : State} {s : State} (hk : s₀.Keeps s) : s₀.Keeps (State.debugRequest s) := by
  unfold State.debugRequest
  repeat' first
    | with_reducible assumption
    | extract_lets
    | intro _
    | with_reducible apply Keeps.set
    | split
    | dsimp +zetaDelta only

end Sys2Proof.Machine
end

