-- ==== Sys2Proof/Laws/KeepsForceOps.lean ====
section
/-! SUPPORT. What the operations and commands of Machine/ForceOps.lean keep. -/

namespace Sys2Proof.Machine
open Reg Hid

theorem State.showForces_keeps {s₀ : State} {s : State} (hk : s₀.Keeps s) : s₀.Keeps (State.showForces s) := by
  unfold State.showForces
  repeat' first
    | with_reducible assumption
    | extract_lets
    | intro _
    | with_reducible apply Keeps.set
    | with_reducible apply Keeps.put
    | with_reducible apply Keeps.wr
    | with_reducible apply Keeps.zero
    | with_reducible apply Keeps.ite
    | split
    | dsimp +zetaDelta only

theorem State.removeForce_keeps {s₀ : State} {s : State} {i : Nat} (hk : s₀.Keeps s) : s₀.Keeps (State.removeForce s i) := by
  unfold State.removeForce
  repeat' first
    | with_reducible assumption
    | extract_lets
    | intro _
    | with_reducible apply State.ev_keeps
    | with_reducible apply State.showForces_keeps
    | with_reducible apply Keeps.zero
    | split
    | dsimp +zetaDelta only

theorem State.dropForce_keeps {s₀ : State} {s : State} {i reason : Nat} (hk : s₀.Keeps s) : s₀.Keeps (State.dropForce s i reason) := by
  unfold State.dropForce
  repeat' first
    | with_reducible assumption
    | extract_lets
    | intro _
    | with_reducible apply State.ev_keeps
    | with_reducible apply State.showForces_keeps
    | with_reducible apply Keeps.raise
    | with_reducible apply Keeps.zero
    | split
    | dsimp +zetaDelta only

theorem State.takeForces_keeps {s₀ : State} {s : State} {t : Nat} (hk : s₀.Keeps s) : s₀.Keeps (State.takeForces s t) := by
  unfold State.takeForces
  repeat' first
    | with_reducible assumption
    | extract_lets
    | intro _
    | with_reducible apply Keeps.each
    | with_reducible apply Keeps.copy
    | with_reducible apply Keeps.zero
    | split
    | dsimp +zetaDelta only

theorem State.applyForces_keeps {s₀ : State} {s : State} {t : Nat} {out : Bool} {base : Nat} (hk : s₀.Keeps s) : s₀.Keeps (State.applyForces s t out base) := by
  unfold State.applyForces
  repeat' first
    | with_reducible assumption
    | extract_lets
    | intro _
    | with_reducible apply Keeps.each
    | with_reducible apply Keeps.setWord
    | split
    | dsimp +zetaDelta only

theorem State.loseForces_keeps {s₀ : State} {s : State} (hk : s₀.Keeps s) : s₀.Keeps (State.loseForces s) := by
  unfold State.loseForces
  repeat' first
    | with_reducible assumption
    | extract_lets
    | intro _
    | with_reducible apply Keeps.each
    | with_reducible apply Keeps.set
    | split
    | dsimp +zetaDelta only

theorem State.unstageForce_keeps {s₀ : State} {s : State} {i : Nat} (hk : s₀.Keeps s) : s₀.Keeps (State.unstageForce s i) := by
  unfold State.unstageForce
  repeat' first
    | with_reducible assumption
    | extract_lets
    | intro _
    | with_reducible apply Keeps.setWord
    | with_reducible apply Keeps.ite
    | split
    | dsimp +zetaDelta only

theorem State.dropSafetyForces_keeps {s₀ : State} {s : State} {t : Nat} (hk : s₀.Keeps s) : s₀.Keeps (State.dropSafetyForces s t) := by
  unfold State.dropSafetyForces
  repeat' first
    | with_reducible assumption
    | extract_lets
    | intro _
    | with_reducible apply State.dropForce_keeps
    | with_reducible apply State.unstageForce_keeps
    | with_reducible apply Keeps.each
    | split
    | dsimp +zetaDelta only

theorem State.forceCrcFailure_keeps {s₀ : State} {s : State} {l : Lane} (hk : s₀.Keeps s) : s₀.Keeps (State.forceCrcFailure s l) := by
  unfold State.forceCrcFailure
  repeat' first
    | with_reducible assumption
    | extract_lets
    | intro _
    | with_reducible apply State.ev_keeps
    | with_reducible apply State.showForces_keeps
    | with_reducible apply Keeps.raise
    | with_reducible apply Keeps.zero
    | split
    | dsimp +zetaDelta only

theorem State.forceCheck_keeps {s₀ : State} {s : State} {bad : Option Lane} (hk : s₀.Keeps s) : s₀.Keeps (State.forceCheck s bad) := by
  unfold State.forceCheck
  repeat' first
    | with_reducible assumption
    | extract_lets
    | intro _
    | with_reducible apply State.forceCrcFailure_keeps
    | with_reducible apply Keeps.ite
    | split
    | dsimp +zetaDelta only

end Sys2Proof.Machine
end

