-- ==== Sys2Proof/Laws/KeepsFieldOps.lean ====
section
/-! SUPPORT. What the operations and commands of Machine/FieldOps.lean keep. -/

namespace Sys2Proof.Machine
open Reg Hid

theorem State.discEvents_keeps {s₀ : State} {s : State} {c : Nat} (hk : s₀.Keeps s) : s₀.Keeps (State.discEvents s c) := by
  unfold State.discEvents
  repeat' first
    | with_reducible assumption
    | extract_lets
    | intro _
    | with_reducible apply State.ev_keeps
    | with_reducible apply Keeps.set
    | with_reducible apply Keeps.raise
    | with_reducible apply Keeps.ite
    | split
    | dsimp +zetaDelta only

theorem State.driveGroup_keeps {s₀ : State} {s : State} {g : Nat} (hk : s₀.Keeps s) : s₀.Keeps (State.driveGroup s g) := by
  unfold State.driveGroup
  repeat' first
    | with_reducible assumption
    | extract_lets
    | intro _
    | with_reducible apply State.showPad_keeps
    | with_reducible apply Keeps.each
    | with_reducible apply Keeps.put
    | split
    | dsimp +zetaDelta only

theorem State.abandonBright_keeps {s₀ : State} {s : State} {g c : Nat} (hk : s₀.Keeps s) : s₀.Keeps (State.abandonBright s g c) := by
  unfold State.abandonBright
  repeat' first
    | with_reducible assumption
    | extract_lets
    | intro _
    | with_reducible apply State.ev_keeps
    | with_reducible apply Keeps.set
    | with_reducible apply Keeps.raise
    | with_reducible apply Keeps.ite
    | split
    | dsimp +zetaDelta only

theorem State.setHold_keeps {s₀ : State} {s : State} {l : Lane} {g c : Nat} (hk : s₀.Keeps s) : s₀.Keeps (State.setHold s l g c) := by
  unfold State.setHold
  repeat' first
    | with_reducible assumption
    | extract_lets
    | intro _
    | with_reducible apply State.abandonBright_keeps
    | with_reducible apply State.driveGroup_keeps
    | with_reducible apply State.summarise_keeps
    | with_reducible apply Keeps.set
    | with_reducible apply Keeps.setIf
    | with_reducible apply Keeps.ite
    | split
    | dsimp +zetaDelta only

theorem State.demand_keeps {s₀ : State} {s : State} {l : Lane} {c : Nat} (hk : s₀.Keeps s) : s₀.Keeps (State.demand s l c) := by
  unfold State.demand
  repeat' first
    | with_reducible assumption
    | extract_lets
    | intro _
    | with_reducible apply State.setHold_keeps
    | with_reducible apply Keeps.each
    | split
    | dsimp +zetaDelta only

theorem State.latchGroup_keeps {s₀ : State} {s : State} {g cause : Nat} (hk : s₀.Keeps s) : s₀.Keeps (State.latchGroup s g cause) := by
  unfold State.latchGroup
  repeat' first
    | with_reducible assumption
    | extract_lets
    | intro _
    | with_reducible apply State.driveGroup_keeps
    | with_reducible apply State.summarise_keeps
    | with_reducible apply Keeps.each
    | with_reducible apply Keeps.set
    | with_reducible apply Keeps.ite
    | split
    | dsimp +zetaDelta only

theorem State.noteReadback_keeps {s₀ : State} {s : State} {l : Lane} {g : Nat} (hk : s₀.Keeps s) : s₀.Keeps (State.noteReadback s l g) := by
  unfold State.noteReadback
  repeat' first
    | with_reducible assumption
    | extract_lets
    | intro _
    | with_reducible apply Keeps.set
    | with_reducible apply Keeps.ite
    | split
    | dsimp +zetaDelta only

theorem State.setDc_keeps {s₀ : State} {s : State} {l : Lane} {c : Nat} {new : DcState} (hk : s₀.Keeps s) : s₀.Keeps (State.setDc s l c new) := by
  unfold State.setDc
  repeat' first
    | with_reducible assumption
    | extract_lets
    | intro _
    | with_reducible apply State.demand_keeps
    | with_reducible apply State.discEvents_keeps
    | with_reducible apply Keeps.set
    | with_reducible apply Keeps.put
    | with_reducible apply Keeps.ite
    | split
    | dsimp +zetaDelta only

end Sys2Proof.Machine
end

