-- ==== Sys2Proof/Laws/KeepsImageOps.lean ====
section
/-! SUPPORT. What the operations and commands of Machine/ImageOps.lean keep. -/

namespace Sys2Proof.Machine
open Reg Hid

theorem State.showTask_keeps {s₀ : State} {s : State} {t : Nat} {x : TaskImage} (hk : s₀.Keeps s) : s₀.Keeps (State.showTask s t x) := by
  unfold State.showTask
  repeat' first
    | with_reducible assumption
    | extract_lets
    | intro _
    | with_reducible apply Keeps.set
    | split
    | dsimp +zetaDelta only

theorem State.showImage_keeps {s₀ : State} {s : State} (hk : s₀.Keeps s) : s₀.Keeps (State.showImage s) := by
  unfold State.showImage
  repeat' first
    | with_reducible assumption
    | extract_lets
    | intro _
    | with_reducible apply State.showTask_keeps
    | with_reducible apply Keeps.each
    | with_reducible apply Keeps.set
    | split
    | dsimp +zetaDelta only

theorem State.loadProgram_keeps {s₀ : State} {s : State} {l : Lane} (hk : s₀.Keeps s) : s₀.Keeps (State.loadProgram s l) := by
  unfold State.loadProgram
  repeat' first
    | with_reducible assumption
    | extract_lets
    | intro _
    | with_reducible apply Keeps.setWords
    | with_reducible apply Keeps.zero
    | split
    | dsimp +zetaDelta only

theorem State.putSafe_keeps {s₀ : State} {s : State} {t base : Nat} (hk : s₀.Keeps s) : s₀.Keeps (State.putSafe s t base) := by
  unfold State.putSafe
  repeat' first
    | with_reducible assumption
    | extract_lets
    | intro _
    | with_reducible apply Keeps.each
    | with_reducible apply Keeps.setByte
    | with_reducible apply Keeps.zero
    | split
    | dsimp +zetaDelta only

theorem State.putDecl_keeps {s₀ : State} {s : State} {a : Nat} {d : InstDecl} (hk : s₀.Keeps s) : s₀.Keeps (State.putDecl s a d) := by
  unfold State.putDecl
  repeat' first
    | with_reducible assumption
    | extract_lets
    | intro _
    | with_reducible apply Keeps.wr
    | split
    | dsimp +zetaDelta only

theorem State.freshInstances_keeps {s₀ : State} {s : State} {l : Lane} (hk : s₀.Keeps s) : s₀.Keeps (State.freshInstances s l) := by
  unfold State.freshInstances
  repeat' first
    | with_reducible assumption
    | extract_lets
    | intro _
    | with_reducible apply State.putDecl_keeps
    | with_reducible apply Keeps.each
    | with_reducible apply Keeps.zero
    | split
    | dsimp +zetaDelta only

theorem State.dropInstances_keeps {s₀ : State} {s : State} {old im : LogicImage} {t : Nat} {l : Lane} (hk : s₀.Keeps s) : s₀.Keeps (State.dropInstances s old im t l) := by
  unfold State.dropInstances
  repeat' first
    | with_reducible assumption
    | extract_lets
    | intro _
    | with_reducible apply Keeps.each
    | with_reducible apply Keeps.zero
    | split
    | dsimp +zetaDelta only

theorem State.initTimer_keeps {s₀ : State} {s : State} {l : Lane} {d : InstDecl} (hk : s₀.Keeps s) : s₀.Keeps (State.initTimer s l d) := by
  unfold State.initTimer
  repeat' first
    | with_reducible assumption
    | extract_lets
    | intro _
    | with_reducible apply State.putDecl_keeps
    | with_reducible apply Keeps.wr
    | split
    | dsimp +zetaDelta only

theorem State.initCounter_keeps {s₀ : State} {s : State} {l : Lane} {d : InstDecl} (hk : s₀.Keeps s) : s₀.Keeps (State.initCounter s l d) := by
  unfold State.initCounter
  repeat' first
    | with_reducible assumption
    | extract_lets
    | intro _
    | with_reducible apply State.putDecl_keeps
    | with_reducible apply Keeps.wr
    | split
    | dsimp +zetaDelta only

theorem State.putEdge_keeps {s₀ : State} {s : State} {l : Lane} {e : Nat} {b : Bool} (hk : s₀.Keeps s) : s₀.Keeps (State.putEdge s l e b) := by
  unfold State.putEdge
  repeat' first
    | with_reducible assumption
    | extract_lets
    | intro _
    | with_reducible apply Keeps.setByte
    | with_reducible apply Keeps.ite
    | split
    | dsimp +zetaDelta only

theorem State.initData_keeps {s₀ : State} {s : State} {im : LogicImage} {l : Lane} {lo n : Nat} (hk : s₀.Keeps s) : s₀.Keeps (State.initData s im l lo n) := by
  unfold State.initData
  repeat' first
    | with_reducible assumption
    | extract_lets
    | intro _
    | with_reducible apply Keeps.each
    | with_reducible apply Keeps.setByte
    | with_reducible apply Keeps.zero
    | split
    | dsimp +zetaDelta only

theorem State.restartLane_keeps {s₀ : State} {s : State} {t : Nat} {warm : Bool} {l : Lane} (hk : s₀.Keeps s) : s₀.Keeps (State.restartLane s t warm l) := by
  unfold State.restartLane
  repeat' first
    | with_reducible assumption
    | extract_lets
    | intro _
    | with_reducible apply State.initCounter_keeps
    | with_reducible apply State.initData_keeps
    | with_reducible apply State.initTimer_keeps
    | with_reducible apply State.putEdge_keeps
    | with_reducible apply State.putSafe_keeps
    | with_reducible apply State.start_keeps
    | with_reducible apply Keeps.each
    | with_reducible apply Keeps.set
    | with_reducible apply Keeps.setWord
    | with_reducible apply Keeps.setCtx
    | with_reducible apply Keeps.setPres
    | with_reducible apply Keeps.ite
    | split
    | dsimp +zetaDelta only

theorem State.carryLane_keeps {s₀ : State} {s : State} {old im : LogicImage} {t : Nat} {l : Lane} (hk : s₀.Keeps s) : s₀.Keeps (State.carryLane s old im t l) := by
  unfold State.carryLane
  repeat' first
    | with_reducible assumption
    | extract_lets
    | intro _
    | with_reducible apply State.initCounter_keeps
    | with_reducible apply State.initTimer_keeps
    | with_reducible apply State.putDecl_keeps
    | with_reducible apply State.putEdge_keeps
    | with_reducible apply Keeps.each
    | with_reducible apply Keeps.set
    | with_reducible apply Keeps.copy
    | split
    | dsimp +zetaDelta only

theorem State.olcCarry_keeps {s₀ : State} {s : State} {t : Nat} {restarted : Bool} (hk : s₀.Keeps s) : s₀.Keeps (State.olcCarry s t restarted) := by
  unfold State.olcCarry
  repeat' first
    | with_reducible assumption
    | extract_lets
    | intro _
    | with_reducible apply State.carryLane_keeps
    | with_reducible apply State.dropInstances_keeps
    | with_reducible apply Keeps.each
    | with_reducible apply Keeps.set
    | with_reducible apply Keeps.add
    | with_reducible apply Keeps.ite
    | split
    | dsimp +zetaDelta only

end Sys2Proof.Machine
end

