-- ==== Sys2Proof/Laws/KeepsRegOps.lean ====
section
/-! SUPPORT. What the operations and commands of Machine/RegOps.lean keep. -/

namespace Sys2Proof.Machine
open Reg Hid

theorem State.regStore_keeps {s₀ : State} {s : State} {a v : Nat} (hk : s₀.Keeps s) : s₀.Keeps (State.regStore s a v) := by
  unfold State.regStore
  repeat' first
    | with_reducible assumption
    | extract_lets
    | intro _
    | with_reducible apply Keeps.each
    | with_reducible apply Keeps.set
    | with_reducible apply Keeps.ite
    | split
    | dsimp +zetaDelta only

end Sys2Proof.Machine
end

