-- ==== Sys2Proof/Laws/KeepsConfigCheck.lean ====
section
/-! SUPPORT. What the operations and commands of Machine/ConfigCheck.lean keep. -/

namespace Sys2Proof.Machine
open Reg Hid

theorem State.writeConfig_keeps {s₀ : State} {s : State} {cs : ConfigSet} (hk : s₀.Keeps s) : s₀.Keeps (s.writeConfig cs) := by
  unfold State.writeConfig
  extract_lets z f g v x
  have hz : s₀.Keeps z := Keeps.each hk fun s f h => Keeps.zero h
  have hg : Sparse.rising 0 z.fld = true → Sparse.rising 0 g = true := by
    intro hs
    have hf : Sparse.rising 0 f = true := Sparse.rising_filter _ hs
    unfold g
    generalize cs.regs.filter (fun p => isCs p.1) = l
    generalize f = m at hf
    induction l generalizing m with
    | nil => exact hf
    | cons p r ih => exact ih _ (Sparse.rising_put _ (Nat.zero_le _) hf)
  have hv : s₀.Keeps v := Keeps.rest (Keeps.fldTo g hz hg)
  exact Keeps.each (Keeps.each hv fun s n h => Keeps.each h fun s k h => Keeps.zero h) fun s p h => Keeps.setByte h

theorem State.configured_keeps {s₀ : State} {s : State} {im : LogicImage} {cs : ConfigSet} (hk : s₀.Keeps s) : s₀.Keeps (State.configured s im cs) := by
  unfold State.configured
  repeat' first
    | with_reducible assumption
    | extract_lets
    | intro _
    | with_reducible apply State.showImage_keeps
    | with_reducible apply State.writeConfig_keeps
    | split
    | with_reducible apply Keeps.rest
    | dsimp +zetaDelta only

end Sys2Proof.Machine
end

