-- ==== Sys2Proof/Laws/KeepsConfigApply.lean ====
section
/-! SUPPORT. What the operations and commands of Machine/ConfigApply.lean keep. -/

namespace Sys2Proof.Machine
open Reg Hid

theorem State.startChannels_keeps {s₀ : State} {s : State} (hk : s₀.Keeps s) : s₀.Keeps (State.startChannels s) := by
  unfold State.startChannels
  repeat' first
    | with_reducible assumption
    | extract_lets
    | intro _
    | with_reducible apply Keeps.each
    | with_reducible apply Keeps.set
    | with_reducible apply Keeps.put
    | with_reducible apply Keeps.restore
    | with_reducible apply Keeps.noRuns
    | split
    | with_reducible apply Keeps.rest
    | dsimp +zetaDelta only

theorem State.startGroup_keeps {s₀ : State} {s : State} {g : Nat} (hk : s₀.Keeps s) : s₀.Keeps (State.startGroup s g) := by
  unfold State.startGroup
  repeat' first
    | with_reducible assumption
    | extract_lets
    | intro _
    | with_reducible apply State.summarise_keeps
    | with_reducible apply Keeps.each
    | with_reducible apply Keeps.set
    | with_reducible apply Keeps.put
    | with_reducible apply Keeps.ite
    | split
    | dsimp +zetaDelta only

theorem State.startGroups_keeps {s₀ : State} {s : State} (hk : s₀.Keeps s) : s₀.Keeps (State.startGroups s) := by
  unfold State.startGroups
  repeat' first
    | with_reducible assumption
    | extract_lets
    | intro _
    | with_reducible apply State.ev_keeps
    | with_reducible apply State.startGroup_keeps
    | with_reducible apply Keeps.each
    | with_reducible apply Keeps.set
    | with_reducible apply Keeps.restore
    | with_reducible apply Keeps.foldl
    | with_reducible apply Keeps.foldlState
    | with_reducible apply Keeps.ite
    | split
    | dsimp +zetaDelta only

theorem State.startTask_keeps {s₀ : State} {s : State} {t : Nat} (hk : s₀.Keeps s) : s₀.Keeps (State.startTask s t) := by
  unfold State.startTask
  repeat' first
    | with_reducible assumption
    | extract_lets
    | intro _
    | with_reducible apply State.fallback_keeps
    | with_reducible apply Keeps.set
    | with_reducible apply Keeps.ite
    | split
    | dsimp +zetaDelta only

theorem State.startFollow_keeps {s₀ : State} {s : State} {c : Nat} (hk : s₀.Keeps s) : s₀.Keeps (State.startFollow s c) := by
  unfold State.startFollow
  repeat' first
    | with_reducible assumption
    | extract_lets
    | intro _
    | with_reducible apply Keeps.set
    | with_reducible apply Keeps.ite
    | split
    | dsimp +zetaDelta only

theorem State.startTasks_keeps {s₀ : State} {s : State} (hk : s₀.Keeps s) : s₀.Keeps (State.startTasks s) := by
  unfold State.startTasks
  repeat' first
    | with_reducible assumption
    | extract_lets
    | intro _
    | with_reducible apply State.abandonScan_keeps
    | with_reducible apply State.paceNote_keeps
    | with_reducible apply State.startFollow_keeps
    | with_reducible apply State.startTask_keeps
    | with_reducible apply Keeps.each
    | with_reducible apply Keeps.set
    | with_reducible apply Keeps.inc
    | with_reducible apply Keeps.restore
    | split
    | with_reducible apply Keeps.rest
    | with_reducible apply Keeps.noLatches
    | dsimp +zetaDelta only

theorem State.rejudgePort_keeps {s₀ : State} {s : State} {p : Nat} (hk : s₀.Keeps s) : s₀.Keeps (State.rejudgePort s p) := by
  unfold State.rejudgePort
  repeat' first
    | with_reducible assumption
    | extract_lets
    | intro _
    | with_reducible apply State.judgePort_keeps
    | with_reducible apply State.portLong_keeps
    | with_reducible apply Keeps.ite
    | split
    | dsimp +zetaDelta only

theorem State.startNet_keeps {s₀ : State} {s : State} (hk : s₀.Keeps s) : s₀.Keeps (State.startNet s) := by
  unfold State.startNet
  repeat' first
    | with_reducible assumption
    | extract_lets
    | intro _
    | with_reducible apply State.clearMeas_keeps
    | with_reducible apply State.listenAtStart_keeps
    | with_reducible apply State.rejudgePort_keeps
    | with_reducible apply State.showFlow_keeps
    | with_reducible apply Keeps.each
    | with_reducible apply Keeps.set
    | with_reducible apply Keeps.put
    | with_reducible apply Keeps.restore
    | with_reducible apply Keeps.resetRegs
    | with_reducible apply Keeps.free
    | with_reducible apply Keeps.ite
    | split
    | dsimp +zetaDelta only

theorem State.startCan_keeps {s₀ : State} {s : State} (hk : s₀.Keeps s) : s₀.Keeps (State.startCan s) := by
  unfold State.startCan
  repeat' first
    | with_reducible assumption
    | extract_lets
    | intro _
    | with_reducible apply State.canClear_keeps
    | with_reducible apply State.showObj_keeps
    | with_reducible apply Keeps.each
    | with_reducible apply Keeps.set
    | with_reducible apply Keeps.put
    | with_reducible apply Keeps.restore
    | split
    | dsimp +zetaDelta only

theorem State.startGroupLinks_keeps {s₀ : State} {s : State} (hk : s₀.Keeps s) : s₀.Keeps (State.startGroupLinks s) := by
  unfold State.startGroupLinks
  repeat' first
    | with_reducible assumption
    | extract_lets
    | intro _
    | with_reducible apply State.linkDown_keeps
    | with_reducible apply State.relayEnd_keeps
    | with_reducible apply State.showGroup_keeps
    | with_reducible apply Keeps.each
    | with_reducible apply Keeps.set
    | with_reducible apply Keeps.restore
    | with_reducible apply Keeps.ite
    | split
    | dsimp +zetaDelta only

theorem State.placeSlots_keeps {b : State} {s : State} {ts : List Nat} {off : Nat} (h : b.Keeps s) :
    b.Keeps (s.placeSlots ts off) := by
  induction ts generalizing s off with
  | nil => exact h
  | cons t r ih => exact ih (Keeps.set h)

theorem State.startTwin_keeps {s₀ : State} {s : State} (hk : s₀.Keeps s) : s₀.Keeps (State.startTwin s) := by
  unfold State.startTwin
  repeat' first
    | with_reducible assumption
    | extract_lets
    | intro _
    | with_reducible apply State.placeSlots_keeps
    | with_reducible apply State.setRole_keeps
    | with_reducible apply Keeps.set
    | with_reducible apply Keeps.restore
    | with_reducible apply Keeps.ite
    | split
    | with_reducible apply Keeps.rest
    | dsimp +zetaDelta only

theorem State.startBlocks_keeps {s₀ : State} {s : State} (hk : s₀.Keeps s) : s₀.Keeps (State.startBlocks s) := by
  unfold State.startBlocks
  repeat' first
    | with_reducible assumption
    | extract_lets
    | intro _
    | with_reducible apply State.startCan_keeps
    | with_reducible apply State.startChannels_keeps
    | with_reducible apply State.startGroupLinks_keeps
    | with_reducible apply State.startGroups_keeps
    | with_reducible apply State.startNet_keeps
    | with_reducible apply State.startTasks_keeps
    | with_reducible apply State.startTwin_keeps
    | with_reducible apply Keeps.set
    | split
    | dsimp +zetaDelta only

theorem State.applyConfig_keeps {s₀ : State} {s : State} {cs : ConfigSet} (hk : s₀.Keeps s) : s₀.Keeps (State.applyConfig s cs) := by
  unfold State.applyConfig
  repeat' first
    | with_reducible assumption
    | extract_lets
    | intro _
    | with_reducible apply State.startBlocks_keeps
    | with_reducible apply State.writeConfig_keeps
    | split
    | dsimp +zetaDelta only

end Sys2Proof.Machine
end

