-- ==== Sys2Proof/Laws/KeepsScanBit.lean ====
section
/-! SUPPORT. What the operations and commands of Machine/ScanBit.lean keep. -/

namespace Sys2Proof.Machine
open Reg Hid

theorem State.bitLogic_keeps {s₀ : State} {s : State} {l : Lane} {i : Instr} {o : BitOp} {f : Bool → Bool → Bool} (hk : s₀.Keeps s) : s₀.Keeps (State.bitLogic s l i o f) := by
  unfold State.bitLogic
  repeat' first
    | with_reducible assumption
    | extract_lets
    | intro _
    | with_reducible apply State.scanCtx_keeps
    | split
    | with_reducible apply Keeps.rest
    | dsimp +zetaDelta only

theorem State.bitStore_keeps {s₀ : State} {s : State} {l : Lane} {i : Instr} {r : BitRef} {go : Bool → Bool} {v : Bool → Bool} (hk : s₀.Keeps s) : s₀.Keeps (State.bitStore s l i r go v) := by
  unfold State.bitStore
  repeat' first
    | with_reducible assumption
    | extract_lets
    | intro _
    | with_reducible apply State.scan_keeps
    | with_reducible apply State.storeBit_keeps
    | with_reducible apply Keeps.setCtx
    | with_reducible apply Keeps.ite
    | split
    | dsimp +zetaDelta only

theorem State.openNest_keeps {s₀ : State} {s : State} {l : Lane} {i : Instr} {o : BitOp} {op : NestOp} (hk : s₀.Keeps s) : s₀.Keeps (State.openNest s l i o op) := by
  unfold State.openNest
  repeat' first
    | with_reducible assumption
    | extract_lets
    | intro _
    | with_reducible apply State.scan_keeps
    | with_reducible apply State.scanTrip_keeps
    | with_reducible apply Keeps.setCtx
    | with_reducible apply Keeps.ite
    | split
    | with_reducible apply Keeps.rest
    | dsimp +zetaDelta only

theorem State.setEdge_keeps {s₀ : State} {s : State} {l : Lane} {old : Bool} {e : Nat} {b : Bool} (hk : s₀.Keeps s) : s₀.Keeps (State.setEdge s l old e b) := by
  unfold State.setEdge
  repeat' first
    | with_reducible assumption
    | extract_lets
    | intro _
    | with_reducible apply Keeps.setByte
    | with_reducible apply Keeps.set
    | with_reducible apply Keeps.ite
    | split
    | dsimp +zetaDelta only

theorem State.edge_keeps {s₀ : State} {s : State} {l : Lane} {i : Instr} {e : Nat} {f : Bool → Bool → Bool} (hk : s₀.Keeps s) : s₀.Keeps (State.edge s l i e f) := by
  unfold State.edge
  repeat' first
    | with_reducible assumption
    | extract_lets
    | intro _
    | with_reducible apply State.scan_keeps
    | with_reducible apply State.setEdge_keeps
    | with_reducible apply Keeps.setCtx
    | with_reducible apply Keeps.ite
    | split
    | with_reducible apply Keeps.rest
    | dsimp +zetaDelta only

theorem execNop_keeps (l : Lane) (s : State) : ∃ u, execNop l s = .next u ∧ s.Keeps u := by
  unfold execNop
  repeat' first
    | with_reducible assumption
    | extract_lets
    | intro _
    | with_reducible apply State.scanCtx_keeps
    | refine Keeps.ofNext ?_
    | split
    | dsimp +zetaDelta only

theorem execLd_keeps (l : Lane) (o : BitOp) (s : State) : ∃ u, execLd l o s = .next u ∧ s.Keeps u := by
  unfold execLd
  repeat' first
    | with_reducible assumption
    | extract_lets
    | intro _
    | with_reducible apply State.bitLogic_keeps
    | refine Keeps.ofNext ?_
    | split
    | dsimp +zetaDelta only

theorem execLdn_keeps (l : Lane) (o : BitOp) (s : State) : ∃ u, execLdn l o s = .next u ∧ s.Keeps u := by
  unfold execLdn
  repeat' first
    | with_reducible assumption
    | extract_lets
    | intro _
    | with_reducible apply State.bitLogic_keeps
    | refine Keeps.ofNext ?_
    | split
    | dsimp +zetaDelta only

theorem execAndBit_keeps (l : Lane) (o : BitOp) (s : State) : ∃ u, execAndBit l o s = .next u ∧ s.Keeps u := by
  unfold execAndBit
  repeat' first
    | with_reducible assumption
    | extract_lets
    | intro _
    | with_reducible apply State.bitLogic_keeps
    | refine Keeps.ofNext ?_
    | split
    | dsimp +zetaDelta only

theorem execAndn_keeps (l : Lane) (o : BitOp) (s : State) : ∃ u, execAndn l o s = .next u ∧ s.Keeps u := by
  unfold execAndn
  repeat' first
    | with_reducible assumption
    | extract_lets
    | intro _
    | with_reducible apply State.bitLogic_keeps
    | refine Keeps.ofNext ?_
    | split
    | dsimp +zetaDelta only

theorem execOrBit_keeps (l : Lane) (o : BitOp) (s : State) : ∃ u, execOrBit l o s = .next u ∧ s.Keeps u := by
  unfold execOrBit
  repeat' first
    | with_reducible assumption
    | extract_lets
    | intro _
    | with_reducible apply State.bitLogic_keeps
    | refine Keeps.ofNext ?_
    | split
    | dsimp +zetaDelta only

theorem execOrn_keeps (l : Lane) (o : BitOp) (s : State) : ∃ u, execOrn l o s = .next u ∧ s.Keeps u := by
  unfold execOrn
  repeat' first
    | with_reducible assumption
    | extract_lets
    | intro _
    | with_reducible apply State.bitLogic_keeps
    | refine Keeps.ofNext ?_
    | split
    | dsimp +zetaDelta only

theorem execXorBit_keeps (l : Lane) (o : BitOp) (s : State) : ∃ u, execXorBit l o s = .next u ∧ s.Keeps u := by
  unfold execXorBit
  repeat' first
    | with_reducible assumption
    | extract_lets
    | intro _
    | with_reducible apply State.bitLogic_keeps
    | refine Keeps.ofNext ?_
    | split
    | dsimp +zetaDelta only

theorem execNotBit_keeps (l : Lane) (s : State) : ∃ u, execNotBit l s = .next u ∧ s.Keeps u := by
  unfold execNotBit
  repeat' first
    | with_reducible assumption
    | extract_lets
    | intro _
    | with_reducible apply State.scanCtx_keeps
    | refine Keeps.ofNext ?_
    | split
    | with_reducible apply Keeps.rest
    | dsimp +zetaDelta only

theorem execSt_keeps (l : Lane) (r : BitRef) (s : State) : ∃ u, execSt l r s = .next u ∧ s.Keeps u := by
  unfold execSt
  repeat' first
    | with_reducible assumption
    | extract_lets
    | intro _
    | with_reducible apply State.bitStore_keeps
    | refine Keeps.ofNext ?_
    | split
    | dsimp +zetaDelta only

theorem execStn_keeps (l : Lane) (r : BitRef) (s : State) : ∃ u, execStn l r s = .next u ∧ s.Keeps u := by
  unfold execStn
  repeat' first
    | with_reducible assumption
    | extract_lets
    | intro _
    | with_reducible apply State.bitStore_keeps
    | refine Keeps.ofNext ?_
    | split
    | dsimp +zetaDelta only

theorem execSet_keeps (l : Lane) (r : BitRef) (s : State) : ∃ u, execSet l r s = .next u ∧ s.Keeps u := by
  unfold execSet
  repeat' first
    | with_reducible assumption
    | extract_lets
    | intro _
    | with_reducible apply State.bitStore_keeps
    | with_reducible apply Keeps.set
    | refine Keeps.ofNext ?_
    | split
    | dsimp +zetaDelta only

theorem execRst_keeps (l : Lane) (r : BitRef) (s : State) : ∃ u, execRst l r s = .next u ∧ s.Keeps u := by
  unfold execRst
  repeat' first
    | with_reducible assumption
    | extract_lets
    | intro _
    | with_reducible apply State.bitStore_keeps
    | refine Keeps.ofNext ?_
    | split
    | dsimp +zetaDelta only

theorem execAndOpen_keeps (l : Lane) (o : BitOp) (s : State) : ∃ u, execAndOpen l o s = .next u ∧ s.Keeps u := by
  unfold execAndOpen
  repeat' first
    | with_reducible assumption
    | extract_lets
    | intro _
    | with_reducible apply State.openNest_keeps
    | refine Keeps.ofNext ?_
    | split
    | dsimp +zetaDelta only

theorem execOrOpen_keeps (l : Lane) (o : BitOp) (s : State) : ∃ u, execOrOpen l o s = .next u ∧ s.Keeps u := by
  unfold execOrOpen
  repeat' first
    | with_reducible assumption
    | extract_lets
    | intro _
    | with_reducible apply State.openNest_keeps
    | refine Keeps.ofNext ?_
    | split
    | dsimp +zetaDelta only

theorem execXorOpen_keeps (l : Lane) (o : BitOp) (s : State) : ∃ u, execXorOpen l o s = .next u ∧ s.Keeps u := by
  unfold execXorOpen
  repeat' first
    | with_reducible assumption
    | extract_lets
    | intro _
    | with_reducible apply State.openNest_keeps
    | refine Keeps.ofNext ?_
    | split
    | dsimp +zetaDelta only

theorem execClose_keeps (l : Lane) (s : State) : ∃ u, execClose l s = .next u ∧ s.Keeps u := by
  unfold execClose
  repeat' first
    | with_reducible assumption
    | extract_lets
    | intro _
    | with_reducible apply State.scan_keeps
    | with_reducible apply State.scanTrip_keeps
    | with_reducible apply Keeps.setCtx
    | refine Keeps.ofNext ?_
    | split
    | with_reducible apply Keeps.rest
    | dsimp +zetaDelta only

theorem execEdgr_keeps (l : Lane) (e : Nat) (s : State) : ∃ u, execEdgr l e s = .next u ∧ s.Keeps u := by
  unfold execEdgr
  repeat' first
    | with_reducible assumption
    | extract_lets
    | intro _
    | with_reducible apply State.edge_keeps
    | refine Keeps.ofNext ?_
    | split
    | dsimp +zetaDelta only

theorem execEdgf_keeps (l : Lane) (e : Nat) (s : State) : ∃ u, execEdgf l e s = .next u ∧ s.Keeps u := by
  unfold execEdgf
  repeat' first
    | with_reducible assumption
    | extract_lets
    | intro _
    | with_reducible apply State.edge_keeps
    | refine Keeps.ofNext ?_
    | split
    | dsimp +zetaDelta only

end Sys2Proof.Machine
end

