-- ==== Sys2Proof/Laws/KeepsScanControl.lean ====
section
/-! SUPPORT. What the operations and commands of Machine/ScanControl.lean keep. -/

namespace Sys2Proof.Machine
open Reg Hid

theorem State.jump_keeps {s₀ : State} {s : State} {l : Lane} {i : Instr} {target : Nat} {taken : Bool → Bool} (hk : s₀.Keeps s) : s₀.Keeps (State.jump s l i target taken) := by
  unfold State.jump
  repeat' first
    | with_reducible assumption
    | extract_lets
    | intro _
    | with_reducible apply State.scanCtx_keeps
    | with_reducible apply Keeps.ite
    | split
    | with_reducible apply Keeps.rest
    | dsimp +zetaDelta only

theorem State.call_keeps {s₀ : State} {s : State} {l : Lane} {i : Instr} {pou : Nat} {taken : Bool → Bool} (hk : s₀.Keeps s) : s₀.Keeps (State.call s l i pou taken) := by
  unfold State.call
  repeat' first
    | with_reducible assumption
    | extract_lets
    | intro _
    | with_reducible apply State.scan_keeps
    | with_reducible apply State.scanTrip_keeps
    | with_reducible apply Keeps.setCtx
    | with_reducible apply Keeps.ite
    | split
    | with_reducible apply Keeps.rest
    | dsimp +zetaDelta only

theorem State.return_keeps {s₀ : State} {s : State} {l : Lane} {i : Instr} {taken : Bool → Bool} (hk : s₀.Keeps s) : s₀.Keeps (State.return s l i taken) := by
  unfold State.return
  repeat' first
    | with_reducible assumption
    | extract_lets
    | intro _
    | with_reducible apply State.scan_keeps
    | with_reducible apply State.call_keeps
    | with_reducible apply State.endScan_keeps
    | with_reducible apply State.scanTrip_keeps
    | with_reducible apply Keeps.setCtx
    | with_reducible apply Keeps.ite
    | split
    | with_reducible apply Keeps.rest
    | dsimp +zetaDelta only

theorem execJmp_keeps (l : Lane) (target : Nat) (s : State) : ∃ u, execJmp l target s = .next u ∧ s.Keeps u := by
  unfold execJmp
  repeat' first
    | with_reducible assumption
    | extract_lets
    | intro _
    | with_reducible apply State.jump_keeps
    | refine Keeps.ofNext ?_
    | split
    | dsimp +zetaDelta only

theorem execJmpc_keeps (l : Lane) (target : Nat) (s : State) : ∃ u, execJmpc l target s = .next u ∧ s.Keeps u := by
  unfold execJmpc
  repeat' first
    | with_reducible assumption
    | extract_lets
    | intro _
    | with_reducible apply State.jump_keeps
    | refine Keeps.ofNext ?_
    | split
    | dsimp +zetaDelta only

theorem execJmpcn_keeps (l : Lane) (target : Nat) (s : State) : ∃ u, execJmpcn l target s = .next u ∧ s.Keeps u := by
  unfold execJmpcn
  repeat' first
    | with_reducible assumption
    | extract_lets
    | intro _
    | with_reducible apply State.jump_keeps
    | refine Keeps.ofNext ?_
    | split
    | dsimp +zetaDelta only

theorem execCall_keeps (l : Lane) (pou : Nat) (s : State) : ∃ u, execCall l pou s = .next u ∧ s.Keeps u := by
  unfold execCall
  repeat' first
    | with_reducible assumption
    | extract_lets
    | intro _
    | with_reducible apply State.call_keeps
    | refine Keeps.ofNext ?_
    | split
    | dsimp +zetaDelta only

theorem execCallc_keeps (l : Lane) (pou : Nat) (s : State) : ∃ u, execCallc l pou s = .next u ∧ s.Keeps u := by
  unfold execCallc
  repeat' first
    | with_reducible assumption
    | extract_lets
    | intro _
    | with_reducible apply State.call_keeps
    | refine Keeps.ofNext ?_
    | split
    | dsimp +zetaDelta only

theorem execCallcn_keeps (l : Lane) (pou : Nat) (s : State) : ∃ u, execCallcn l pou s = .next u ∧ s.Keeps u := by
  unfold execCallcn
  repeat' first
    | with_reducible assumption
    | extract_lets
    | intro _
    | with_reducible apply State.call_keeps
    | refine Keeps.ofNext ?_
    | split
    | dsimp +zetaDelta only

theorem execRet_keeps (l : Lane) (s : State) : ∃ u, execRet l s = .next u ∧ s.Keeps u := by
  unfold execRet
  repeat' first
    | with_reducible assumption
    | extract_lets
    | intro _
    | with_reducible apply State.return_keeps
    | refine Keeps.ofNext ?_
    | split
    | dsimp +zetaDelta only

theorem execRetc_keeps (l : Lane) (s : State) : ∃ u, execRetc l s = .next u ∧ s.Keeps u := by
  unfold execRetc
  repeat' first
    | with_reducible assumption
    | extract_lets
    | intro _
    | with_reducible apply State.return_keeps
    | refine Keeps.ofNext ?_
    | split
    | dsimp +zetaDelta only

theorem execEndScan_keeps (l : Lane) (s : State) : ∃ u, execEndScan l s = .next u ∧ s.Keeps u := by
  unfold execEndScan
  repeat' first
    | with_reducible assumption
    | extract_lets
    | intro _
    | with_reducible apply State.scan_keeps
    | with_reducible apply State.endScan_keeps
    | refine Keeps.ofNext ?_
    | split
    | dsimp +zetaDelta only

end Sys2Proof.Machine
end

