-- ==== Sys2Proof/Laws/KeepsScanSys.lean ====
section
/-! SUPPORT. What the operations and commands of Machine/ScanSys.lean keep. -/

namespace Sys2Proof.Machine
open Reg Hid

theorem State.setTimer_keeps {s₀ : State} {s : State} {l : Lane} {old : Bool} {n : Nat} {x : TimerInst} {ptp : Nat} (hk : s₀.Keeps s) : s₀.Keeps (State.setTimer s l old n x ptp) := by
  unfold State.setTimer
  repeat' first
    | with_reducible assumption
    | extract_lets
    | intro _
    | with_reducible apply Keeps.wr
    | split
    | dsimp +zetaDelta only

theorem State.timerOp_keeps {s₀ : State} {s : State} {l : Lane} {i : Instr} {n : Nat}
    {step : TimerInst → Bool → Bool → Nat → TimerInst} (hk : s₀.Keeps s) : s₀.Keeps (State.timerOp s l i n step) := by
  unfold State.timerOp
  repeat' first
    | with_reducible assumption
    | extract_lets
    | intro _
    | with_reducible apply State.scan_keeps
    | with_reducible apply State.setTimer_keeps
    | with_reducible apply Keeps.setCtx
    | split
    | dsimp +zetaDelta only

theorem State.ctrPort_keeps {s₀ : State} {s : State} {l : Lane} {i : Instr} {n k : Nat} (hk : s₀.Keeps s) : s₀.Keeps (State.ctrPort s l i n k) := by
  unfold State.ctrPort
  repeat' first
    | with_reducible assumption
    | extract_lets
    | intro _
    | with_reducible apply State.scan_keeps
    | with_reducible apply Keeps.setByte
    | with_reducible apply Keeps.setCtx
    | split
    | dsimp +zetaDelta only

theorem State.ctrEval_keeps {s₀ : State} {s : State} {l : Lane} {i : Instr} {k : CtrKind} {n : Nat} (hk : s₀.Keeps s) : s₀.Keeps (State.ctrEval s l i k n) := by
  unfold State.ctrEval
  repeat' first
    | with_reducible assumption
    | extract_lets
    | intro _
    | with_reducible apply State.scan_keeps
    | with_reducible apply Keeps.wr
    | with_reducible apply Keeps.setWord
    | with_reducible apply Keeps.setCtx
    | with_reducible apply Keeps.ite
    | split
    | dsimp +zetaDelta only

theorem State.flowOp_keeps {s₀ : State} {s : State} {l : Lane} {i : Instr} {f : Nat} {g : Ctx → FlowLatch → Ctx} (hk : s₀.Keeps s) : s₀.Keeps (State.flowOp s l i f g) := by
  unfold State.flowOp
  repeat' first
    | with_reducible assumption
    | extract_lets
    | intro _
    | with_reducible apply State.scanCtx_keeps
    | split
    | dsimp +zetaDelta only

theorem State.sysOp_keeps {s₀ : State} {s : State} {l : Lane} {i : Instr} {g : Ctx → SysLatch → Ctx} (hk : s₀.Keeps s) : s₀.Keeps (State.sysOp s l i g) := by
  unfold State.sysOp
  repeat' first
    | with_reducible assumption
    | extract_lets
    | intro _
    | with_reducible apply State.scanCtx_keeps
    | split
    | dsimp +zetaDelta only

theorem execTon_keeps (l : Lane) (n : Nat) (s : State) : ∃ u, execTon l n s = .next u ∧ s.Keeps u := by
  unfold execTon
  repeat' first
    | with_reducible assumption
    | extract_lets
    | intro _
    | with_reducible apply State.timerOp_keeps
    | refine Keeps.ofNext ?_
    | split
    | dsimp +zetaDelta only

theorem execTof_keeps (l : Lane) (n : Nat) (s : State) : ∃ u, execTof l n s = .next u ∧ s.Keeps u := by
  unfold execTof
  repeat' first
    | with_reducible assumption
    | extract_lets
    | intro _
    | with_reducible apply State.timerOp_keeps
    | refine Keeps.ofNext ?_
    | split
    | dsimp +zetaDelta only

theorem execTp_keeps (l : Lane) (n : Nat) (s : State) : ∃ u, execTp l n s = .next u ∧ s.Keeps u := by
  unfold execTp
  repeat' first
    | with_reducible assumption
    | extract_lets
    | intro _
    | with_reducible apply State.timerOp_keeps
    | refine Keeps.ofNext ?_
    | split
    | dsimp +zetaDelta only

theorem execCu_keeps (l : Lane) (k : CtrKind) (n : Nat) (s : State) : ∃ u, execCu l k n s = .next u ∧ s.Keeps u := by
  unfold execCu
  repeat' first
    | with_reducible assumption
    | extract_lets
    | intro _
    | with_reducible apply State.ctrPort_keeps
    | refine Keeps.ofNext ?_
    | split
    | dsimp +zetaDelta only

theorem execCd_keeps (l : Lane) (k : CtrKind) (n : Nat) (s : State) : ∃ u, execCd l k n s = .next u ∧ s.Keeps u := by
  unfold execCd
  repeat' first
    | with_reducible assumption
    | extract_lets
    | intro _
    | with_reducible apply State.ctrPort_keeps
    | refine Keeps.ofNext ?_
    | split
    | dsimp +zetaDelta only

theorem execCounterR_keeps (l : Lane) (k : CtrKind) (n : Nat) (s : State) : ∃ u, execCounterR l k n s = .next u ∧ s.Keeps u := by
  unfold execCounterR
  repeat' first
    | with_reducible assumption
    | extract_lets
    | intro _
    | with_reducible apply State.ctrPort_keeps
    | refine Keeps.ofNext ?_
    | split
    | dsimp +zetaDelta only

theorem execCounterLd_keeps (l : Lane) (k : CtrKind) (n : Nat) (s : State) : ∃ u, execCounterLd l k n s = .next u ∧ s.Keeps u := by
  unfold execCounterLd
  repeat' first
    | with_reducible assumption
    | extract_lets
    | intro _
    | with_reducible apply State.ctrPort_keeps
    | refine Keeps.ofNext ?_
    | split
    | dsimp +zetaDelta only

theorem execQd_keeps (l : Lane) (k : CtrKind) (n : Nat) (s : State) : ∃ u, execQd l k n s = .next u ∧ s.Keeps u := by
  unfold execQd
  repeat' first
    | with_reducible assumption
    | extract_lets
    | intro _
    | with_reducible apply State.scanCtx_keeps
    | refine Keeps.ofNext ?_
    | split
    | dsimp +zetaDelta only

theorem execEval_keeps (l : Lane) (k : CtrKind) (n : Nat) (s : State) : ∃ u, execEval l k n s = .next u ∧ s.Keeps u := by
  unfold execEval
  repeat' first
    | with_reducible assumption
    | extract_lets
    | intro _
    | with_reducible apply State.ctrEval_keeps
    | refine Keeps.ofNext ?_
    | split
    | dsimp +zetaDelta only

theorem execReceiveAge_keeps (l : Lane) (f : Nat) (s : State) : ∃ u, execReceiveAge l f s = .next u ∧ s.Keeps u := by
  unfold execReceiveAge
  repeat' first
    | with_reducible assumption
    | extract_lets
    | intro _
    | with_reducible apply State.flowOp_keeps
    | refine Keeps.ofNext ?_
    | split
    | dsimp +zetaDelta only

theorem execSenderAge_keeps (l : Lane) (f : Nat) (s : State) : ∃ u, execSenderAge l f s = .next u ∧ s.Keeps u := by
  unfold execSenderAge
  repeat' first
    | with_reducible assumption
    | extract_lets
    | intro _
    | with_reducible apply State.flowOp_keeps
    | refine Keeps.ofNext ?_
    | split
    | dsimp +zetaDelta only

theorem execStale_keeps (l : Lane) (f : Nat) (s : State) : ∃ u, execStale l f s = .next u ∧ s.Keeps u := by
  unfold execStale
  repeat' first
    | with_reducible assumption
    | extract_lets
    | intro _
    | with_reducible apply State.flowOp_keeps
    | refine Keeps.ofNext ?_
    | split
    | dsimp +zetaDelta only

theorem execRepeatFlag_keeps (l : Lane) (f : Nat) (s : State) : ∃ u, execRepeatFlag l f s = .next u ∧ s.Keeps u := by
  unfold execRepeatFlag
  repeat' first
    | with_reducible assumption
    | extract_lets
    | intro _
    | with_reducible apply State.flowOp_keeps
    | refine Keeps.ofNext ?_
    | split
    | dsimp +zetaDelta only

theorem execLanes_keeps (l : Lane) (s : State) : ∃ u, execLanes l s = .next u ∧ s.Keeps u := by
  unfold execLanes
  repeat' first
    | with_reducible assumption
    | extract_lets
    | intro _
    | with_reducible apply State.sysOp_keeps
    | refine Keeps.ofNext ?_
    | split
    | dsimp +zetaDelta only

theorem execSync_keeps (l : Lane) (s : State) : ∃ u, execSync l s = .next u ∧ s.Keeps u := by
  unfold execSync
  repeat' first
    | with_reducible assumption
    | extract_lets
    | intro _
    | with_reducible apply State.sysOp_keeps
    | refine Keeps.ofNext ?_
    | split
    | dsimp +zetaDelta only

theorem execLease_keeps (l : Lane) (s : State) : ∃ u, execLease l s = .next u ∧ s.Keeps u := by
  unfold execLease
  repeat' first
    | with_reducible assumption
    | extract_lets
    | intro _
    | with_reducible apply State.sysOp_keeps
    | refine Keeps.ofNext ?_
    | split
    | dsimp +zetaDelta only

theorem execLane_keeps (l : Lane) (s : State) : ∃ u, execLane l s = .next u ∧ s.Keeps u := by
  unfold execLane
  repeat' first
    | with_reducible assumption
    | extract_lets
    | intro _
    | with_reducible apply State.sysOp_keeps
    | refine Keeps.ofNext ?_
    | split
    | dsimp +zetaDelta only

theorem execPeriod_keeps (l : Lane) (s : State) : ∃ u, execPeriod l s = .next u ∧ s.Keeps u := by
  unfold execPeriod
  repeat' first
    | with_reducible assumption
    | extract_lets
    | intro _
    | with_reducible apply State.sysOp_keeps
    | refine Keeps.ofNext ?_
    | split
    | dsimp +zetaDelta only

theorem execFirst_keeps (l : Lane) (s : State) : ∃ u, execFirst l s = .next u ∧ s.Keeps u := by
  unfold execFirst
  repeat' first
    | with_reducible assumption
    | extract_lets
    | intro _
    | with_reducible apply State.sysOp_keeps
    | refine Keeps.ofNext ?_
    | split
    | dsimp +zetaDelta only

theorem execFurlong_keeps (l : Lane) (s : State) : ∃ u, execFurlong l s = .next u ∧ s.Keeps u := by
  unfold execFurlong
  repeat' first
    | with_reducible assumption
    | extract_lets
    | intro _
    | with_reducible apply State.sysOp_keeps
    | refine Keeps.ofNext ?_
    | split
    | dsimp +zetaDelta only

theorem execPower_keeps (l : Lane) (s : State) : ∃ u, execPower l s = .next u ∧ s.Keeps u := by
  unfold execPower
  repeat' first
    | with_reducible assumption
    | extract_lets
    | intro _
    | with_reducible apply State.ev_keeps
    | with_reducible apply State.scan_keeps
    | with_reducible apply Keeps.raise
    | with_reducible apply Keeps.setCtx
    | with_reducible apply Keeps.ite
    | refine Keeps.ofNext ?_
    | split
    | dsimp +zetaDelta only

end Sys2Proof.Machine
end

