-- ==== Sys2Proof/Laws/KeepsScanWord.lean ====
section
/-! SUPPORT. What the operations and commands of Machine/ScanWord.lean keep. -/

namespace Sys2Proof.Machine
open Reg Hid

theorem State.wordOp_keeps {s₀ : State} {s : State} {l : Lane} {i : Instr} {o : WordOp} {f : Ctx → Word → Ctx} (hk : s₀.Keeps s) : s₀.Keeps (State.wordOp s l i o f) := by
  unfold State.wordOp
  repeat' first
    | with_reducible assumption
    | extract_lets
    | intro _
    | with_reducible apply State.scanCtx_keeps
    | split
    | dsimp +zetaDelta only

theorem execLdw_keeps (l : Lane) (o : WordOp) (s : State) : ∃ u, execLdw l o s = .next u ∧ s.Keeps u := by
  unfold execLdw
  repeat' first
    | with_reducible assumption
    | extract_lets
    | intro _
    | with_reducible apply State.wordOp_keeps
    | refine Keeps.ofNext ?_
    | split
    | dsimp +zetaDelta only

theorem execStw_keeps (l : Lane) (r : WordRef) (s : State) : ∃ u, execStw l r s = .next u ∧ s.Keeps u := by
  unfold execStw
  repeat' first
    | with_reducible assumption
    | extract_lets
    | intro _
    | with_reducible apply State.scan_keeps
    | with_reducible apply Keeps.setWord
    | with_reducible apply Keeps.setCtx
    | refine Keeps.ofNext ?_
    | split
    | dsimp +zetaDelta only

theorem execLdwb_keeps (l : Lane) (o : WordOp) (s : State) : ∃ u, execLdwb l o s = .next u ∧ s.Keeps u := by
  unfold execLdwb
  repeat' first
    | with_reducible assumption
    | extract_lets
    | intro _
    | with_reducible apply State.wordOp_keeps
    | refine Keeps.ofNext ?_
    | split
    | dsimp +zetaDelta only

theorem execAdd_keeps (l : Lane) (o : WordOp) (s : State) : ∃ u, execAdd l o s = .next u ∧ s.Keeps u := by
  unfold execAdd
  repeat' first
    | with_reducible assumption
    | extract_lets
    | intro _
    | with_reducible apply State.wordOp_keeps
    | with_reducible apply Keeps.add
    | refine Keeps.ofNext ?_
    | split
    | dsimp +zetaDelta only

theorem execSub_keeps (l : Lane) (o : WordOp) (s : State) : ∃ u, execSub l o s = .next u ∧ s.Keeps u := by
  unfold execSub
  repeat' first
    | with_reducible assumption
    | extract_lets
    | intro _
    | with_reducible apply State.wordOp_keeps
    | refine Keeps.ofNext ?_
    | split
    | dsimp +zetaDelta only

theorem execMul_keeps (l : Lane) (o : WordOp) (s : State) : ∃ u, execMul l o s = .next u ∧ s.Keeps u := by
  unfold execMul
  repeat' first
    | with_reducible assumption
    | extract_lets
    | intro _
    | with_reducible apply State.wordOp_keeps
    | refine Keeps.ofNext ?_
    | split
    | dsimp +zetaDelta only

theorem execDiv_keeps (l : Lane) (o : WordOp) (s : State) : ∃ u, execDiv l o s = .next u ∧ s.Keeps u := by
  unfold execDiv
  repeat' first
    | with_reducible assumption
    | extract_lets
    | intro _
    | with_reducible apply State.divZero_keeps
    | with_reducible apply State.scan_keeps
    | with_reducible apply Keeps.setCtx
    | with_reducible apply Keeps.ite
    | refine Keeps.ofNext ?_
    | split
    | dsimp +zetaDelta only

theorem execWopAnd_keeps (l : Lane) (s : State) : ∃ u, execWopAnd l s = .next u ∧ s.Keeps u := by
  unfold execWopAnd
  repeat' first
    | with_reducible assumption
    | extract_lets
    | intro _
    | with_reducible apply State.scanCtx_keeps
    | refine Keeps.ofNext ?_
    | split
    | dsimp +zetaDelta only

theorem execWopOr_keeps (l : Lane) (s : State) : ∃ u, execWopOr l s = .next u ∧ s.Keeps u := by
  unfold execWopOr
  repeat' first
    | with_reducible assumption
    | extract_lets
    | intro _
    | with_reducible apply State.scanCtx_keeps
    | refine Keeps.ofNext ?_
    | split
    | dsimp +zetaDelta only

theorem execWopXor_keeps (l : Lane) (s : State) : ∃ u, execWopXor l s = .next u ∧ s.Keeps u := by
  unfold execWopXor
  repeat' first
    | with_reducible assumption
    | extract_lets
    | intro _
    | with_reducible apply State.scanCtx_keeps
    | refine Keeps.ofNext ?_
    | split
    | dsimp +zetaDelta only

theorem execInv_keeps (l : Lane) (s : State) : ∃ u, execInv l s = .next u ∧ s.Keeps u := by
  unfold execInv
  repeat' first
    | with_reducible assumption
    | extract_lets
    | intro _
    | with_reducible apply State.scanCtx_keeps
    | refine Keeps.ofNext ?_
    | split
    | dsimp +zetaDelta only

theorem execNeg_keeps (l : Lane) (s : State) : ∃ u, execNeg l s = .next u ∧ s.Keeps u := by
  unfold execNeg
  repeat' first
    | with_reducible assumption
    | extract_lets
    | intro _
    | with_reducible apply State.scanCtx_keeps
    | refine Keeps.ofNext ?_
    | split
    | dsimp +zetaDelta only

theorem execAbs_keeps (l : Lane) (s : State) : ∃ u, execAbs l s = .next u ∧ s.Keeps u := by
  unfold execAbs
  repeat' first
    | with_reducible assumption
    | extract_lets
    | intro _
    | with_reducible apply State.scanCtx_keeps
    | refine Keeps.ofNext ?_
    | split
    | dsimp +zetaDelta only

theorem execMod_keeps (l : Lane) (s : State) : ∃ u, execMod l s = .next u ∧ s.Keeps u := by
  unfold execMod
  repeat' first
    | with_reducible assumption
    | extract_lets
    | intro _
    | with_reducible apply State.divZero_keeps
    | with_reducible apply State.scan_keeps
    | with_reducible apply Keeps.setCtx
    | with_reducible apply Keeps.ite
    | refine Keeps.ofNext ?_
    | split
    | dsimp +zetaDelta only

theorem execSwap_keeps (l : Lane) (s : State) : ∃ u, execSwap l s = .next u ∧ s.Keeps u := by
  unfold execSwap
  repeat' first
    | with_reducible assumption
    | extract_lets
    | intro _
    | with_reducible apply State.scanCtx_keeps
    | refine Keeps.ofNext ?_
    | split
    | dsimp +zetaDelta only

theorem execTob_keeps (l : Lane) (s : State) : ∃ u, execTob l s = .next u ∧ s.Keeps u := by
  unfold execTob
  repeat' first
    | with_reducible assumption
    | extract_lets
    | intro _
    | with_reducible apply State.scanCtx_keeps
    | refine Keeps.ofNext ?_
    | split
    | dsimp +zetaDelta only

theorem execFromb_keeps (l : Lane) (s : State) : ∃ u, execFromb l s = .next u ∧ s.Keeps u := by
  unfold execFromb
  repeat' first
    | with_reducible assumption
    | extract_lets
    | intro _
    | with_reducible apply State.scanCtx_keeps
    | refine Keeps.ofNext ?_
    | split
    | dsimp +zetaDelta only

theorem execBtst_keeps (l : Lane) (s : State) : ∃ u, execBtst l s = .next u ∧ s.Keeps u := by
  unfold execBtst
  repeat' first
    | with_reducible assumption
    | extract_lets
    | intro _
    | with_reducible apply State.scanCtx_keeps
    | refine Keeps.ofNext ?_
    | split
    | dsimp +zetaDelta only

theorem execBtow_keeps (l : Lane) (s : State) : ∃ u, execBtow l s = .next u ∧ s.Keeps u := by
  unfold execBtow
  repeat' first
    | with_reducible assumption
    | extract_lets
    | intro _
    | with_reducible apply State.scanCtx_keeps
    | with_reducible apply Keeps.ite
    | refine Keeps.ofNext ?_
    | split
    | dsimp +zetaDelta only

theorem execCeq_keeps (l : Lane) (o : WordOp) (s : State) : ∃ u, execCeq l o s = .next u ∧ s.Keeps u := by
  unfold execCeq
  repeat' first
    | with_reducible assumption
    | extract_lets
    | intro _
    | with_reducible apply State.wordOp_keeps
    | refine Keeps.ofNext ?_
    | split
    | dsimp +zetaDelta only

theorem execCne_keeps (l : Lane) (o : WordOp) (s : State) : ∃ u, execCne l o s = .next u ∧ s.Keeps u := by
  unfold execCne
  repeat' first
    | with_reducible assumption
    | extract_lets
    | intro _
    | with_reducible apply State.wordOp_keeps
    | refine Keeps.ofNext ?_
    | split
    | dsimp +zetaDelta only

theorem execCgt_keeps (l : Lane) (o : WordOp) (s : State) : ∃ u, execCgt l o s = .next u ∧ s.Keeps u := by
  unfold execCgt
  repeat' first
    | with_reducible assumption
    | extract_lets
    | intro _
    | with_reducible apply State.wordOp_keeps
    | refine Keeps.ofNext ?_
    | split
    | dsimp +zetaDelta only

theorem execCge_keeps (l : Lane) (o : WordOp) (s : State) : ∃ u, execCge l o s = .next u ∧ s.Keeps u := by
  unfold execCge
  repeat' first
    | with_reducible assumption
    | extract_lets
    | intro _
    | with_reducible apply State.wordOp_keeps
    | refine Keeps.ofNext ?_
    | split
    | dsimp +zetaDelta only

theorem execClt_keeps (l : Lane) (o : WordOp) (s : State) : ∃ u, execClt l o s = .next u ∧ s.Keeps u := by
  unfold execClt
  repeat' first
    | with_reducible assumption
    | extract_lets
    | intro _
    | with_reducible apply State.wordOp_keeps
    | refine Keeps.ofNext ?_
    | split
    | dsimp +zetaDelta only

theorem execCle_keeps (l : Lane) (o : WordOp) (s : State) : ∃ u, execCle l o s = .next u ∧ s.Keeps u := by
  unfold execCle
  repeat' first
    | with_reducible assumption
    | extract_lets
    | intro _
    | with_reducible apply State.wordOp_keeps
    | refine Keeps.ofNext ?_
    | split
    | dsimp +zetaDelta only

theorem execShl_keeps (l : Lane) (o : WordOp) (s : State) : ∃ u, execShl l o s = .next u ∧ s.Keeps u := by
  unfold execShl
  repeat' first
    | with_reducible assumption
    | extract_lets
    | intro _
    | with_reducible apply State.wordOp_keeps
    | refine Keeps.ofNext ?_
    | split
    | dsimp +zetaDelta only

theorem execShr_keeps (l : Lane) (o : WordOp) (s : State) : ∃ u, execShr l o s = .next u ∧ s.Keeps u := by
  unfold execShr
  repeat' first
    | with_reducible assumption
    | extract_lets
    | intro _
    | with_reducible apply State.wordOp_keeps
    | refine Keeps.ofNext ?_
    | split
    | dsimp +zetaDelta only

theorem execSar_keeps (l : Lane) (o : WordOp) (s : State) : ∃ u, execSar l o s = .next u ∧ s.Keeps u := by
  unfold execSar
  repeat' first
    | with_reducible assumption
    | extract_lets
    | intro _
    | with_reducible apply State.wordOp_keeps
    | refine Keeps.ofNext ?_
    | split
    | dsimp +zetaDelta only

theorem execRol_keeps (l : Lane) (o : WordOp) (s : State) : ∃ u, execRol l o s = .next u ∧ s.Keeps u := by
  unfold execRol
  repeat' first
    | with_reducible assumption
    | extract_lets
    | intro _
    | with_reducible apply State.wordOp_keeps
    | refine Keeps.ofNext ?_
    | split
    | dsimp +zetaDelta only

theorem execMin_keeps (l : Lane) (o : WordOp) (s : State) : ∃ u, execMin l o s = .next u ∧ s.Keeps u := by
  unfold execMin
  repeat' first
    | with_reducible assumption
    | extract_lets
    | intro _
    | with_reducible apply State.wordOp_keeps
    | refine Keeps.ofNext ?_
    | split
    | dsimp +zetaDelta only

theorem execMax_keeps (l : Lane) (o : WordOp) (s : State) : ∃ u, execMax l o s = .next u ∧ s.Keeps u := by
  unfold execMax
  repeat' first
    | with_reducible assumption
    | extract_lets
    | intro _
    | with_reducible apply State.wordOp_keeps
    | refine Keeps.ofNext ?_
    | split
    | dsimp +zetaDelta only

theorem execLimit_keeps (l : Lane) (o : WordOp) (s : State) : ∃ u, execLimit l o s = .next u ∧ s.Keeps u := by
  unfold execLimit
  repeat' first
    | with_reducible assumption
    | extract_lets
    | intro _
    | with_reducible apply State.wordOp_keeps
    | refine Keeps.ofNext ?_
    | split
    | dsimp +zetaDelta only

theorem execSel_keeps (l : Lane) (o : WordOp) (s : State) : ∃ u, execSel l o s = .next u ∧ s.Keeps u := by
  unfold execSel
  repeat' first
    | with_reducible assumption
    | extract_lets
    | intro _
    | with_reducible apply State.wordOp_keeps
    | with_reducible apply Keeps.ite
    | refine Keeps.ofNext ?_
    | split
    | dsimp +zetaDelta only

theorem execLdx_keeps (l : Lane) (r : WordRef) (s : State) : ∃ u, execLdx l r s = .next u ∧ s.Keeps u := by
  unfold execLdx
  repeat' first
    | with_reducible assumption
    | extract_lets
    | intro _
    | with_reducible apply State.scanTrip_keeps
    | with_reducible apply State.scan_keeps
    | with_reducible apply Keeps.setCtx
    | with_reducible apply Keeps.ite
    | refine Keeps.ofNext ?_
    | split
    | dsimp +zetaDelta only

theorem execStx_keeps (l : Lane) (r : WordRef) (s : State) : ∃ u, execStx l r s = .next u ∧ s.Keeps u := by
  unfold execStx
  repeat' first
    | with_reducible assumption
    | extract_lets
    | intro _
    | with_reducible apply State.scanTrip_keeps
    | with_reducible apply State.scan_keeps
    | with_reducible apply Keeps.setWord
    | with_reducible apply Keeps.setCtx
    | with_reducible apply Keeps.ite
    | refine Keeps.ofNext ?_
    | split
    | dsimp +zetaDelta only

theorem execLdf_keeps (l : Lane) (f : FlagSel) (clear : Bool) (s : State) : ∃ u, execLdf l f clear s = .next u ∧ s.Keeps u := by
  unfold execLdf
  repeat' first
    | with_reducible assumption
    | extract_lets
    | intro _
    | with_reducible apply State.scanCtx_keeps
    | with_reducible apply Keeps.ite
    | refine Keeps.ofNext ?_
    | split
    | dsimp +zetaDelta only

theorem execLdh_keeps (l : Lane) (v : BitVec 16) (s : State) : ∃ u, execLdh l v s = .next u ∧ s.Keeps u := by
  unfold execLdh
  repeat' first
    | with_reducible assumption
    | extract_lets
    | intro _
    | with_reducible apply State.scanCtx_keeps
    | refine Keeps.ofNext ?_
    | split
    | dsimp +zetaDelta only

end Sys2Proof.Machine
end

