-- ==== Sys2Proof/Laws/KeepsScanRun.lean ====
section
/-! SUPPORT. What the operations and commands of Machine/ScanRun.lean keep. -/

namespace Sys2Proof.Machine
open Reg Hid

theorem execScan_keeps (i : Instr) (s : State) : ∃ u, execScan i s = .next u ∧ s.Keeps u := by
  cases i with
  | nop l => exact execNop_keeps l s
  | notBit l => exact execNotBit_keeps l s
  | close l => exact execClose_keeps l s
  | wopAnd l => exact execWopAnd_keeps l s
  | wopOr l => exact execWopOr_keeps l s
  | wopXor l => exact execWopXor_keeps l s
  | inv l => exact execInv_keeps l s
  | neg l => exact execNeg_keeps l s
  | abs l => exact execAbs_keeps l s
  | mod l => exact execMod_keeps l s
  | swap l => exact execSwap_keeps l s
  | tob l => exact execTob_keeps l s
  | fromb l => exact execFromb_keeps l s
  | btst l => exact execBtst_keeps l s
  | btow l => exact execBtow_keeps l s
  | ret l => exact execRet_keeps l s
  | retc l => exact execRetc_keeps l s
  | lanes l => exact execLanes_keeps l s
  | sync l => exact execSync_keeps l s
  | lease l => exact execLease_keeps l s
  | lane l => exact execLane_keeps l s
  | period l => exact execPeriod_keeps l s
  | first l => exact execFirst_keeps l s
  | power l => exact execPower_keeps l s
  | furlong l => exact execFurlong_keeps l s
  | endScan l => exact execEndScan_keeps l s
  | ld l x => exact execLd_keeps l x s
  | ldn l x => exact execLdn_keeps l x s
  | andBit l x => exact execAndBit_keeps l x s
  | andn l x => exact execAndn_keeps l x s
  | orBit l x => exact execOrBit_keeps l x s
  | orn l x => exact execOrn_keeps l x s
  | xorBit l x => exact execXorBit_keeps l x s
  | st l x => exact execSt_keeps l x s
  | stn l x => exact execStn_keeps l x s
  | set l x => exact execSet_keeps l x s
  | rst l x => exact execRst_keeps l x s
  | andOpen l x => exact execAndOpen_keeps l x s
  | orOpen l x => exact execOrOpen_keeps l x s
  | xorOpen l x => exact execXorOpen_keeps l x s
  | edgr l x => exact execEdgr_keeps l x s
  | edgf l x => exact execEdgf_keeps l x s
  | ldw l x => exact execLdw_keeps l x s
  | stw l x => exact execStw_keeps l x s
  | ldwb l x => exact execLdwb_keeps l x s
  | add l x => exact execAdd_keeps l x s
  | sub l x => exact execSub_keeps l x s
  | mul l x => exact execMul_keeps l x s
  | div l x => exact execDiv_keeps l x s
  | ceq l x => exact execCeq_keeps l x s
  | cne l x => exact execCne_keeps l x s
  | cgt l x => exact execCgt_keeps l x s
  | cge l x => exact execCge_keeps l x s
  | clt l x => exact execClt_keeps l x s
  | cle l x => exact execCle_keeps l x s
  | shl l x => exact execShl_keeps l x s
  | shr l x => exact execShr_keeps l x s
  | sar l x => exact execSar_keeps l x s
  | rol l x => exact execRol_keeps l x s
  | min l x => exact execMin_keeps l x s
  | max l x => exact execMax_keeps l x s
  | limit l x => exact execLimit_keeps l x s
  | sel l x => exact execSel_keeps l x s
  | ldx l x => exact execLdx_keeps l x s
  | stx l x => exact execStx_keeps l x s
  | jmp l x => exact execJmp_keeps l x s
  | jmpc l x => exact execJmpc_keeps l x s
  | jmpcn l x => exact execJmpcn_keeps l x s
  | call l x => exact execCall_keeps l x s
  | callc l x => exact execCallc_keeps l x s
  | callcn l x => exact execCallcn_keeps l x s
  | ton l x => exact execTon_keeps l x s
  | tof l x => exact execTof_keeps l x s
  | tp l x => exact execTp_keeps l x s
  | receiveAge l x => exact execReceiveAge_keeps l x s
  | senderAge l x => exact execSenderAge_keeps l x s
  | stale l x => exact execStale_keeps l x s
  | repeatFlag l x => exact execRepeatFlag_keeps l x s
  | ldh l x => exact execLdh_keeps l x s
  | ldf l x y => exact execLdf_keeps l x y s
  | cu l x y => exact execCu_keeps l x y s
  | cd l x y => exact execCd_keeps l x y s
  | counterR l x y => exact execCounterR_keeps l x y s
  | counterLd l x y => exact execCounterLd_keeps l x y s
  | qd l x y => exact execQd_keeps l x y s
  | eval l x y => exact execEval_keeps l x y s
  | _ => exact ⟨s, rfl, Keeps.refl s⟩

theorem State.runScan_keeps {s₀ : State} {s : State} {i : Instr} (hk : s₀.Keeps s) : s₀.Keeps (s.runScan i) := by
  obtain ⟨u, hu, hs⟩ := execScan_keeps i s
  unfold State.runScan
  rw [hu]
  exact Keeps.trans hk hs

theorem State.stepWord_keeps {s₀ : State} {s : State} {l : Lane} (hk : s₀.Keeps s) : s₀.Keeps (State.stepWord s l) := by
  unfold State.stepWord
  repeat' first
    | with_reducible assumption
    | extract_lets
    | intro _
    | with_reducible apply State.illegal_keeps
    | with_reducible apply State.runScan_keeps
    | split
    | dsimp +zetaDelta only

theorem execIllegalWord_keeps (l : Lane) (w : Word) (s : State) : ∃ u, execIllegalWord l w s = .next u ∧ s.Keeps u := by
  unfold execIllegalWord
  repeat' first
    | with_reducible assumption
    | extract_lets
    | intro _
    | with_reducible apply State.illegal_keeps
    | with_reducible apply Keeps.ite
    | refine Keeps.ofNext ?_
    | split
    | dsimp +zetaDelta only

end Sys2Proof.Machine
end

