-- ==== Sys2Proof/Laws/KeepsUpdCmd.lean ====
section
/-! SUPPORT. What the operations and commands of Machine/UpdCmd.lean keep. -/

namespace Sys2Proof.Machine
open Reg Hid

theorem State.updDone_keeps {s₀ : State} {s : State} {result : Nat} (hk : s₀.Keeps s) : s₀.Keeps (State.updDone s result).st := by
  unfold State.updDone
  repeat' first
    | with_reducible assumption
    | extract_lets
    | intro _
    | with_reducible apply Keeps.set
    | split
    | dsimp +zetaDelta only

theorem State.updRefuse_keeps {s₀ : State} {s : State} {src op reason : Nat} (hk : s₀.Keeps s) : s₀.Keeps (State.updRefuse s src op reason).st := by
  unfold State.updRefuse
  repeat' first
    | with_reducible assumption
    | extract_lets
    | intro _
    | with_reducible apply State.ev_keeps
    | with_reducible apply Keeps.set
    | with_reducible apply Keeps.raise
    | split
    | dsimp +zetaDelta only

theorem State.updCheck_keeps {s₀ s : State} {src op : Nat} {reasons : List (Bool × Nat)} {f : State → UpdAns}
    (hk : s₀.Keeps s) (hf : ∀ s, s₀.Keeps s → s₀.Keeps (f s).st) : s₀.Keeps (s.updCheck src op reasons f).st := by
  unfold State.updCheck
  split
  · exact State.updRefuse_keeps hk
  · exact hf _ hk

theorem State.closeKind_keeps {s₀ : State} {s : State} {k : Nat} (hk : s₀.Keeps s) : s₀.Keeps (State.closeKind s k) := by
  unfold State.closeKind
  repeat' first
    | with_reducible assumption
    | extract_lets
    | intro _
    | with_reducible apply Keeps.set
    | split
    | dsimp +zetaDelta only

theorem State.updOpen_keeps {s₀ : State} {s : State} {src k : Nat} (hk : s₀.Keeps s) : s₀.Keeps (State.updOpen s src k).st := by
  unfold State.updOpen
  repeat' first
    | with_reducible assumption
    | extract_lets
    | intro _
    | with_reducible apply State.updRefuse_keeps
    | with_reducible apply State.ev_keeps
    | with_reducible apply State.updCheck_keeps
    | with_reducible apply State.replay_keeps
    | with_reducible apply State.closeKind_keeps
    | with_reducible apply State.updDone_keeps
    | with_reducible apply Keeps.raise
    | with_reducible apply Keeps.set
    | with_reducible apply Keeps.ite
    | split
    | dsimp +zetaDelta only

theorem State.writeChunk_keeps {s₀ : State} {s : State} {k off : Nat} {data : List Byte} (hk : s₀.Keeps s) : s₀.Keeps (State.writeChunk s k off data) := by
  unfold State.writeChunk
  repeat' first
    | with_reducible assumption
    | extract_lets
    | intro _
    | with_reducible apply State.saveBlock_keeps
    | with_reducible apply State.setJournal_keeps
    | with_reducible apply Keeps.each
    | with_reducible apply Keeps.set
    | with_reducible apply Keeps.setBytes
    | with_reducible apply Keeps.ite
    | split
    | dsimp +zetaDelta only

theorem State.updWrite_keeps {s₀ : State} {s : State} {src off : Nat} {data : List Byte} (hk : s₀.Keeps s) : s₀.Keeps (State.updWrite s src off data).st := by
  unfold State.updWrite
  repeat' first
    | with_reducible assumption
    | extract_lets
    | intro _
    | with_reducible apply State.updCheck_keeps
    | with_reducible apply State.writeChunk_keeps
    | with_reducible apply State.updDone_keeps
    | with_reducible apply Keeps.ite
    | split
    | dsimp +zetaDelta only

theorem State.verifyKind_keeps {s₀ : State} {s : State} {k : Nat} (hk : s₀.Keeps s) : s₀.Keeps (State.verifyKind s k) := by
  unfold State.verifyKind
  repeat' first
    | with_reducible assumption
    | extract_lets
    | intro _
    | with_reducible apply State.closeKind_keeps
    | with_reducible apply State.ev_keeps
    | with_reducible apply State.replay_keeps
    | with_reducible apply Keeps.set
    | with_reducible apply Keeps.raise
    | with_reducible apply Keeps.ite
    | split
    | dsimp +zetaDelta only

theorem State.updVerify_keeps {s₀ : State} {s : State} {src : Nat} (hk : s₀.Keeps s) : s₀.Keeps (State.updVerify s src).st := by
  unfold State.updVerify
  repeat' first
    | with_reducible assumption
    | extract_lets
    | intro _
    | with_reducible apply State.updCheck_keeps
    | with_reducible apply State.verifyKind_keeps
    | with_reducible apply State.setJournal_keeps
    | with_reducible apply State.updRefuse_keeps
    | with_reducible apply State.updDone_keeps
    | with_reducible apply Keeps.each
    | with_reducible apply Keeps.ite
    | split
    | dsimp +zetaDelta only

theorem State.enrol_keeps {s₀ : State} {s : State} (hk : s₀.Keeps s) : s₀.Keeps (State.enrol s) := by
  unfold State.enrol
  repeat' first
    | with_reducible assumption
    | extract_lets
    | intro _
    | with_reducible apply State.ev_keeps
    | with_reducible apply State.showKeys_keeps
    | with_reducible apply State.writeFloors_keeps
    | with_reducible apply Keeps.setBytes
    | with_reducible apply Keeps.zero
    | with_reducible apply Keeps.ite
    | split
    | dsimp +zetaDelta only

theorem State.beginPause_keeps {s₀ : State} {s : State} {src m : Nat} (hk : s₀.Keeps s) : s₀.Keeps (State.beginPause s src m) := by
  unfold State.beginPause
  repeat' first
    | with_reducible assumption
    | extract_lets
    | intro _
    | with_reducible apply State.setJournal_keeps
    | with_reducible apply Keeps.each
    | with_reducible apply Keeps.set
    | with_reducible apply Keeps.put
    | with_reducible apply Keeps.ite
    | split
    | dsimp +zetaDelta only

theorem State.updActivate_keeps {s₀ : State} {s : State} {src : Nat} (hk : s₀.Keeps s) : s₀.Keeps (State.updActivate s src).st := by
  unfold State.updActivate
  repeat' first
    | with_reducible assumption
    | extract_lets
    | intro _
    | with_reducible apply State.updCheck_keeps
    | with_reducible apply State.enrol_keeps
    | with_reducible apply State.ev_keeps
    | with_reducible apply State.beginPause_keeps
    | with_reducible apply State.closeKinds_keeps
    | with_reducible apply State.updDone_keeps
    | with_reducible apply Keeps.ite
    | split
    | dsimp +zetaDelta only

theorem State.updApply_keeps {s₀ : State} {s : State} {src : Nat} (hk : s₀.Keeps s) : s₀.Keeps (State.updApply s src).st := by
  unfold State.updApply
  repeat' first
    | with_reducible assumption
    | extract_lets
    | intro _
    | with_reducible apply State.updCheck_keeps
    | with_reducible apply State.updRefuse_keeps
    | with_reducible apply State.updDone_keeps
    | with_reducible apply Keeps.raise
    | with_reducible apply Keeps.set
    | with_reducible apply Keeps.restore
    | with_reducible apply Keeps.ite
    | split
    | with_reducible apply Keeps.rest
    | dsimp +zetaDelta only

theorem State.updClose_keeps {s₀ : State} {s : State} {src : Nat} (hk : s₀.Keeps s) : s₀.Keeps (State.updClose s src).st := by
  unfold State.updClose
  repeat' first
    | with_reducible assumption
    | extract_lets
    | intro _
    | with_reducible apply State.updCheck_keeps
    | with_reducible apply State.release_keeps
    | split
    | dsimp +zetaDelta only

theorem State.updCmd_keeps {s₀ : State} {s : State} {src op p0 off : Nat} {data : List Byte} (hk : s₀.Keeps s) : s₀.Keeps (State.updCmd s src op p0 off data).st := by
  unfold State.updCmd
  repeat' first
    | with_reducible assumption
    | extract_lets
    | intro _
    | with_reducible apply State.updOpen_keeps
    | with_reducible apply State.updWrite_keeps
    | with_reducible apply State.updVerify_keeps
    | with_reducible apply State.updActivate_keeps
    | with_reducible apply State.updApply_keeps
    | with_reducible apply State.updClose_keeps
    | with_reducible apply Keeps.ite
    | split
    | dsimp +zetaDelta only

end Sys2Proof.Machine
end

