-- ==== Sys2Proof/Laws/KeepsUpdRun.lean ====
section
/-! SUPPORT. What the operations and commands of Machine/UpdRun.lean keep. -/

namespace Sys2Proof.Machine
open Reg Hid

theorem State.loadLogic_keeps {s₀ : State} {s : State} (hk : s₀.Keeps s) : s₀.Keeps (State.loadLogic s) := by
  unfold State.loadLogic
  repeat' first
    | with_reducible assumption
    | extract_lets
    | intro _
    | with_reducible apply State.freshInstances_keeps
    | with_reducible apply State.loadProgram_keeps
    | with_reducible apply State.showImage_keeps
    | with_reducible apply Keeps.each
    | with_reducible apply Keeps.ite
    | split
    | with_reducible apply Keeps.rest
    | dsimp +zetaDelta only

theorem State.loadConfig_keeps {s₀ : State} {s : State} (hk : s₀.Keeps s) : s₀.Keeps (State.loadConfig s) := by
  unfold State.loadConfig
  repeat' first
    | with_reducible assumption
    | extract_lets
    | intro _
    | with_reducible apply State.applyConfig_keeps
    | with_reducible apply Keeps.set
    | with_reducible apply Keeps.ite
    | split
    | dsimp +zetaDelta only

theorem State.updUndo_keeps {s₀ : State} {s : State} {cause : Nat} (hk : s₀.Keeps s) : s₀.Keeps (State.updUndo s cause) := by
  unfold State.updUndo
  repeat' first
    | with_reducible assumption
    | extract_lets
    | intro _
    | with_reducible apply State.ev_keeps
    | with_reducible apply State.replay_keeps
    | with_reducible apply State.setJournal_keeps
    | with_reducible apply Keeps.each
    | with_reducible apply Keeps.set
    | with_reducible apply Keeps.put
    | with_reducible apply Keeps.raise
    | with_reducible apply Keeps.free
    | with_reducible apply Keeps.ite
    | split
    | dsimp +zetaDelta only

theorem State.fallbackNow_keeps {s₀ : State} {s : State} {cause : Nat} (hk : s₀.Keeps s) : s₀.Keeps (State.fallbackNow s cause) := by
  unfold State.fallbackNow
  repeat' first
    | with_reducible assumption
    | extract_lets
    | intro _
    | with_reducible apply State.abandonScan_keeps
    | with_reducible apply State.chooseRestart_keeps
    | with_reducible apply State.loadConfig_keeps
    | with_reducible apply State.loadLogic_keeps
    | with_reducible apply State.loadWindow_keeps
    | with_reducible apply State.showImages_keeps
    | with_reducible apply State.updUndo_keeps
    | with_reducible apply Keeps.each
    | with_reducible apply Keeps.set
    | with_reducible apply Keeps.ite
    | split
    | dsimp +zetaDelta only

theorem State.updFallback_keeps {s₀ : State} {s : State} {cause : Nat} (hk : s₀.Keeps s) : s₀.Keeps (State.updFallback s cause) := by
  unfold State.updFallback
  repeat' first
    | with_reducible assumption
    | extract_lets
    | intro _
    | with_reducible apply State.enterStop_keeps
    | with_reducible apply State.fallbackNow_keeps
    | with_reducible apply State.olcAbort_keeps
    | with_reducible apply State.settle_keeps
    | with_reducible apply Keeps.set
    | with_reducible apply Keeps.free
    | with_reducible apply Keeps.ite
    | split
    | dsimp +zetaDelta only

theorem execFirmwareSelfTest_keeps (ok : Bool) (s : State) : ∃ u, execFirmwareSelfTest ok s = .next u ∧ s.Keeps u := by
  unfold execFirmwareSelfTest
  repeat' first
    | with_reducible assumption
    | extract_lets
    | intro _
    | with_reducible apply State.updFallback_keeps
    | with_reducible apply Keeps.set
    | with_reducible apply Keeps.ite
    | refine Keeps.ofOccurs ?_
    | split
    | dsimp +zetaDelta only

theorem execActivationPauseEnd_keeps (ok : Bool) (s : State) : ∃ u, execActivationPauseEnd ok s = .next u ∧ s.Keeps u := by
  unfold execActivationPauseEnd
  repeat' first
    | with_reducible assumption
    | extract_lets
    | intro _
    | with_reducible apply State.beginProbation_keeps
    | with_reducible apply State.chooseRestart_keeps
    | with_reducible apply State.ev_keeps
    | with_reducible apply State.loadWindow_keeps
    | with_reducible apply State.showImages_keeps
    | with_reducible apply State.updFallback_keeps
    | with_reducible apply Keeps.set
    | with_reducible apply Keeps.ite
    | refine Keeps.ofOccurs ?_
    | split
    | dsimp +zetaDelta only

theorem execConfirmWindowExpiry_keeps (s : State) : ∃ u, execConfirmWindowExpiry s = .next u ∧ s.Keeps u := by
  unfold execConfirmWindowExpiry
  repeat' first
    | with_reducible assumption
    | extract_lets
    | intro _
    | with_reducible apply State.updFallback_keeps
    | refine Keeps.ofOccurs ?_
    | split
    | dsimp +zetaDelta only

theorem State.updConfirm_keeps {s₀ : State} {s : State} (hk : s₀.Keeps s) : s₀.Keeps (State.updConfirm s) := by
  unfold State.updConfirm
  repeat' first
    | with_reducible assumption
    | extract_lets
    | intro _
    | with_reducible apply State.ev_keeps
    | with_reducible apply State.raiseFloor_keeps
    | with_reducible apply State.setJournal_keeps
    | with_reducible apply Keeps.each
    | with_reducible apply Keeps.set
    | with_reducible apply Keeps.raise
    | with_reducible apply Keeps.zero
    | split
    | dsimp +zetaDelta only

theorem State.confirmAt_keeps {s₀ : State} {s : State} {t : Nat} (hk : s₀.Keeps s) : s₀.Keeps (State.confirmAt s t) := by
  unfold State.confirmAt
  repeat' first
    | with_reducible assumption
    | extract_lets
    | intro _
    | with_reducible apply State.updConfirm_keeps
    | with_reducible apply Keeps.ite
    | split
    | dsimp +zetaDelta only

end Sys2Proof.Machine
end

