-- ==== Sys2Proof/Laws/KeepsInputOps.lean ====
section
/-! SUPPORT. What the operations and commands of Machine/InputOps.lean keep. -/

namespace Sys2Proof.Machine
open Reg Hid

theorem State.latchLane_keeps {s₀ : State} {s : State} {diff : List (Lane × Nat × Nat)} {xs : List Src} {l : Lane} (hk : s₀.Keeps s) : s₀.Keeps (State.latchLane s diff xs l) := by
  unfold State.latchLane
  repeat' first
    | with_reducible assumption
    | extract_lets
    | intro _
    | with_reducible apply Keeps.each
    | with_reducible apply Keeps.set
    | with_reducible apply Keeps.setWords
    | with_reducible apply Keeps.ite
    | split
    | dsimp +zetaDelta only

theorem State.phaseEvents_keeps {s₀ : State} {s : State} {t : Nat} (hk : s₀.Keeps s) : s₀.Keeps (State.phaseEvents s t) := by
  unfold State.phaseEvents
  repeat' first
    | with_reducible assumption
    | extract_lets
    | intro _
    | with_reducible apply State.ev_keeps
    | with_reducible apply Keeps.each
    | with_reducible apply Keeps.set
    | with_reducible apply Keeps.raise
    | with_reducible apply Keeps.ite
    | split
    | dsimp +zetaDelta only

theorem State.checkCan_keeps {s₀ : State} {s : State} {t : Nat} (hk : s₀.Keeps s) : s₀.Keeps (State.checkCan s t) := by
  unfold State.checkCan
  repeat' first
    | with_reducible assumption
    | extract_lets
    | intro _
    | with_reducible apply State.objectFailure_keeps
    | with_reducible apply Keeps.each
    | with_reducible apply Keeps.ite
    | split
    | dsimp +zetaDelta only

theorem State.checkFlows_keeps {s₀ : State} {s : State} {t : Nat} (hk : s₀.Keeps s) : s₀.Keeps (State.checkFlows s t) := by
  unfold State.checkFlows
  repeat' first
    | with_reducible assumption
    | extract_lets
    | intro _
    | with_reducible apply State.ctxCheck_keeps
    | with_reducible apply Keeps.each
    | split
    | dsimp +zetaDelta only

theorem State.padReadback_keeps {s₀ : State} {s : State} {diff : List (Lane × Nat × Nat)} {t : Nat} (hk : s₀.Keeps s) : s₀.Keeps (State.padReadback s diff t) := by
  unfold State.padReadback
  repeat' first
    | with_reducible assumption
    | extract_lets
    | intro _
    | with_reducible apply State.ev_keeps
    | with_reducible apply Keeps.each
    | with_reducible apply Keeps.put
    | with_reducible apply Keeps.raise
    | with_reducible apply Keeps.ite
    | split
    | dsimp +zetaDelta only

theorem State.latchFlows_keeps {s₀ : State} {s : State} {t : Nat} (hk : s₀.Keeps s) : s₀.Keeps (State.latchFlows s t) := by
  unfold State.latchFlows
  repeat' first
    | with_reducible assumption
    | extract_lets
    | intro _
    | with_reducible apply Keeps.each
    | with_reducible apply Keeps.setFlowSeen
    | split
    | dsimp +zetaDelta only

end Sys2Proof.Machine
end

