-- ==== Sys2Proof/Laws/KeepsAgreeOps.lean ====
section
/-! SUPPORT. What the operations and commands of Machine/AgreeOps.lean keep. -/

namespace Sys2Proof.Machine
open Reg Hid

theorem State.srcParam_keeps {s₀ : State} {s : State} {x : Src} (hk : s₀.Keeps s) : s₀.Keeps (State.srcParam s x).2 := by
  unfold State.srcParam
  repeat' first
    | with_reducible assumption
    | extract_lets
    | intro _
    | with_reducible apply Keeps.free
    | with_reducible apply Keeps.ite
    | split
    | dsimp +zetaDelta only

theorem State.minorityCopy_keeps {s₀ : State} {s : State} {l : Lane} {blamed : Nat} (hk : s₀.Keeps s) : s₀.Keeps (State.minorityCopy s l blamed) := by
  unfold State.minorityCopy
  repeat' first
    | with_reducible assumption
    | extract_lets
    | intro _
    | with_reducible apply State.ev_keeps
    | with_reducible apply Keeps.raise
    | split
    | dsimp +zetaDelta only

theorem State.sharedFaults_keeps {s₀ : State} {s : State} {t : Nat} {a : Agreed} {n : Nat} {f : Found} (hk : s₀.Keeps s) : s₀.Keeps (State.sharedFaults s t a n f).1 := by
  unfold State.sharedFaults
  repeat' first
    | with_reducible assumption
    | extract_lets
    | intro _
    | with_reducible apply State.minorityCopy_keeps
    | with_reducible apply State.minority_keeps
    | with_reducible apply State.noMajority_keeps
    | with_reducible apply Keeps.each
    | with_reducible apply Keeps.ite
    | split
    | with_reducible apply Keeps.rest
    | dsimp +zetaDelta only

theorem State.countRuns_keeps {s₀ : State} {s : State} {t : Nat} {x : Src} {ls dissent : List Lane} (hk : s₀.Keeps s) : s₀.Keeps (State.countRuns s t x ls dissent) := by
  unfold State.countRuns
  repeat' first
    | with_reducible assumption
    | extract_lets
    | intro _
    | with_reducible apply State.srcParam_keeps
    | with_reducible apply Keeps.each
    | with_reducible apply Keeps.set
    | with_reducible apply Keeps.inc
    | with_reducible apply Keeps.setRun
    | with_reducible apply Keeps.ite
    | split
    | dsimp +zetaDelta only

theorem State.checkRuns_keeps {s₀ : State} {s : State} {t : Nat} {x : Src} {ls : List Lane} {f : Found} (hk : s₀.Keeps s) :
    s₀.Keeps (State.checkRuns s t x ls f).1 := by
  have hy := State.srcParam_keeps (x := x) hk
  unfold State.checkRuns
  generalize List.filter _ ls = tooMany
  rcases tooMany with _ | ⟨l, r⟩
  · exact hk
  · exact Keeps.ite1 (Keeps.setRun (State.ev_keeps (Keeps.set hy)))
      (Keeps.set (Keeps.each (State.ev_keeps (Keeps.raise hy)) fun s m h => Keeps.setRun h))

theorem State.dissentOf_keeps {s₀ : State} {s : State} {t : Nat} {x : Src} {ls : List Lane} {a : Agreed} {f : Found} (hk : s₀.Keeps s) : s₀.Keeps (State.dissentOf s t x ls a f).1 := by
  unfold State.dissentOf
  repeat' first
    | with_reducible assumption
    | extract_lets
    | intro _
    | with_reducible apply State.countRuns_keeps
    | with_reducible apply State.checkRuns_keeps
    | with_reducible apply Keeps.set
    | with_reducible apply Keeps.ite
    | split
    | dsimp +zetaDelta only

theorem State.showAgreed_keeps {s₀ : State} {s : State} {c : Nat} {ws : List Word} (hk : s₀.Keeps s) : s₀.Keeps (State.showAgreed s c ws) := by
  unfold State.showAgreed
  repeat' first
    | with_reducible assumption
    | extract_lets
    | intro _
    | with_reducible apply State.ev_keeps
    | with_reducible apply Keeps.set
    | with_reducible apply Keeps.put
    | with_reducible apply Keeps.raise
    | with_reducible apply Keeps.ite
    | split
    | dsimp +zetaDelta only

theorem State.holdWords_keeps {s₀ : State} {s : State} {x : Src} {ws : Option (List Word)} (hk : s₀.Keeps s) : s₀.Keeps (State.holdWords s x ws) := by
  unfold State.holdWords
  repeat' first
    | with_reducible assumption
    | extract_lets
    | intro _
    | with_reducible apply State.showAgreed_keeps
    | with_reducible apply Keeps.setWords
    | with_reducible apply Keeps.setSys
    | with_reducible apply Keeps.setFlowSeen
    | split
    | dsimp +zetaDelta only

theorem State.notReceived_keeps {s₀ : State} {s : State} {x : Src} {a : Agreed} (hk : s₀.Keeps s) : s₀.Keeps (State.notReceived s x a) := by
  unfold State.notReceived
  repeat' first
    | with_reducible assumption
    | extract_lets
    | intro _
    | with_reducible apply State.setAge_keeps
    | with_reducible apply Keeps.ite
    | split
    | dsimp +zetaDelta only

theorem State.agreeSrc_keeps {s₀ : State} {t : Nat} {ls : List Lane} {p : State × Found} {x : Src} (hk : s₀.Keeps p.1) : s₀.Keeps (State.agreeSrc t ls p x).1 := by
  unfold State.agreeSrc
  repeat' first
    | with_reducible assumption
    | extract_lets
    | intro _
    | with_reducible apply State.notReceived_keeps
    | with_reducible apply State.sharedFaults_keeps
    | with_reducible apply State.holdWords_keeps
    | with_reducible apply State.dissentOf_keeps
    | with_reducible apply Keeps.ite
    | split
    | dsimp +zetaDelta only

theorem State.impAge_keeps {s₀ : State} {s : State} {t i age : Nat} (hk : s₀.Keeps s) : s₀.Keeps (State.impAge s t i age) := by
  unfold State.impAge
  repeat' first
    | with_reducible assumption
    | extract_lets
    | intro _
    | with_reducible apply State.ev_keeps
    | with_reducible apply Keeps.set
    | with_reducible apply Keeps.put
    | with_reducible apply Keeps.inc
    | with_reducible apply Keeps.raise
    | with_reducible apply Keeps.ite
    | split
    | dsimp +zetaDelta only

theorem State.agreeImp_keeps {s₀ : State} {t : Nat} {ls : List Lane} {p : State × Found} {i : Nat} (hk : s₀.Keeps p.1) : s₀.Keeps (State.agreeImp t ls p i).1 := by
  unfold State.agreeImp
  repeat' first
    | with_reducible assumption
    | extract_lets
    | intro _
    | with_reducible apply State.impAge_keeps
    | with_reducible apply State.dissentOf_keeps
    | with_reducible apply State.holdWords_keeps
    | with_reducible apply State.ev_keeps
    | with_reducible apply Keeps.setBytes
    | with_reducible apply Keeps.inc
    | with_reducible apply Keeps.raise
    | with_reducible apply Keeps.ite
    | split
    | dsimp +zetaDelta only

theorem State.settleFound_keeps {s₀ : State} {s : State} {t : Nat} {f : Found} (hk : s₀.Keeps s) : s₀.Keeps (State.settleFound s t f) := by
  unfold State.settleFound
  repeat' first
    | with_reducible assumption
    | extract_lets
    | intro _
    | with_reducible apply State.enterSafe_keeps
    | with_reducible apply State.noMajority_keeps
    | with_reducible apply State.trigger_keeps
    | with_reducible apply Keeps.ite
    | split
    | dsimp +zetaDelta only

theorem State.bufferFaults_keeps {s₀ : State} {s : State} {t kind n : Nat} {bad : List Lane} {f : Found} (hk : s₀.Keeps s) : s₀.Keeps (State.bufferFaults s t kind n bad f).1 := by
  unfold State.bufferFaults
  repeat' first
    | with_reducible assumption
    | extract_lets
    | intro _
    | with_reducible apply State.ev_keeps
    | with_reducible apply State.noMajority_keeps
    | with_reducible apply Keeps.each
    | with_reducible apply Keeps.raise
    | with_reducible apply Keeps.ite
    | split
    | dsimp +zetaDelta only

end Sys2Proof.Machine
end

