-- ==== Sys2Proof/Laws/KeepsRecorder.lean ====
section
/-! SUPPORT. What the operations and commands of Machine/Recorder.lean keep. -/

namespace Sys2Proof.Machine
open Reg Hid

theorem State.showQueue_keeps {s₀ : State} {s : State} (hk : s₀.Keeps s) : s₀.Keeps (State.showQueue s) := by
  unfold State.showQueue
  repeat' first
    | with_reducible assumption
    | extract_lets
    | intro _
    | with_reducible apply Keeps.set
    | split
    | dsimp +zetaDelta only

theorem State.showOldest_keeps {s₀ : State} {s : State} {n seq : Nat} (hk : s₀.Keeps s) : s₀.Keeps (State.showOldest s n seq) := by
  unfold State.showOldest
  repeat' first
    | with_reducible assumption
    | extract_lets
    | intro _
    | with_reducible apply Keeps.set
    | with_reducible apply Keeps.ite
    | split
    | dsimp +zetaDelta only

theorem State.showNewest_keeps {s₀ : State} {s : State} {seq : Nat} (hk : s₀.Keeps s) : s₀.Keeps (State.showNewest s seq) := by
  unfold State.showNewest
  repeat' first
    | with_reducible assumption
    | extract_lets
    | intro _
    | with_reducible apply State.showOldest_keeps
    | with_reducible apply Keeps.set
    | with_reducible apply Keeps.put
    | with_reducible apply Keeps.ite
    | split
    | dsimp +zetaDelta only

theorem State.closeFounding_keeps {s₀ : State} {s : State} (hk : s₀.Keeps s) : s₀.Keeps (State.closeFounding s) := by
  unfold State.closeFounding
  repeat' first
    | with_reducible assumption
    | extract_lets
    | intro _
    | with_reducible apply State.showQueue_keeps
    | with_reducible apply Keeps.set
    | with_reducible apply Keeps.raise
    | split
    | with_reducible apply Keeps.rest
    | dsimp +zetaDelta only

theorem State.exhausted_keeps {s₀ : State} {s : State} (hk : s₀.Keeps s) : s₀.Keeps (State.exhausted s) := by
  unfold State.exhausted
  repeat' first
    | with_reducible assumption
    | extract_lets
    | intro _
    | with_reducible apply State.showQueue_keeps
    | with_reducible apply Keeps.set
    | with_reducible apply Keeps.add
    | split
    | with_reducible apply Keeps.rest
    | dsimp +zetaDelta only

theorem State.reportLoss_keeps {s₀ : State} {s : State} (hk : s₀.Keeps s) : s₀.Keeps (State.reportLoss s) := by
  unfold State.reportLoss
  repeat' first
    | with_reducible assumption
    | extract_lets
    | intro _
    | with_reducible apply State.enqueueRec_keeps
    | with_reducible apply Keeps.set
    | with_reducible apply Keeps.ite
    | split
    | dsimp +zetaDelta only

theorem execRecorderStartSearch_keeps (s : State) : ∃ u, execRecorderStartSearch s = .next u ∧ s.Keeps u := by
  unfold execRecorderStartSearch
  repeat' first
    | with_reducible assumption
    | extract_lets
    | intro _
    | with_reducible apply State.ev_keeps
    | with_reducible apply State.showNewest_keeps
    | with_reducible apply Keeps.each
    | with_reducible apply Keeps.set
    | with_reducible apply Keeps.put
    | with_reducible apply Keeps.raise
    | with_reducible apply Keeps.setIf
    | with_reducible apply Keeps.optMap
    | with_reducible apply Keeps.ite
    | refine Keeps.ofOccurs ?_
    | split
    | with_reducible apply Keeps.rest
    | dsimp +zetaDelta only

theorem State.setOpTime_keeps {s₀ : State} {s : State} {ms : Nat} (hk : s₀.Keeps s) : s₀.Keeps (State.setOpTime s ms) := by
  unfold State.setOpTime
  repeat' first
    | with_reducible assumption
    | extract_lets
    | intro _
    | with_reducible apply Keeps.set
    | split
    | dsimp +zetaDelta only

theorem State.saveOpTime_keeps {s₀ : State} {s : State} (hk : s₀.Keeps s) : s₀.Keeps (State.saveOpTime s) := by
  unfold State.saveOpTime
  repeat' first
    | with_reducible assumption
    | extract_lets
    | intro _
    | with_reducible apply Keeps.set
    | with_reducible apply Keeps.setBytes
    | split
    | dsimp +zetaDelta only

theorem execOperatingTimeSave_keeps (s : State) : ∃ u, execOperatingTimeSave s = .next u ∧ s.Keeps u := by
  unfold execOperatingTimeSave
  repeat' first
    | with_reducible assumption
    | extract_lets
    | intro _
    | with_reducible apply State.saveOpTime_keeps
    | with_reducible apply Keeps.set
    | refine Keeps.ofOccurs ?_
    | split
    | dsimp +zetaDelta only

theorem execMramRefresh_keeps (s : State) : ∃ u, execMramRefresh s = .next u ∧ s.Keeps u := by
  unfold execMramRefresh
  repeat' first
    | with_reducible assumption
    | extract_lets
    | intro _
    | with_reducible apply State.ev_keeps
    | refine Keeps.ofOccurs ?_
    | split
    | dsimp +zetaDelta only

theorem execRecRead_keeps (r : Nat) (memOk : Bool) (s : State) : ∃ u, execRecRead r memOk s = .next u ∧ s.Keeps u := by
  unfold execRecRead
  repeat' first
    | with_reducible assumption
    | extract_lets
    | intro _
    | with_reducible apply State.bufferFailed_keeps
    | with_reducible apply State.finish_keeps
    | with_reducible apply State.hostWrite_keeps
    | with_reducible apply State.start_keeps
    | with_reducible apply Keeps.ite
    | refine Keeps.ofNext ?_
    | split
    | dsimp +zetaDelta only

theorem execRecInfo_keeps (r : Nat) (memOk : Bool) (s : State) : ∃ u, execRecInfo r memOk s = .next u ∧ s.Keeps u := by
  unfold execRecInfo
  repeat' first
    | with_reducible assumption
    | extract_lets
    | intro _
    | with_reducible apply State.answer_keeps
    | with_reducible apply State.start_keeps
    | refine Keeps.ofNext ?_
    | split
    | dsimp +zetaDelta only

end Sys2Proof.Machine
end

