-- ==== Sys2Proof/Laws/KeepsPowerOps.lean ====
section
/-! SUPPORT. What the operations and commands of Machine/PowerOps.lean keep. -/

namespace Sys2Proof.Machine
open Reg Hid

theorem State.powerEnter_keeps {s₀ : State} {s : State} {target src task : Nat} (hk : s₀.Keeps s) : s₀.Keeps (State.powerEnter s target src task) := by
  unfold State.powerEnter
  repeat' first
    | with_reducible assumption
    | extract_lets
    | intro _
    | with_reducible apply State.ev_keeps
    | with_reducible apply State.olcAbort_keeps
    | with_reducible apply State.powerShow_keeps
    | with_reducible apply Keeps.set
    | with_reducible apply Keeps.ite
    | split
    | dsimp +zetaDelta only

theorem State.entryEvent_keeps {s₀ : State} {s : State} (hk : s₀.Keeps s) : s₀.Keeps (State.entryEvent s) := by
  unfold State.entryEvent
  repeat' first
    | with_reducible assumption
    | extract_lets
    | intro _
    | with_reducible apply State.ev_keeps
    | with_reducible apply Keeps.foldl
    | with_reducible apply Keeps.foldlState
    | with_reducible apply Keeps.ite
    | split
    | dsimp +zetaDelta only

theorem State.askBlock_keeps {s₀ : State} {s : State} {n : Nat} (hk : s₀.Keeps s) : s₀.Keeps (State.askBlock s n) := by
  unfold State.askBlock
  repeat' first
    | with_reducible assumption
    | extract_lets
    | intro _
    | with_reducible apply State.entryEvent_keeps
    | with_reducible apply State.unlockEnd_keeps
    | with_reducible apply Keeps.set
    | with_reducible apply Keeps.ite
    | split
    | dsimp +zetaDelta only

theorem State.stopBlock_keeps {s₀ : State} {s : State} {n : Nat} (hk : s₀.Keeps s) : s₀.Keeps (State.stopBlock s n) := by
  unfold State.stopBlock
  repeat' first
    | with_reducible assumption
    | extract_lets
    | intro _
    | with_reducible apply State.driveOff_keeps
    | with_reducible apply State.elapseNet_keeps
    | with_reducible apply State.goPassive_keeps
    | with_reducible apply State.linkLost_keeps
    | with_reducible apply State.saveOpTime_keeps
    | with_reducible apply State.settle_keeps
    | with_reducible apply Keeps.each
    | with_reducible apply Keeps.set
    | with_reducible apply Keeps.free
    | with_reducible apply Keeps.ite
    | split
    | dsimp +zetaDelta only

theorem State.bankCrc_keeps {s₀ : State} {s : State} {b : Nat} (hk : s₀.Keeps s) : s₀.Keeps (State.bankCrc s b).2 := by
  unfold State.bankCrc
  repeat' first
    | with_reducible assumption
    | extract_lets
    | intro _
    | with_reducible apply Keeps.free
    | with_reducible apply Keeps.ite
    | split
    | dsimp +zetaDelta only

theorem State.entered_keeps {s₀ : State} {s : State} (hk : s₀.Keeps s) : s₀.Keeps (State.entered s) := by
  unfold State.entered
  repeat' first
    | with_reducible assumption
    | extract_lets
    | intro _
    | with_reducible apply State.bankCrc_keeps
    | with_reducible apply State.entryEvent_keeps
    | with_reducible apply State.saveOpTime_keeps
    | with_reducible apply Keeps.each
    | with_reducible apply Keeps.set
    | with_reducible apply Keeps.foldl
    | with_reducible apply Keeps.foldlState
    | with_reducible apply Keeps.ite
    | split
    | dsimp +zetaDelta only

theorem State.acceptBlock_keeps {s₀ : State} {s : State} {n : Nat} (hk : s₀.Keeps s) : s₀.Keeps (State.acceptBlock s n) := by
  unfold State.acceptBlock
  repeat' first
    | with_reducible assumption
    | extract_lets
    | intro _
    | with_reducible apply State.askBlock_keeps
    | with_reducible apply State.entered_keeps
    | with_reducible apply State.stopBlock_keeps
    | with_reducible apply Keeps.set
    | split
    | dsimp +zetaDelta only

theorem State.powerConsent_keeps {s₀ : State} {s : State} {odd : List Lane} (hk : s₀.Keeps s) : s₀.Keeps (State.powerConsent s odd) := by
  unfold State.powerConsent
  repeat' first
    | with_reducible assumption
    | extract_lets
    | intro _
    | with_reducible apply State.powerBack_keeps
    | with_reducible apply State.startSnapshot_keeps
    | with_reducible apply Keeps.set
    | with_reducible apply Keeps.ite
    | split
    | dsimp +zetaDelta only

theorem State.powerSnapDone_keeps {s₀ : State} {s : State} (hk : s₀.Keeps s) : s₀.Keeps (State.powerSnapDone s) := by
  unfold State.powerSnapDone
  repeat' first
    | with_reducible assumption
    | extract_lets
    | intro _
    | with_reducible apply State.askBlock_keeps
    | with_reducible apply Keeps.set
    | with_reducible apply Keeps.ite
    | split
    | dsimp +zetaDelta only

theorem State.beginWake_keeps {s₀ : State} {s : State} {src : Nat} (hk : s₀.Keeps s) : s₀.Keeps (State.beginWake s src) := by
  unfold State.beginWake
  repeat' first
    | with_reducible assumption
    | extract_lets
    | intro _
    | with_reducible apply Keeps.set
    | split
    | with_reducible apply Keeps.rest
    | dsimp +zetaDelta only

theorem State.wakeBy_keeps {s₀ : State} {s : State} {src : Nat} (hk : s₀.Keeps s) : s₀.Keeps (State.wakeBy s src) := by
  unfold State.wakeBy
  repeat' first
    | with_reducible assumption
    | extract_lets
    | intro _
    | with_reducible apply State.beginWake_keeps
    | with_reducible apply State.powerBack_keeps
    | with_reducible apply Keeps.ite
    | split
    | dsimp +zetaDelta only

theorem State.powerWithdraw_keeps {s₀ : State} {s : State} {src : Nat} (hk : s₀.Keeps s) : s₀.Keeps (State.powerWithdraw s src) := by
  unfold State.powerWithdraw
  repeat' first
    | with_reducible assumption
    | extract_lets
    | intro _
    | with_reducible apply State.beginWake_keeps
    | with_reducible apply State.powerBack_keeps
    | with_reducible apply State.powerShow_keeps
    | with_reducible apply Keeps.set
    | with_reducible apply Keeps.ite
    | split
    | dsimp +zetaDelta only

theorem State.powerRequest_keeps {s₀ : State} {s : State} {target src task : Nat} (hk : s₀.Keeps s) : s₀.Keeps (State.powerRequest s target src task) := by
  unfold State.powerRequest
  repeat' first
    | with_reducible assumption
    | extract_lets
    | intro _
    | with_reducible apply State.powerEnter_keeps
    | with_reducible apply State.powerWithdraw_keeps
    | with_reducible apply Keeps.ite
    | split
    | dsimp +zetaDelta only

theorem State.selfCheck_keeps {s₀ : State} {s : State} {fail : List Lane} (hk : s₀.Keeps s) : s₀.Keeps (State.selfCheck s fail) := by
  unfold State.selfCheck
  repeat' first
    | with_reducible assumption
    | extract_lets
    | intro _
    | with_reducible apply State.retire_keeps
    | with_reducible apply Keeps.each
    | split
    | dsimp +zetaDelta only

theorem State.showWake_keeps {s₀ : State} {s : State} (hk : s₀.Keeps s) : s₀.Keeps (State.showWake s) := by
  unfold State.showWake
  repeat' first
    | with_reducible assumption
    | extract_lets
    | intro _
    | with_reducible apply State.ev_keeps
    | with_reducible apply Keeps.set
    | with_reducible apply Keeps.put
    | with_reducible apply Keeps.raise
    | with_reducible apply Keeps.ite
    | split
    | dsimp +zetaDelta only

theorem State.wakeNet_keeps {s₀ : State} {s : State} (hk : s₀.Keeps s) : s₀.Keeps (State.wakeNet s) := by
  unfold State.wakeNet
  repeat' first
    | with_reducible assumption
    | extract_lets
    | intro _
    | with_reducible apply State.listenAtStart_keeps
    | with_reducible apply State.startTwin_keeps
    | with_reducible apply State.wakeRebroadcast_keeps
    | with_reducible apply Keeps.each
    | with_reducible apply Keeps.set
    | with_reducible apply Keeps.put
    | split
    | dsimp +zetaDelta only

theorem State.wakeDone_keeps {s₀ : State} {s : State} {fail : List Lane} (hk : s₀.Keeps s) : s₀.Keeps (State.wakeDone s fail) := by
  unfold State.wakeDone
  repeat' first
    | with_reducible assumption
    | extract_lets
    | intro _
    | with_reducible apply State.restartBlocks_keeps
    | with_reducible apply State.selfCheck_keeps
    | with_reducible apply State.settle_keeps
    | with_reducible apply State.showWake_keeps
    | with_reducible apply State.wakeNet_keeps
    | with_reducible apply Keeps.set
    | with_reducible apply Keeps.ite
    | split
    | dsimp +zetaDelta only

end Sys2Proof.Machine
end

