-- ==== Sys2Proof/Laws/KeepsAgree.lean ====
section
/-! SUPPORT. What the operations and commands of Machine/Agree.lean keep. -/

namespace Sys2Proof.Machine
open Reg Hid

theorem State.readyLane_keeps {s₀ : State} {s : State} {t : Nat} {l : Lane} (hk : s₀.Keeps s) : s₀.Keeps (State.readyLane s t l) := by
  unfold State.readyLane
  repeat' first
    | with_reducible assumption
    | extract_lets
    | intro _
    | with_reducible apply State.haltLane_keeps
    | with_reducible apply State.start_keeps
    | with_reducible apply Keeps.setCtx
    | with_reducible apply Keeps.ite
    | split
    | dsimp +zetaDelta only

theorem State.firstScan_keeps {s₀ : State} {s : State} (hk : s₀.Keeps s) : s₀.Keeps (State.firstScan s) := by
  unfold State.firstScan
  repeat' first
    | with_reducible assumption
    | extract_lets
    | intro _
    | with_reducible apply Keeps.set
    | with_reducible apply Keeps.ite
    | split
    | dsimp +zetaDelta only

theorem State.startScan_keeps {s₀ : State} {s : State} {t : Nat} {ls : List Lane} (hk : s₀.Keeps s) : s₀.Keeps (State.startScan s t ls) := by
  unfold State.startScan
  repeat' first
    | with_reducible assumption
    | extract_lets
    | intro _
    | with_reducible apply State.firstScan_keeps
    | with_reducible apply State.keepBefore_keeps
    | with_reducible apply State.readyLane_keeps
    | with_reducible apply State.resume_keeps
    | with_reducible apply Keeps.each
    | with_reducible apply Keeps.set
    | with_reducible apply Keeps.ite
    | split
    | dsimp +zetaDelta only

theorem State.takePermits_keeps {s₀ : State} {s : State} (hk : s₀.Keeps s) : s₀.Keeps (State.takePermits s) := by
  unfold State.takePermits
  repeat' first
    | with_reducible assumption
    | extract_lets
    | intro _
    | with_reducible apply State.holdLost_keeps
    | with_reducible apply State.loseForces_keeps
    | with_reducible apply State.olcAbort_keeps
    | with_reducible apply State.unlockEnd_keeps
    | with_reducible apply Keeps.put
    | with_reducible apply Keeps.ite
    | split
    | dsimp +zetaDelta only

theorem State.permitTask_keeps {s₀ : State} {s : State} {t : Nat} {odd : List Lane} (hk : s₀.Keeps s) : s₀.Keeps (State.permitTask s t odd) := by
  unfold State.permitTask
  repeat' first
    | with_reducible assumption
    | extract_lets
    | intro _
    | with_reducible apply State.powerConsent_keeps
    | with_reducible apply State.takePermits_keeps
    | with_reducible apply Keeps.ite
    | split
    | dsimp +zetaDelta only

theorem State.supervise_keeps {s₀ : State} {s : State} {g : Nat} (hk : s₀.Keeps s) : s₀.Keeps (State.supervise s g) := by
  unfold State.supervise
  repeat' first
    | with_reducible assumption
    | extract_lets
    | intro _
    | with_reducible apply State.ev_keeps
    | with_reducible apply State.latchGroup_keeps
    | with_reducible apply Keeps.set
    | with_reducible apply Keeps.raise
    | with_reducible apply Keeps.ite
    | split
    | dsimp +zetaDelta only

theorem State.groupAgreed_keeps {s₀ : State} {s : State} {g : Nat} (hk : s₀.Keeps s) : s₀.Keeps (State.groupAgreed s g) := by
  unfold State.groupAgreed
  repeat' first
    | with_reducible assumption
    | extract_lets
    | intro _
    | with_reducible apply State.supervise_keeps
    | with_reducible apply Keeps.put
    | with_reducible apply Keeps.setIf
    | split
    | dsimp +zetaDelta only

theorem State.exportSlice_keeps {s₀ : State} {s : State} {t x : Nat} (hk : s₀.Keeps s) : s₀.Keeps (State.exportSlice s t x) := by
  unfold State.exportSlice
  repeat' first
    | with_reducible assumption
    | extract_lets
    | intro _
    | with_reducible apply State.ev_keeps
    | with_reducible apply Keeps.set
    | with_reducible apply Keeps.raise
    | with_reducible apply Keeps.setBytes
    | with_reducible apply Keeps.ite
    | split
    | dsimp +zetaDelta only

theorem State.exportSlices_keeps {s₀ : State} {s : State} {t : Nat} (hk : s₀.Keeps s) : s₀.Keeps (State.exportSlices s t) := by
  unfold State.exportSlices
  repeat' first
    | with_reducible assumption
    | extract_lets
    | intro _
    | with_reducible apply State.exportSlice_keeps
    | with_reducible apply Keeps.each
    | with_reducible apply Keeps.set
    | with_reducible apply Keeps.ite
    | split
    | dsimp +zetaDelta only

theorem State.inputFed_keeps {s₀ : State} {s : State} {t : Nat} (hk : s₀.Keeps s) : s₀.Keeps (State.inputFed s t) := by
  unfold State.inputFed
  repeat' first
    | with_reducible assumption
    | extract_lets
    | intro _
    | with_reducible apply State.ctxCheck_keeps
    | with_reducible apply State.sendReady_keeps
    | with_reducible apply Keeps.each
    | with_reducible apply Keeps.ite
    | split
    | dsimp +zetaDelta only

theorem State.exchange_keeps {s₀ : State} {s : State} {t : Nat} {ls : List Lane} (hk : s₀.Keeps s) : s₀.Keeps (State.exchange s t ls) := by
  unfold State.exchange
  repeat' first
    | with_reducible assumption
    | extract_lets
    | intro _
    | with_reducible apply Keeps.each
    | with_reducible apply Keeps.copy
    | split
    | dsimp +zetaDelta only

theorem State.exerciseCopy_keeps {s₀ : State} {s : State} {t : Nat} (hk : s₀.Keeps s) : s₀.Keeps (State.exerciseCopy s t) := by
  unfold State.exerciseCopy
  repeat' first
    | with_reducible assumption
    | extract_lets
    | intro _
    | with_reducible apply Keeps.setWord
    | with_reducible apply Keeps.ite
    | split
    | dsimp +zetaDelta only

theorem State.flip_keeps {s₀ : State} {s : State} {l : Lane} {off mask : Nat} (hk : s₀.Keeps s) : s₀.Keeps (State.flip s l off mask) := by
  unfold State.flip
  repeat' first
    | with_reducible assumption
    | extract_lets
    | intro _
    | with_reducible apply Keeps.setWord
    | split
    | dsimp +zetaDelta only

theorem State.exerciseIn_keeps {s₀ : State} {s : State} {t : Nat} {ls missing : List Lane} {f : Found} (hk : s₀.Keeps s) : s₀.Keeps (State.exerciseIn s t ls missing f).1 := by
  unfold State.exerciseIn
  repeat' first
    | with_reducible assumption
    | extract_lets
    | intro _
    | with_reducible apply State.bufferFaults_keeps
    | with_reducible apply Keeps.set
    | with_reducible apply Keeps.ite
    | split
    | dsimp +zetaDelta only

theorem State.agreeTask_keeps {s₀ : State} {s : State} {t : Nat} {ls bad missing : List Lane} (hk : s₀.Keeps s) : s₀.Keeps (State.agreeTask s t ls bad missing) := by
  unfold State.agreeTask
  repeat' first
    | with_reducible assumption
    | extract_lets
    | intro _
    | with_reducible apply State.agreeImp_keeps
    | with_reducible apply State.agreeSrc_keeps
    | with_reducible apply State.bufferFaults_keeps
    | with_reducible apply State.exerciseIn_keeps
    | with_reducible apply State.settleFound_keeps
    | with_reducible apply Keeps.foldl
    | with_reducible apply Keeps.foldlState
    | with_reducible apply Keeps.ite
    | split
    | dsimp +zetaDelta only

theorem State.writeInputs_keeps {s₀ : State} {s : State} {t : Nat} {ls : List Lane} (hk : s₀.Keeps s) : s₀.Keeps (State.writeInputs s t ls) := by
  unfold State.writeInputs
  repeat' first
    | with_reducible assumption
    | extract_lets
    | intro _
    | with_reducible apply State.applyForces_keeps
    | with_reducible apply Keeps.each
    | with_reducible apply Keeps.set
    | with_reducible apply Keeps.copy
    | with_reducible apply Keeps.ite
    | split
    | dsimp +zetaDelta only

theorem State.crossCheck_keeps {s₀ : State} {s : State} {t : Nat} (hk : s₀.Keeps s) : s₀.Keeps (State.crossCheck s t) := by
  unfold State.crossCheck
  repeat' first
    | with_reducible assumption
    | extract_lets
    | intro _
    | with_reducible apply State.ev_keeps
    | with_reducible apply Keeps.add
    | with_reducible apply Keeps.ite
    | split
    | dsimp +zetaDelta only

theorem State.inputsReady_keeps {s₀ : State} {s : State} {t : Nat} {ls : List Lane} (hk : s₀.Keeps s) : s₀.Keeps (State.inputsReady s t ls) := by
  unfold State.inputsReady
  repeat' first
    | with_reducible assumption
    | extract_lets
    | intro _
    | with_reducible apply State.crossCheck_keeps
    | with_reducible apply State.exportSlices_keeps
    | with_reducible apply State.groupAgreed_keeps
    | with_reducible apply State.inputFed_keeps
    | with_reducible apply State.sendRecordA_keeps
    | with_reducible apply State.startScan_keeps
    | with_reducible apply Keeps.each
    | with_reducible apply Keeps.set
    | with_reducible apply Keeps.ite
    | split
    | dsimp +zetaDelta only

theorem State.agreeSingle_keeps {s₀ : State} {s : State} {t : Nat} {l : Lane} (hk : s₀.Keeps s) : s₀.Keeps (State.agreeSingle s t l) := by
  unfold State.agreeSingle
  repeat' first
    | with_reducible assumption
    | extract_lets
    | intro _
    | with_reducible apply State.agreeImp_keeps
    | with_reducible apply State.holdWords_keeps
    | with_reducible apply State.inputFed_keeps
    | with_reducible apply State.permitTask_keeps
    | with_reducible apply State.startScan_keeps
    | with_reducible apply State.writeInputs_keeps
    | with_reducible apply Keeps.each
    | with_reducible apply Keeps.set
    | with_reducible apply Keeps.foldl
    | with_reducible apply Keeps.foldlState
    | split
    | dsimp +zetaDelta only

theorem State.permitSingle_keeps {s₀ : State} {s : State} {t : Nat} {l : Lane} (hk : s₀.Keeps s) : s₀.Keeps (State.permitSingle s t l) := by
  unfold State.permitSingle
  repeat' first
    | with_reducible assumption
    | extract_lets
    | intro _
    | with_reducible apply State.holdWords_keeps
    | with_reducible apply State.permitTask_keeps
    | with_reducible apply Keeps.each
    | with_reducible apply Keeps.set
    | split
    | dsimp +zetaDelta only

theorem execInputAgreement_keeps (t : Nat) (flips : List (Lane × Nat × Nat)) (bad missing odd : List Lane) (s : State) : ∃ u, execInputAgreement t flips bad missing odd s = .next u ∧ s.Keeps u := by
  unfold execInputAgreement
  repeat' first
    | with_reducible assumption
    | extract_lets
    | intro _
    | with_reducible apply State.agreeTask_keeps
    | with_reducible apply State.exchange_keeps
    | with_reducible apply State.exerciseCopy_keeps
    | with_reducible apply State.flip_keeps
    | with_reducible apply State.inputsReady_keeps
    | with_reducible apply State.permitTask_keeps
    | with_reducible apply State.writeInputs_keeps
    | with_reducible apply Keeps.each
    | with_reducible apply Keeps.set
    | with_reducible apply Keeps.ite
    | refine Keeps.ofOccurs ?_
    | split
    | dsimp +zetaDelta only

theorem execPreemption_keeps (l : Lane) (s : State) : ∃ u, execPreemption l s = .next u ∧ s.Keeps u := by
  unfold execPreemption
  repeat' first
    | with_reducible assumption
    | extract_lets
    | intro _
    | with_reducible apply State.resume_keeps
    | with_reducible apply Keeps.setCtx
    | with_reducible apply Keeps.ite
    | refine Keeps.ofOccurs ?_
    | split
    | dsimp +zetaDelta only

end Sys2Proof.Machine
end

