-- ==== Sys2Proof/Laws/KeepsAssay.lean ====
section
/-! SUPPORT. What the operations and commands of Machine/Assay.lean keep. -/

namespace Sys2Proof.Machine
open Reg Hid

theorem State.assayFailed_keeps {s₀ : State} {s : State} {l : Lane} {result : Nat} (hk : s₀.Keeps s) : s₀.Keeps (State.assayFailed s l result) := by
  unfold State.assayFailed
  repeat' first
    | with_reducible assumption
    | extract_lets
    | intro _
    | with_reducible apply State.ev_keeps
    | with_reducible apply State.retire_keeps
    | with_reducible apply Keeps.set
    | split
    | dsimp +zetaDelta only

theorem State.march_keeps {s₀ : State} {s : State} {l : Lane} (hk : s₀.Keeps s) : s₀.Keeps (State.march s l) := by
  unfold State.march
  repeat' first
    | with_reducible assumption
    | extract_lets
    | intro _
    | with_reducible apply Keeps.each
    | with_reducible apply Keeps.setByte
    | with_reducible apply Keeps.destroy
    | with_reducible apply Keeps.free
    | with_reducible apply Keeps.ite
    | split
    | dsimp +zetaDelta only

theorem State.returnSingles_keeps {s₀ : State} {s : State} {l : Lane} (hk : s₀.Keeps s) : s₀.Keeps (State.returnSingles s l) := by
  unfold State.returnSingles
  repeat' first
    | with_reducible assumption
    | extract_lets
    | intro _
    | with_reducible apply Keeps.each
    | with_reducible apply Keeps.set
    | split
    | dsimp +zetaDelta only

theorem State.seedingDone_keeps {s₀ : State} {s : State} {l : Lane} (hk : s₀.Keeps s) : s₀.Keeps (State.seedingDone s l) := by
  unfold State.seedingDone
  repeat' first
    | with_reducible assumption
    | extract_lets
    | intro _
    | with_reducible apply State.ev_keeps
    | with_reducible apply State.returnSingles_keeps
    | with_reducible apply State.setLane_keeps
    | with_reducible apply Keeps.ite
    | split
    | dsimp +zetaDelta only

theorem State.assayPassed_keeps {s₀ : State} {s : State} {l : Lane} (hk : s₀.Keeps s) : s₀.Keeps (State.assayPassed s l) := by
  unfold State.assayPassed
  repeat' first
    | with_reducible assumption
    | extract_lets
    | intro _
    | with_reducible apply State.ev_keeps
    | with_reducible apply State.retire_keeps
    | with_reducible apply State.seedingDone_keeps
    | with_reducible apply State.setLane_keeps
    | with_reducible apply Keeps.set
    | with_reducible apply Keeps.raise
    | with_reducible apply Keeps.ite
    | split
    | with_reducible apply Keeps.rest
    | dsimp +zetaDelta only

theorem State.assayStep_keeps {s₀ : State} {s : State} {l : Lane} (hk : s₀.Keeps s) : s₀.Keeps (State.assayStep s l) := by
  unfold State.assayStep
  repeat' first
    | with_reducible assumption
    | extract_lets
    | intro _
    | with_reducible apply State.assayPassed_keeps
    | with_reducible apply State.dropScan_keeps
    | with_reducible apply State.ev_keeps
    | with_reducible apply State.loadProgram_keeps
    | with_reducible apply State.march_keeps
    | with_reducible apply Keeps.each
    | with_reducible apply Keeps.set
    | with_reducible apply Keeps.ite
    | split
    | dsimp +zetaDelta only

theorem execAssayStepEnd_keeps (l : Lane) (pass : Bool) (s : State) : ∃ u, execAssayStepEnd l pass s = .next u ∧ s.Keeps u := by
  unfold execAssayStepEnd
  repeat' first
    | with_reducible assumption
    | extract_lets
    | intro _
    | with_reducible apply State.assayFailed_keeps
    | with_reducible apply State.assayStep_keeps
    | with_reducible apply State.march_keeps
    | with_reducible apply Keeps.ite
    | refine Keeps.ofOccurs ?_
    | split
    | dsimp +zetaDelta only

theorem execAssayTimeout_keeps (l : Lane) (s : State) : ∃ u, execAssayTimeout l s = .next u ∧ s.Keeps u := by
  unfold execAssayTimeout
  repeat' first
    | with_reducible assumption
    | extract_lets
    | intro _
    | with_reducible apply State.assayFailed_keeps
    | with_reducible apply State.elapseTo_keeps
    | refine Keeps.ofOccurs ?_
    | split
    | dsimp +zetaDelta only

theorem execSeedCopy_keeps (l : Lane) (t : Nat) (s : State) : ∃ u, execSeedCopy l t s = .next u ∧ s.Keeps u := by
  unfold execSeedCopy
  repeat' first
    | with_reducible assumption
    | extract_lets
    | intro _
    | with_reducible apply State.enterSafe_keeps
    | with_reducible apply State.seedTask_keeps
    | with_reducible apply Keeps.set
    | with_reducible apply Keeps.add
    | with_reducible apply Keeps.foldl
    | with_reducible apply Keeps.foldlState
    | with_reducible apply Keeps.ite
    | refine Keeps.ofOccurs ?_
    | split
    | dsimp +zetaDelta only

theorem execSeedCopyDone_keeps (l : Lane) (t : Nat) (s : State) : ∃ u, execSeedCopyDone l t s = .next u ∧ s.Keeps u := by
  unfold execSeedCopyDone
  repeat' first
    | with_reducible assumption
    | extract_lets
    | intro _
    | with_reducible apply State.retire_keeps
    | with_reducible apply Keeps.set
    | with_reducible apply Keeps.inc
    | with_reducible apply Keeps.ite
    | refine Keeps.ofOccurs ?_
    | split
    | dsimp +zetaDelta only

theorem execProbationComplete_keeps (l : Lane) (s : State) : ∃ u, execProbationComplete l s = .next u ∧ s.Keeps u := by
  unfold execProbationComplete
  repeat' first
    | with_reducible assumption
    | extract_lets
    | intro _
    | with_reducible apply State.setLane_keeps
    | refine Keeps.ofOccurs ?_
    | split
    | dsimp +zetaDelta only

theorem State.unRetire_keeps {s₀ : State} {s : State} {a b c : Bool} (hk : s₀.Keeps s) : s₀.Keeps (State.unRetire s a b c) := by
  unfold State.unRetire
  repeat' first
    | with_reducible assumption
    | extract_lets
    | intro _
    | with_reducible apply State.debugRequest_keeps
    | with_reducible apply State.ev_keeps
    | with_reducible apply Keeps.setIf
    | with_reducible apply Keeps.ite
    | split
    | dsimp +zetaDelta only

theorem execUnRetire_keeps (a b c : Bool) (s : State) : ∃ u, execUnRetire a b c s = .next u ∧ s.Keeps u := by
  unfold execUnRetire
  repeat' first
    | with_reducible assumption
    | extract_lets
    | intro _
    | with_reducible apply State.unRetire_keeps
    | refine Keeps.ofOccurs ?_
    | split
    | dsimp +zetaDelta only

theorem State.padLatchClear_keeps {s₀ : State} {s : State} (hk : s₀.Keeps s) : s₀.Keeps (State.padLatchClear s) := by
  unfold State.padLatchClear
  repeat' first
    | with_reducible assumption
    | extract_lets
    | intro _
    | with_reducible apply Keeps.each
    | with_reducible apply Keeps.set
    | with_reducible apply Keeps.ite
    | split
    | dsimp +zetaDelta only

theorem execPadCellFaultClear_keeps (s : State) : ∃ u, execPadCellFaultClear s = .next u ∧ s.Keeps u := by
  unfold execPadCellFaultClear
  repeat' first
    | with_reducible assumption
    | extract_lets
    | intro _
    | with_reducible apply State.padLatchClear_keeps
    | refine Keeps.ofOccurs ?_
    | split
    | dsimp +zetaDelta only

theorem execExchangeKeepalive_keeps (l m : Lane) (s : State) : ∃ u, execExchangeKeepalive l m s = .next u ∧ s.Keeps u := by
  unfold execExchangeKeepalive
  repeat' first
    | with_reducible assumption
    | extract_lets
    | intro _
    | with_reducible apply Keeps.set
    | with_reducible apply Keeps.ite
    | refine Keeps.ofOccurs ?_
    | split
    | dsimp +zetaDelta only

theorem execSafeokToggle_keeps (l : Lane) (s : State) : ∃ u, execSafeokToggle l s = .next u ∧ s.Keeps u := by
  unfold execSafeokToggle
  repeat' first
    | with_reducible assumption
    | extract_lets
    | intro _
    | with_reducible apply State.elapseTo_keeps
    | with_reducible apply Keeps.set
    | with_reducible apply Keeps.put
    | refine Keeps.ofOccurs ?_
    | split
    | dsimp +zetaDelta only

theorem execTimeCheckWindow_keeps (l : Lane) (count : Nat) (s : State) : ∃ u, execTimeCheckWindow l count s = .next u ∧ s.Keeps u := by
  unfold execTimeCheckWindow
  repeat' first
    | with_reducible assumption
    | extract_lets
    | intro _
    | with_reducible apply State.enterSafe_keeps
    | with_reducible apply State.ev_keeps
    | with_reducible apply State.trigger_keeps
    | with_reducible apply Keeps.set
    | with_reducible apply Keeps.ite
    | refine Keeps.ofOccurs ?_
    | split
    | dsimp +zetaDelta only

theorem State.paceLane_keeps {s₀ : State} {s : State} {med : Nat} {l : Lane} (hk : s₀.Keeps s) : s₀.Keeps (State.paceLane s med l) := by
  unfold State.paceLane
  repeat' first
    | with_reducible assumption
    | extract_lets
    | intro _
    | with_reducible apply State.ev_keeps
    | with_reducible apply Keeps.set
    | with_reducible apply Keeps.ite
    | split
    | dsimp +zetaDelta only

theorem execPaceComparison_keeps (busyA busyB busyC : Nat) (s : State) : ∃ u, execPaceComparison busyA busyB busyC s = .next u ∧ s.Keeps u := by
  unfold execPaceComparison
  repeat' first
    | with_reducible assumption
    | extract_lets
    | intro _
    | with_reducible apply State.paceLane_keeps
    | with_reducible apply State.paceNote_keeps
    | with_reducible apply Keeps.each
    | with_reducible apply Keeps.set
    | with_reducible apply Keeps.ite
    | refine Keeps.ofOccurs ?_
    | split
    | dsimp +zetaDelta only

end Sys2Proof.Machine
end

