-- ==== Sys2Proof/Laws/KeepsBrake.lean ====
section
/-! SUPPORT. What the operations and commands of Machine/Brake.lean keep. -/

namespace Sys2Proof.Machine
open Reg Hid

theorem execTestDue_keeps (g : Nat) (dark : Bool) (s : State) : ∃ u, execTestDue g dark s = .next u ∧ s.Keeps u := by
  unfold execTestDue
  repeat' first
    | with_reducible assumption
    | extract_lets
    | intro _
    | with_reducible apply Keeps.set
    | with_reducible apply Keeps.ite
    | refine Keeps.ofOccurs ?_
    | split
    | dsimp +zetaDelta only

theorem State.startPulse_keeps {s₀ : State} {s : State} {g kind : Nat} {frm goal : GrpState} (hk : s₀.Keeps s) : s₀.Keeps (State.startPulse s g kind frm goal) := by
  unfold State.startPulse
  repeat' first
    | with_reducible assumption
    | extract_lets
    | intro _
    | with_reducible apply State.driveGroup_keeps
    | with_reducible apply State.elapseTo_keeps
    | with_reducible apply State.noteReadback_keeps
    | with_reducible apply Keeps.each
    | with_reducible apply Keeps.set
    | with_reducible apply Keeps.ite
    | split
    | dsimp +zetaDelta only

theorem execDarkTest_keeps (g : Nat) (s : State) : ∃ u, execDarkTest g s = .next u ∧ s.Keeps u := by
  unfold execDarkTest
  repeat' first
    | with_reducible assumption
    | extract_lets
    | intro _
    | with_reducible apply State.startPulse_keeps
    | with_reducible apply Keeps.set
    | with_reducible apply Keeps.ite
    | refine Keeps.ofOccurs ?_
    | split
    | dsimp +zetaDelta only

theorem execBrightTest_keeps (g : Nat) (s : State) : ∃ u, execBrightTest g s = .next u ∧ s.Keeps u := by
  unfold execBrightTest
  repeat' first
    | with_reducible assumption
    | extract_lets
    | intro _
    | with_reducible apply State.startPulse_keeps
    | with_reducible apply Keeps.set
    | with_reducible apply Keeps.ite
    | refine Keeps.ofOccurs ?_
    | split
    | dsimp +zetaDelta only

theorem State.pulseOver_keeps {s₀ : State} {s : State} {g : Nat} (hk : s₀.Keeps s) : s₀.Keeps (State.pulseOver s g) := by
  unfold State.pulseOver
  repeat' first
    | with_reducible assumption
    | extract_lets
    | intro _
    | with_reducible apply State.driveGroup_keeps
    | with_reducible apply State.elapseTo_keeps
    | with_reducible apply Keeps.each
    | with_reducible apply Keeps.set
    | with_reducible apply Keeps.ite
    | split
    | dsimp +zetaDelta only

theorem execPulseEnd_keeps (g : Nat) (s : State) : ∃ u, execPulseEnd g s = .next u ∧ s.Keeps u := by
  unfold execPulseEnd
  repeat' first
    | with_reducible assumption
    | extract_lets
    | intro _
    | with_reducible apply State.pulseOver_keeps
    | refine Keeps.ofOccurs ?_
    | split
    | dsimp +zetaDelta only

theorem State.testPassed_keeps {s₀ : State} {s : State} {g kind : Nat} (hk : s₀.Keeps s) : s₀.Keeps (State.testPassed s g kind) := by
  unfold State.testPassed
  repeat' first
    | with_reducible assumption
    | extract_lets
    | intro _
    | with_reducible apply Keeps.set
    | with_reducible apply Keeps.inc
    | with_reducible apply Keeps.ite
    | split
    | dsimp +zetaDelta only

theorem State.testFailed_keeps {s₀ : State} {s : State} {g kind mask : Nat} (hk : s₀.Keeps s) : s₀.Keeps (State.testFailed s g kind mask) := by
  unfold State.testFailed
  repeat' first
    | with_reducible assumption
    | extract_lets
    | intro _
    | with_reducible apply State.ev_keeps
    | with_reducible apply State.latchGroup_keeps
    | with_reducible apply Keeps.set
    | with_reducible apply Keeps.raise
    | with_reducible apply Keeps.ite
    | split
    | dsimp +zetaDelta only

theorem execTestWindowEnd_keeps (g : Nat) (s : State) : ∃ u, execTestWindowEnd g s = .next u ∧ s.Keeps u := by
  unfold execTestWindowEnd
  repeat' first
    | with_reducible assumption
    | extract_lets
    | intro _
    | with_reducible apply State.elapseTo_keeps
    | with_reducible apply State.ev_keeps
    | with_reducible apply State.pulseOver_keeps
    | with_reducible apply State.testFailed_keeps
    | with_reducible apply State.testPassed_keeps
    | with_reducible apply Keeps.each
    | with_reducible apply Keeps.set
    | with_reducible apply Keeps.inc
    | with_reducible apply Keeps.raise
    | with_reducible apply Keeps.ite
    | refine Keeps.ofOccurs ?_
    | split
    | dsimp +zetaDelta only

theorem State.brakeReset_keeps {s₀ : State} {s : State} {mask src : Nat} (hk : s₀.Keeps s) : s₀.Keeps (State.brakeReset s mask src) := by
  unfold State.brakeReset
  repeat' first
    | with_reducible assumption
    | extract_lets
    | intro _
    | with_reducible apply State.ev_keeps
    | with_reducible apply Keeps.each
    | with_reducible apply Keeps.set
    | with_reducible apply Keeps.ite
    | split
    | dsimp +zetaDelta only

theorem execMaintenanceReset_keeps (mask : Nat) (s : State) : ∃ u, execMaintenanceReset mask s = .next u ∧ s.Keeps u := by
  unfold execMaintenanceReset
  repeat' first
    | with_reducible assumption
    | extract_lets
    | intro _
    | with_reducible apply State.brakeReset_keeps
    | with_reducible apply Keeps.set
    | refine Keeps.ofOccurs ?_
    | split
    | dsimp +zetaDelta only

end Sys2Proof.Machine
end

