-- ==== Sys2Proof/Laws/KeepsCan.lean ====
section
/-! SUPPORT. What the operations and commands of Machine/Can.lean keep. -/

namespace Sys2Proof.Machine
open Reg Hid

theorem State.skipBad_keeps {s₀ : State} {s : State} {n : Nat} {ks : List Nat} (hk : s₀.Keeps s) : s₀.Keeps (State.skipBad s n ks) := by
  unfold State.skipBad
  repeat' first
    | with_reducible assumption
    | extract_lets
    | intro _
    | with_reducible apply State.objectFailure_keeps
    | with_reducible apply Keeps.each
    | split
    | dsimp +zetaDelta only

theorem execTransmitSelection_keeps (n : Nat) (s : State) : ∃ u, execTransmitSelection n s = .next u ∧ s.Keeps u := by
  unfold execTransmitSelection
  repeat' first
    | with_reducible assumption
    | extract_lets
    | intro _
    | with_reducible apply State.elapseTo_keeps
    | with_reducible apply State.skipBad_keeps
    | with_reducible apply Keeps.set
    | with_reducible apply Keeps.copy
    | refine Keeps.ofOccurs ?_
    | split
    | dsimp +zetaDelta only

theorem State.frameEnds_keeps {s₀ : State} {s : State} {n k : Nat} {sent : Option Nat} (hk : s₀.Keeps s) : s₀.Keeps (State.frameEnds s n k sent) := by
  unfold State.frameEnds
  repeat' first
    | with_reducible assumption
    | extract_lets
    | intro _
    | with_reducible apply State.canAnswer_keeps
    | with_reducible apply State.showObj_keeps
    | with_reducible apply Keeps.set
    | with_reducible apply Keeps.put
    | with_reducible apply Keeps.ite
    | split
    | dsimp +zetaDelta only

theorem State.errorState_keeps {s₀ : State} {s : State} {n : Nat} (hk : s₀.Keeps s) : s₀.Keeps (State.errorState s n) := by
  unfold State.errorState
  repeat' first
    | with_reducible assumption
    | extract_lets
    | intro _
    | with_reducible apply State.ev_keeps
    | with_reducible apply Keeps.set
    | with_reducible apply Keeps.put
    | with_reducible apply Keeps.raise
    | with_reducible apply Keeps.ite
    | split
    | dsimp +zetaDelta only

theorem State.noteLoop_keeps {s₀ : State} {s : State} {n d : Nat} (hk : s₀.Keeps s) : s₀.Keeps (State.noteLoop s n d) := by
  unfold State.noteLoop
  repeat' first
    | with_reducible assumption
    | extract_lets
    | intro _
    | with_reducible apply Keeps.set
    | with_reducible apply Keeps.ite
    | split
    | dsimp +zetaDelta only

theorem State.frameSent_keeps {s₀ : State} {s : State} {n k : Nat} {f : CanFrame} {sof : Nat} (hk : s₀.Keeps s) : s₀.Keeps (State.frameSent s n k f sof) := by
  unfold State.frameSent
  repeat' first
    | with_reducible assumption
    | extract_lets
    | intro _
    | with_reducible apply State.errorState_keeps
    | with_reducible apply State.frameEnds_keeps
    | with_reducible apply State.putFrame_keeps
    | with_reducible apply Keeps.set
    | with_reducible apply Keeps.inc
    | split
    | dsimp +zetaDelta only

theorem execCanTxComplete_keeps (n sof : Nat) (loop : Option Nat) (s : State) : ∃ u, execCanTxComplete n sof loop s = .next u ∧ s.Keeps u := by
  unfold execCanTxComplete
  repeat' first
    | with_reducible assumption
    | extract_lets
    | intro _
    | with_reducible apply State.canStore_keeps
    | with_reducible apply State.frameSent_keeps
    | with_reducible apply State.noteLoop_keeps
    | with_reducible apply Keeps.inc
    | with_reducible apply Keeps.optMap
    | with_reducible apply Keeps.ite
    | refine Keeps.ofOccurs ?_
    | split
    | dsimp +zetaDelta only

theorem execArbitrationLost_keeps (n : Nat) (s : State) : ∃ u, execArbitrationLost n s = .next u ∧ s.Keeps u := by
  unfold execArbitrationLost
  repeat' first
    | with_reducible assumption
    | extract_lets
    | intro _
    | with_reducible apply State.frameEnds_keeps
    | with_reducible apply Keeps.set
    | refine Keeps.ofOccurs ?_
    | split
    | dsimp +zetaDelta only

theorem State.collide_keeps {s₀ : State} {s : State} {n k : Nat} (hk : s₀.Keeps s) : s₀.Keeps (State.collide s n k) := by
  unfold State.collide
  repeat' first
    | with_reducible assumption
    | extract_lets
    | intro _
    | with_reducible apply State.ev_keeps
    | with_reducible apply Keeps.set
    | with_reducible apply Keeps.raise
    | with_reducible apply Keeps.ite
    | split
    | dsimp +zetaDelta only

theorem execCanError_keeps (n : Nat) (e : CanError) (s : State) : ∃ u, execCanError n e s = .next u ∧ s.Keeps u := by
  unfold execCanError
  repeat' first
    | with_reducible assumption
    | extract_lets
    | intro _
    | with_reducible apply State.collide_keeps
    | with_reducible apply State.errorState_keeps
    | with_reducible apply State.frameEnds_keeps
    | with_reducible apply Keeps.set
    | with_reducible apply Keeps.ite
    | refine Keeps.ofOccurs ?_
    | split
    | dsimp +zetaDelta only

theorem State.recDown_keeps {s₀ : State} {s : State} {n : Nat} (hk : s₀.Keeps s) : s₀.Keeps (State.recDown s n) := by
  unfold State.recDown
  repeat' first
    | with_reducible assumption
    | extract_lets
    | intro _
    | with_reducible apply State.errorState_keeps
    | with_reducible apply Keeps.set
    | with_reducible apply Keeps.free
    | with_reducible apply Keeps.ite
    | split
    | dsimp +zetaDelta only

theorem execCanFrameReceived_keeps (n : Nat) (f : CanFrame) (sof : Nat) (s : State) : ∃ u, execCanFrameReceived n f sof s = .next u ∧ s.Keeps u := by
  unfold execCanFrameReceived
  repeat' first
    | with_reducible assumption
    | extract_lets
    | intro _
    | with_reducible apply State.canStore_keeps
    | with_reducible apply State.recDown_keeps
    | with_reducible apply Keeps.set
    | with_reducible apply Keeps.inc
    | refine Keeps.ofOccurs ?_
    | split
    | dsimp +zetaDelta only

theorem execRemoteFrame_keeps (n : Nat) (s : State) : ∃ u, execRemoteFrame n s = .next u ∧ s.Keeps u := by
  unfold execRemoteFrame
  repeat' first
    | with_reducible assumption
    | extract_lets
    | intro _
    | with_reducible apply State.recDown_keeps
    | with_reducible apply Keeps.set
    | with_reducible apply Keeps.inc
    | refine Keeps.ofOccurs ?_
    | split
    | dsimp +zetaDelta only

theorem execProtocolException_keeps (n : Nat) (id : Option Nat) (s : State) : ∃ u, execProtocolException n id s = .next u ∧ s.Keeps u := by
  unfold execProtocolException
  repeat' first
    | with_reducible assumption
    | extract_lets
    | intro _
    | with_reducible apply State.errorState_keeps
    | with_reducible apply State.ev_keeps
    | with_reducible apply Keeps.set
    | with_reducible apply Keeps.raise
    | with_reducible apply Keeps.ite
    | refine Keeps.ofOccurs ?_
    | split
    | dsimp +zetaDelta only

theorem execBusOffRecovered_keeps (n : Nat) (s : State) : ∃ u, execBusOffRecovered n s = .next u ∧ s.Keeps u := by
  unfold execBusOffRecovered
  repeat' first
    | with_reducible assumption
    | extract_lets
    | intro _
    | with_reducible apply State.ev_keeps
    | with_reducible apply State.settle_keeps
    | with_reducible apply Keeps.set
    | with_reducible apply Keeps.raise
    | with_reducible apply Keeps.setIf
    | refine Keeps.ofOccurs ?_
    | split
    | dsimp +zetaDelta only

theorem execRecover_keeps (n : Nat) (s : State) : ∃ u, execRecover n s = .next u ∧ s.Keeps u := by
  unfold execRecover
  repeat' first
    | with_reducible assumption
    | extract_lets
    | intro _
    | with_reducible apply State.canRecover_keeps
    | refine Keeps.ofOccurs ?_
    | split
    | dsimp +zetaDelta only

theorem execObjectClear_keeps (n k : Nat) (s : State) : ∃ u, execObjectClear n k s = .next u ∧ s.Keeps u := by
  unfold execObjectClear
  repeat' first
    | with_reducible assumption
    | extract_lets
    | intro _
    | with_reducible apply State.objClear_keeps
    | with_reducible apply Keeps.set
    | refine Keeps.ofOccurs ?_
    | split
    | dsimp +zetaDelta only

end Sys2Proof.Machine
end

