-- ==== Sys2Proof/Laws/KeepsDebug.lean ====
section
/-! SUPPORT. What the operations and commands of Machine/Debug.lean keep. -/

namespace Sys2Proof.Machine
open Reg Hid

theorem State.setHaltLanes_keeps {s₀ : State} {s : State} {t mask : Nat} (hk : s₀.Keeps s) : s₀.Keeps (State.setHaltLanes s t mask) := by
  unfold State.setHaltLanes
  repeat' first
    | with_reducible assumption
    | extract_lets
    | intro _
    | with_reducible apply Keeps.each
    | with_reducible apply Keeps.put
    | split
    | dsimp +zetaDelta only

theorem State.haltSettle_keeps {s₀ : State} {s : State} {t : Nat} (hk : s₀.Keeps s) : s₀.Keeps (State.haltSettle s t) := by
  unfold State.haltSettle
  repeat' first
    | with_reducible assumption
    | extract_lets
    | intro _
    | with_reducible apply State.paceNote_keeps
    | with_reducible apply Keeps.set
    | with_reducible apply Keeps.ite
    | split
    | dsimp +zetaDelta only

theorem State.stepLane_keeps {s₀ : State} {s : State} {l : Lane} {t : Nat} (hk : s₀.Keeps s) : s₀.Keeps (State.stepLane s l t) := by
  unfold State.stepLane
  repeat' first
    | with_reducible assumption
    | extract_lets
    | intro _
    | with_reducible apply State.haltLane_keeps
    | with_reducible apply State.resume_keeps
    | with_reducible apply State.stepWord_keeps
    | with_reducible apply Keeps.setCtx
    | with_reducible apply Keeps.ite
    | split
    | dsimp +zetaDelta only

theorem State.dbgStep_keeps {s₀ : State} {s : State} {t : Nat} (hk : s₀.Keeps s) : s₀.Keeps (State.dbgStep s t) := by
  unfold State.dbgStep
  repeat' first
    | with_reducible assumption
    | extract_lets
    | intro _
    | with_reducible apply State.debugRequest_keeps
    | with_reducible apply State.haltSettle_keeps
    | with_reducible apply State.setHaltLanes_keeps
    | with_reducible apply State.stepLane_keeps
    | with_reducible apply Keeps.each
    | with_reducible apply Keeps.ite
    | split
    | dsimp +zetaDelta only

theorem execStep_keeps (t : Nat) (s : State) : ∃ u, execStep t s = .next u ∧ s.Keeps u := by
  unfold execStep
  repeat' first
    | with_reducible assumption
    | extract_lets
    | intro _
    | with_reducible apply State.dbgStep_keeps
    | refine Keeps.ofOccurs ?_
    | split
    | dsimp +zetaDelta only

theorem State.dbgCont_keeps {s₀ : State} {s : State} {t : Nat} (hk : s₀.Keeps s) : s₀.Keeps (State.dbgCont s t) := by
  unfold State.dbgCont
  repeat' first
    | with_reducible assumption
    | extract_lets
    | intro _
    | with_reducible apply State.debugRequest_keeps
    | with_reducible apply State.haltSettle_keeps
    | with_reducible apply State.resume_keeps
    | with_reducible apply State.setHaltLanes_keeps
    | with_reducible apply Keeps.each
    | with_reducible apply Keeps.set
    | with_reducible apply Keeps.setCtx
    | with_reducible apply Keeps.ite
    | split
    | dsimp +zetaDelta only

theorem execCont_keeps (t : Nat) (s : State) : ∃ u, execCont t s = .next u ∧ s.Keeps u := by
  unfold execCont
  repeat' first
    | with_reducible assumption
    | extract_lets
    | intro _
    | with_reducible apply State.dbgCont_keeps
    | refine Keeps.ofOccurs ?_
    | split
    | dsimp +zetaDelta only

theorem State.dbgHaltreq_keeps {s₀ : State} {s : State} {t : Nat} (hk : s₀.Keeps s) : s₀.Keeps (State.dbgHaltreq s t) := by
  unfold State.dbgHaltreq
  repeat' first
    | with_reducible assumption
    | extract_lets
    | intro _
    | with_reducible apply State.debugRequest_keeps
    | with_reducible apply State.haltLane_keeps
    | with_reducible apply State.setHaltLanes_keeps
    | with_reducible apply Keeps.each
    | with_reducible apply Keeps.set
    | with_reducible apply Keeps.ite
    | split
    | dsimp +zetaDelta only

theorem execHaltreq_keeps (t : Nat) (s : State) : ∃ u, execHaltreq t s = .next u ∧ s.Keeps u := by
  unfold execHaltreq
  repeat' first
    | with_reducible assumption
    | extract_lets
    | intro _
    | with_reducible apply State.dbgHaltreq_keeps
    | refine Keeps.ofOccurs ?_
    | split
    | dsimp +zetaDelta only

theorem State.showHalt_keeps {s₀ : State} {s : State} {t mask : Nat} {c : Ctx} (hk : s₀.Keeps s) : s₀.Keeps (State.showHalt s t mask c) := by
  unfold State.showHalt
  repeat' first
    | with_reducible assumption
    | extract_lets
    | intro _
    | with_reducible apply State.call_keeps
    | with_reducible apply State.ev_keeps
    | with_reducible apply State.setHaltLanes_keeps
    | with_reducible apply Keeps.set
    | with_reducible apply Keeps.put
    | with_reducible apply Keeps.ite
    | split
    | dsimp +zetaDelta only

theorem State.haltDissent_keeps {s₀ : State} {s : State} {t : Nat} {l : Lane} (hk : s₀.Keeps s) : s₀.Keeps (State.haltDissent s t l) := by
  unfold State.haltDissent
  repeat' first
    | with_reducible assumption
    | extract_lets
    | intro _
    | with_reducible apply State.ev_keeps
    | with_reducible apply State.trigger_keeps
    | with_reducible apply Keeps.raise
    | split
    | dsimp +zetaDelta only

theorem execHaltReport_keeps (t : Nat) (l : Lane) (s : State) : ∃ u, execHaltReport t l s = .next u ∧ s.Keeps u := by
  unfold execHaltReport
  repeat' first
    | with_reducible assumption
    | extract_lets
    | intro _
    | with_reducible apply State.haltDissent_keeps
    | with_reducible apply State.haltNoMajority_keeps
    | with_reducible apply State.lateDue_keeps
    | with_reducible apply State.showHalt_keeps
    | with_reducible apply Keeps.each
    | with_reducible apply Keeps.set
    | with_reducible apply Keeps.ite
    | refine Keeps.ofOccurs ?_
    | split
    | dsimp +zetaDelta only

theorem State.dbgTaskWrite_keeps {s₀ : State} {s : State} {off v : Nat} (hk : s₀.Keeps s) : s₀.Keeps (State.dbgTaskWrite s off v) := by
  unfold State.dbgTaskWrite
  repeat' first
    | with_reducible assumption
    | extract_lets
    | intro _
    | with_reducible apply State.dbgCont_keeps
    | with_reducible apply State.dbgHaltreq_keeps
    | with_reducible apply State.dbgStep_keeps
    | with_reducible apply State.debugRequest_keeps
    | with_reducible apply State.regStore_keeps
    | with_reducible apply Keeps.ite
    | split
    | dsimp +zetaDelta only

end Sys2Proof.Machine
end

