-- ==== Sys2Proof/Laws/KeepsHost.lean ====
section
/-! SUPPORT. What the operations and commands of Machine/Host.lean keep. -/

namespace Sys2Proof.Machine
open Reg Hid

theorem State.takeTail_keeps {s₀ : State} {s : State} {r : Nat} {w : Word} (hk : s₀.Keeps s) : s₀.Keeps (State.takeTail s r w) := by
  unfold State.takeTail
  repeat' first
    | with_reducible assumption
    | extract_lets
    | intro _
    | with_reducible apply State.sqFault_keeps
    | with_reducible apply Keeps.set
    | with_reducible apply Keeps.ite
    | split
    | dsimp +zetaDelta only

theorem State.takeHead_keeps {s₀ : State} {s : State} {c : Nat} {w : Word} (hk : s₀.Keeps s) : s₀.Keeps (State.takeHead s c w) := by
  unfold State.takeHead
  repeat' first
    | with_reducible assumption
    | extract_lets
    | intro _
    | with_reducible apply State.cqFault_keeps
    | with_reducible apply Keeps.set
    | with_reducible apply Keeps.setIf
    | with_reducible apply Keeps.ite
    | split
    | dsimp +zetaDelta only

theorem State.pollFailed_keeps {s₀ : State} {s : State} (hk : s₀.Keeps s) : s₀.Keeps (State.pollFailed s) := by
  unfold State.pollFailed
  repeat' first
    | with_reducible assumption
    | extract_lets
    | intro _
    | with_reducible apply State.ev_keeps
    | with_reducible apply State.faultMsg_keeps
    | with_reducible apply State.sqMark_keeps
    | with_reducible apply Keeps.each
    | with_reducible apply Keeps.set
    | with_reducible apply Keeps.raise
    | with_reducible apply Keeps.ite
    | split
    | dsimp +zetaDelta only

theorem execDoorbellPoll_keeps (page : Option (List Word)) (s : State) : ∃ u, execDoorbellPoll page s = .next u ∧ s.Keeps u := by
  unfold execDoorbellPoll
  repeat' first
    | with_reducible assumption
    | extract_lets
    | intro _
    | with_reducible apply State.elapseTo_keeps
    | with_reducible apply State.pollFailed_keeps
    | with_reducible apply State.takeHead_keeps
    | with_reducible apply State.takeTail_keeps
    | with_reducible apply Keeps.each
    | with_reducible apply Keeps.set
    | with_reducible apply Keeps.ite
    | refine Keeps.ofOccurs ?_
    | split
    | dsimp +zetaDelta only

theorem execDescriptorAccepted_keeps (r : Nat) (bytes : Option (List Byte)) (shOk : Bool) (s : State) : ∃ u, execDescriptorAccepted r bytes shOk s = .next u ∧ s.Keeps u := by
  unfold execDescriptorAccepted
  repeat' first
    | with_reducible assumption
    | extract_lets
    | intro _
    | with_reducible apply State.ev_keeps
    | with_reducible apply State.faultMsg_keeps
    | with_reducible apply State.shadow_keeps
    | with_reducible apply State.showProg_keeps
    | with_reducible apply State.sqFault_keeps
    | with_reducible apply Keeps.set
    | with_reducible apply Keeps.raise
    | with_reducible apply Keeps.ite
    | refine Keeps.ofOccurs ?_
    | split
    | with_reducible apply Keeps.rest
    | dsimp +zetaDelta only

theorem State.postTo_keeps {s₀ : State} {s : State} {c : Nat} {d : Desc} {status result : Nat} {shOk : Bool} (hk : s₀.Keeps s) : s₀.Keeps (State.postTo s c d status result shOk) := by
  unfold State.postTo
  repeat' first
    | with_reducible assumption
    | extract_lets
    | intro _
    | with_reducible apply State.countVector_keeps
    | with_reducible apply State.hostWrite_keeps
    | with_reducible apply State.shadow_keeps
    | with_reducible apply State.showProg_keeps
    | with_reducible apply Keeps.set
    | with_reducible apply Keeps.ite
    | split
    | with_reducible apply Keeps.rest
    | dsimp +zetaDelta only

theorem execCompletionPost_keeps (r slot : Nat) (ok shOk : Bool) (s : State) : ∃ u, execCompletionPost r slot ok shOk s = .next u ∧ s.Keeps u := by
  unfold execCompletionPost
  repeat' first
    | with_reducible assumption
    | extract_lets
    | intro _
    | with_reducible apply State.cqFault_keeps
    | with_reducible apply State.ev_keeps
    | with_reducible apply State.postTo_keeps
    | with_reducible apply Keeps.set
    | with_reducible apply Keeps.raise
    | with_reducible apply Keeps.ite
    | refine Keeps.ofOccurs ?_
    | split
    | dsimp +zetaDelta only

theorem execMsixModerationTimeout_keeps (v : Nat) (s : State) : ∃ u, execMsixModerationTimeout v s = .next u ∧ s.Keeps u := by
  unfold execMsixModerationTimeout
  repeat' first
    | with_reducible assumption
    | extract_lets
    | intro _
    | with_reducible apply State.elapseTo_keeps
    | with_reducible apply State.signal_keeps
    | refine Keeps.ofOccurs ?_
    | split
    | dsimp +zetaDelta only

theorem execMsixUnmask_keeps (v : Nat) (s : State) : ∃ u, execMsixUnmask v s = .next u ∧ s.Keeps u := by
  unfold execMsixUnmask
  repeat' first
    | with_reducible assumption
    | extract_lets
    | intro _
    | with_reducible apply Keeps.set
    | with_reducible apply Keeps.inc
    | with_reducible apply Keeps.ite
    | refine Keeps.ofOccurs ?_
    | split
    | dsimp +zetaDelta only

theorem execShadowHeartbeat_keeps (ok : Bool) (s : State) : ∃ u, execShadowHeartbeat ok s = .next u ∧ s.Keeps u := by
  unfold execShadowHeartbeat
  repeat' first
    | with_reducible assumption
    | extract_lets
    | intro _
    | with_reducible apply State.elapseTo_keeps
    | with_reducible apply State.shadow_keeps
    | with_reducible apply Keeps.set
    | refine Keeps.ofOccurs ?_
    | split
    | dsimp +zetaDelta only

theorem State.cfgReject_keeps {s₀ : State} {s : State} {off : Nat} (hk : s₀.Keeps s) : s₀.Keeps (State.cfgReject s off) := by
  unfold State.cfgReject
  repeat' first
    | with_reducible assumption
    | extract_lets
    | intro _
    | with_reducible apply State.ev_keeps
    | with_reducible apply State.faultMsg_keeps
    | with_reducible apply Keeps.raise
    | split
    | dsimp +zetaDelta only

theorem State.showRunning_keeps {s₀ : State} {s : State} (hk : s₀.Keeps s) : s₀.Keeps (State.showRunning s) := by
  unfold State.showRunning
  repeat' first
    | with_reducible assumption
    | extract_lets
    | intro _
    | with_reducible apply Keeps.put
    | split
    | dsimp +zetaDelta only

theorem State.hifEnable_keeps {s₀ : State} {s : State} {en : Bool} (hk : s₀.Keeps s) : s₀.Keeps (State.hifEnable s en) := by
  unfold State.hifEnable
  repeat' first
    | with_reducible assumption
    | extract_lets
    | intro _
    | with_reducible apply State.showRunning_keeps
    | with_reducible apply Keeps.set
    | with_reducible apply Keeps.put
    | with_reducible apply Keeps.ite
    | split
    | dsimp +zetaDelta only

theorem execHostInterfaceEnable_keeps (en : Bool) (s : State) : ∃ u, execHostInterfaceEnable en s = .next u ∧ s.Keeps u := by
  unfold execHostInterfaceEnable
  repeat' first
    | with_reducible assumption
    | extract_lets
    | intro _
    | with_reducible apply State.hifEnable_keeps
    | refine Keeps.ofOccurs ?_
    | split
    | dsimp +zetaDelta only

theorem State.sqEnable_keeps {s₀ : State} {s : State} {r : Nat} {en : Bool} (hk : s₀.Keeps s) : s₀.Keeps (State.sqEnable s r en) := by
  unfold State.sqEnable
  repeat' first
    | with_reducible assumption
    | extract_lets
    | intro _
    | with_reducible apply State.cfgReject_keeps
    | with_reducible apply Keeps.set
    | with_reducible apply Keeps.ite
    | split
    | dsimp +zetaDelta only

theorem execSubmissionRingEnable_keeps (r : Nat) (en : Bool) (s : State) : ∃ u, execSubmissionRingEnable r en s = .next u ∧ s.Keeps u := by
  unfold execSubmissionRingEnable
  repeat' first
    | with_reducible assumption
    | extract_lets
    | intro _
    | with_reducible apply State.sqEnable_keeps
    | refine Keeps.ofOccurs ?_
    | split
    | dsimp +zetaDelta only

theorem State.cqEnable_keeps {s₀ : State} {s : State} {c : Nat} {en : Bool} (hk : s₀.Keeps s) : s₀.Keeps (State.cqEnable s c en) := by
  unfold State.cqEnable
  repeat' first
    | with_reducible assumption
    | extract_lets
    | intro _
    | with_reducible apply State.cfgReject_keeps
    | with_reducible apply Keeps.set
    | with_reducible apply Keeps.ite
    | split
    | dsimp +zetaDelta only

theorem execCompletionRingEnable_keeps (c : Nat) (en : Bool) (s : State) : ∃ u, execCompletionRingEnable c en s = .next u ∧ s.Keeps u := by
  unfold execCompletionRingEnable
  repeat' first
    | with_reducible assumption
    | extract_lets
    | intro _
    | with_reducible apply State.cqEnable_keeps
    | refine Keeps.ofOccurs ?_
    | split
    | dsimp +zetaDelta only

theorem execPcieLinkChange_keeps (speed width : Nat) (s : State) : ∃ u, execPcieLinkChange speed width s = .next u ∧ s.Keeps u := by
  unfold execPcieLinkChange
  repeat' first
    | with_reducible assumption
    | extract_lets
    | intro _
    | with_reducible apply State.ev_keeps
    | with_reducible apply Keeps.set
    | with_reducible apply Keeps.setIf
    | with_reducible apply Keeps.ite
    | refine Keeps.ofOccurs ?_
    | split
    | dsimp +zetaDelta only

theorem execD3hot_keeps (d3 : Bool) (s : State) : ∃ u, execD3hot d3 s = .next u ∧ s.Keeps u := by
  unfold execD3hot
  repeat' first
    | with_reducible assumption
    | extract_lets
    | intro _
    | with_reducible apply State.showRunning_keeps
    | with_reducible apply Keeps.put
    | refine Keeps.ofOccurs ?_
    | split
    | dsimp +zetaDelta only

end Sys2Proof.Machine
end

