-- ==== Sys2Proof/Laws/KeepsModes.lean ====
section
/-! SUPPORT. What the operations and commands of Machine/Modes.lean keep. -/

namespace Sys2Proof.Machine
open Reg Hid

theorem State.modeRefuse_keeps {s₀ : State} {s : State} {t mode reason : Nat} (hk : s₀.Keeps s) : s₀.Keeps (State.modeRefuse s t mode reason) := by
  unfold State.modeRefuse
  repeat' first
    | with_reducible assumption
    | extract_lets
    | intro _
    | with_reducible apply State.ev_keeps
    | with_reducible apply Keeps.set
    | split
    | dsimp +zetaDelta only

theorem State.modeRequest_keeps {s₀ : State} {s : State} {t mode : Nat} (hk : s₀.Keeps s) : s₀.Keeps (State.modeRequest s t mode) := by
  unfold State.modeRequest
  repeat' first
    | with_reducible assumption
    | extract_lets
    | intro _
    | with_reducible apply State.modeRefuse_keeps
    | with_reducible apply Keeps.set
    | with_reducible apply Keeps.ite
    | split
    | dsimp +zetaDelta only

theorem execModeRequest_keeps (t mode : Nat) (s : State) : ∃ u, execModeRequest t mode s = .next u ∧ s.Keeps u := by
  unfold execModeRequest
  repeat' first
    | with_reducible assumption
    | extract_lets
    | intro _
    | with_reducible apply State.modeRequest_keeps
    | refine Keeps.ofOccurs ?_
    | split
    | dsimp +zetaDelta only

theorem State.handOver_keeps {s₀ : State} {s : State} {t : Nat} (hk : s₀.Keeps s) : s₀.Keeps (State.handOver s t) := by
  unfold State.handOver
  repeat' first
    | with_reducible assumption
    | extract_lets
    | intro _
    | with_reducible apply State.dropScan_keeps
    | with_reducible apply State.ev_keeps
    | with_reducible apply State.paceNote_keeps
    | with_reducible apply State.settle_keeps
    | with_reducible apply Keeps.each
    | with_reducible apply Keeps.set
    | with_reducible apply Keeps.ite
    | split
    | dsimp +zetaDelta only

theorem State.handOverDue_keeps {s₀ : State} {s : State} {t : Nat} (hk : s₀.Keeps s) : s₀.Keeps (State.handOverDue s t) := by
  unfold State.handOverDue
  repeat' first
    | with_reducible assumption
    | extract_lets
    | intro _
    | with_reducible apply State.handOver_keeps
    | with_reducible apply Keeps.ite
    | split
    | dsimp +zetaDelta only

theorem execModeHandOver_keeps (t : Nat) (s : State) : ∃ u, execModeHandOver t s = .next u ∧ s.Keeps u := by
  unfold execModeHandOver
  repeat' first
    | with_reducible assumption
    | extract_lets
    | intro _
    | with_reducible apply State.elapseNet_keeps
    | with_reducible apply State.handOver_keeps
    | refine Keeps.ofOccurs ?_
    | split
    | dsimp +zetaDelta only

theorem execStateCopyComplete_keeps (t : Nat) (s : State) : ∃ u, execStateCopyComplete t s = .next u ∧ s.Keeps u := by
  unfold execStateCopyComplete
  repeat' first
    | with_reducible assumption
    | extract_lets
    | intro _
    | with_reducible apply State.seedTask_keeps
    | with_reducible apply Keeps.each
    | with_reducible apply Keeps.set
    | refine Keeps.ofOccurs ?_
    | split
    | dsimp +zetaDelta only

end Sys2Proof.Machine
end

