-- ==== Sys2Proof/Laws/KeepsNetPort.lean ====
section
/-! SUPPORT. What the operations and commands of Machine/NetPort.lean keep. -/

namespace Sys2Proof.Machine
open Reg Hid

theorem execPhyPoll_keeps (p : Nat) (answer : Option (BitVec 16)) (full1000 : Bool) (s : State) : ∃ u, execPhyPoll p answer full1000 s = .next u ∧ s.Keeps u := by
  unfold execPhyPoll
  repeat' first
    | with_reducible assumption
    | extract_lets
    | intro _
    | with_reducible apply State.answer_keeps
    | with_reducible apply State.portChange_keeps
    | with_reducible apply State.put_keeps
    | with_reducible apply occurs_keeps
    | with_reducible apply Keeps.put
    | with_reducible apply Keeps.ite
    | refine Keeps.ofOccurs ?_
    | split
    | dsimp +zetaDelta only

theorem State.mdio_keeps {s₀ : State} {s : State} {phy reg data write : Nat} (hk : s₀.Keeps s) : s₀.Keeps (State.mdio s phy reg data write) := by
  unfold State.mdio
  repeat' first
    | with_reducible assumption
    | extract_lets
    | intro _
    | with_reducible apply State.set_keeps
    | with_reducible apply Keeps.set
    | with_reducible apply Keeps.ite
    | split
    | dsimp +zetaDelta only

theorem execMdioRead_keeps (phy reg : Nat) (s : State) : ∃ u, execMdioRead phy reg s = .next u ∧ s.Keeps u := by
  unfold execMdioRead
  repeat' first
    | with_reducible assumption
    | extract_lets
    | intro _
    | with_reducible apply State.mdio_keeps
    | with_reducible apply occurs_keeps
    | refine Keeps.ofOccurs ?_
    | split
    | dsimp +zetaDelta only

theorem execMdioWrite_keeps (phy reg : Nat) (v : BitVec 16) (s : State) : ∃ u, execMdioWrite phy reg v s = .next u ∧ s.Keeps u := by
  unfold execMdioWrite
  repeat' first
    | with_reducible assumption
    | extract_lets
    | intro _
    | with_reducible apply State.mdio_keeps
    | with_reducible apply occurs_keeps
    | refine Keeps.ofOccurs ?_
    | split
    | dsimp +zetaDelta only

theorem execMdioAccessDone_keeps (answer : Option (BitVec 16)) (s : State) : ∃ u, execMdioAccessDone answer s = .next u ∧ s.Keeps u := by
  unfold execMdioAccessDone
  repeat' first
    | with_reducible assumption
    | extract_lets
    | intro _
    | with_reducible apply State.answer_keeps
    | with_reducible apply State.set_keeps
    | with_reducible apply occurs_keeps
    | with_reducible apply Keeps.set
    | with_reducible apply Keeps.ite
    | refine Keeps.ofOccurs ?_
    | split
    | dsimp +zetaDelta only

theorem execSendDelayRequest_keeps (p : Nat) (s : State) : ∃ u, execSendDelayRequest p s = .next u ∧ s.Keeps u := by
  unfold execSendDelayRequest
  repeat' first
    | with_reducible assumption
    | extract_lets
    | intro _
    | with_reducible apply State.elapseTo_keeps
    | with_reducible apply State.ev_keeps
    | with_reducible apply State.raise_keeps
    | with_reducible apply State.set_keeps
    | with_reducible apply State.transmit_keeps
    | with_reducible apply occurs_keeps
    | with_reducible apply Keeps.set
    | with_reducible apply Keeps.raise
    | with_reducible apply Keeps.ite
    | refine Keeps.ofOccurs ?_
    | split
    | dsimp +zetaDelta only

theorem execDelayRequest_keeps (p : Nat) (fr : NetFrame) (sfd : Nat) (s : State) : ∃ u, execDelayRequest p fr sfd s = .next u ∧ s.Keeps u := by
  unfold execDelayRequest
  repeat' first
    | with_reducible assumption
    | extract_lets
    | intro _
    | with_reducible apply State.transmit_keeps
    | with_reducible apply occurs_keeps
    | refine Keeps.ofOccurs ?_
    | split
    | dsimp +zetaDelta only

theorem State.delayDone_keeps {s₀ : State} {s : State} {p : Nat} (hk : s₀.Keeps s) : s₀.Keeps (State.delayDone s p) := by
  unfold State.delayDone
  repeat' first
    | with_reducible assumption
    | extract_lets
    | intro _
    | with_reducible apply State.ev_keeps
    | with_reducible apply State.judgePort_keeps
    | with_reducible apply State.listenTimer_keeps
    | with_reducible apply State.portLong_keeps
    | with_reducible apply State.set_keeps
    | with_reducible apply Keeps.set
    | with_reducible apply Keeps.ite
    | split
    | dsimp +zetaDelta only

theorem execDelayResponse_keeps (p : Nat) (fr : NetFrame) (sfd : Nat) (s : State) : ∃ u, execDelayResponse p fr sfd s = .next u ∧ s.Keeps u := by
  unfold execDelayResponse
  repeat' first
    | with_reducible assumption
    | extract_lets
    | intro _
    | with_reducible apply State.delayDone_keeps
    | with_reducible apply State.ev_keeps
    | with_reducible apply State.raise_keeps
    | with_reducible apply State.set_keeps
    | with_reducible apply occurs_keeps
    | with_reducible apply Keeps.set
    | with_reducible apply Keeps.raise
    | with_reducible apply Keeps.ite
    | refine Keeps.ofOccurs ?_
    | split
    | dsimp +zetaDelta only

theorem execDelayMeasurementRetry_keeps (p : Nat) (s : State) : ∃ u, execDelayMeasurementRetry p s = .next u ∧ s.Keeps u := by
  unfold execDelayMeasurementRetry
  repeat' first
    | with_reducible assumption
    | extract_lets
    | intro _
    | with_reducible apply State.elapseTo_keeps
    | with_reducible apply State.set_keeps
    | with_reducible apply occurs_keeps
    | with_reducible apply Keeps.set
    | refine Keeps.ofOccurs ?_
    | split
    | dsimp +zetaDelta only

end Sys2Proof.Machine
end

