-- ==== Sys2Proof/Laws/KeepsNetSend.lean ====
section
/-! SUPPORT. What the operations and commands of Machine/NetSend.lean keep. -/

namespace Sys2Proof.Machine
open Reg Hid

theorem State.takeData_keeps {s₀ : State} {s : State} {f i chan k : Nat} (hk : s₀.Keeps s) : s₀.Keeps (State.takeData s f i chan k) := by
  unfold State.takeData
  repeat' first
    | with_reducible assumption
    | extract_lets
    | intro _
    | with_reducible apply State.showFlow_keeps
    | with_reducible apply Keeps.set
    | with_reducible apply Keeps.put
    | with_reducible apply Keeps.setIf
    | with_reducible apply Keeps.setBytes
    | with_reducible apply Keeps.ite
    | split
    | dsimp +zetaDelta only

theorem State.sendHeld_keeps {s₀ : State} {s : State} {ch : Nat} {r : Rod} (hk : s₀.Keeps s) : s₀.Keeps (State.sendHeld s ch r) := by
  unfold State.sendHeld
  repeat' first
    | with_reducible assumption
    | extract_lets
    | intro _
    | with_reducible apply State.transmit_keeps
    | with_reducible apply Keeps.each
    | with_reducible apply Keeps.ite
    | split
    | dsimp +zetaDelta only

theorem State.missed_keeps {s₀ : State} {s : State} {f reason : Nat} (hk : s₀.Keeps s) : s₀.Keeps (State.missed s f reason) := by
  unfold State.missed
  repeat' first
    | with_reducible assumption
    | extract_lets
    | intro _
    | with_reducible apply State.ev_keeps
    | with_reducible apply Keeps.inc
    | with_reducible apply Keeps.raise
    | with_reducible apply Keeps.setIf
    | split
    | dsimp +zetaDelta only

theorem execSendRod_keeps (ch i : Nat) (s : State) : ∃ u, execSendRod ch i s = .next u ∧ s.Keeps u := by
  unfold execSendRod
  extract_lets r k
  refine Keeps.ofOccurs ?_
  intro w hw
  extract_lets due v ready
  have hv : s.Keeps v := State.elapseNet_keeps hw
  split
  · exact State.checkFailure_keeps hv
  · split
    · exact State.ctxCheck_keeps hv
    · split
      · exact State.missed_keeps hv
      · have hr : ∀ x, ready = some x → s.Keeps x := by
          intro x hx
          unfold ready at hx
          split at hx
          · cases hx; exact hv
          · rw [Option.map_eq_some_iff] at hx
            obtain ⟨n, -, rfl⟩ := hx
            exact State.takeData_keeps hv
        generalize ready = z at hr
        cases z with
        | some x => exact Keeps.setIf (State.sendHeld_keeps (hr x rfl))
        | none => exact State.missed_keeps hv

theorem execSyncRodSend_keeps (ch i : Nat) (s : State) : ∃ u, execSyncRodSend ch i s = .next u ∧ s.Keeps u := by
  unfold execSyncRodSend
  repeat' first
    | with_reducible assumption
    | extract_lets
    | intro _
    | with_reducible apply State.checkFailure_keeps
    | with_reducible apply State.elapseNet_keeps
    | with_reducible apply State.start_keeps
    | with_reducible apply State.transmit_keeps
    | with_reducible apply Keeps.each
    | with_reducible apply Keeps.ite
    | refine Keeps.ofOccurs ?_
    | split
    | dsimp +zetaDelta only

theorem execStatusRodSend_keeps (ch i : Nat) (s : State) : ∃ u, execStatusRodSend ch i s = .next u ∧ s.Keeps u := by
  unfold execStatusRodSend
  repeat' first
    | with_reducible assumption
    | extract_lets
    | intro _
    | with_reducible apply State.checkFailure_keeps
    | with_reducible apply State.elapseNet_keeps
    | with_reducible apply State.start_keeps
    | with_reducible apply State.transmit_keeps
    | with_reducible apply Keeps.each
    | with_reducible apply Keeps.ite
    | refine Keeps.ofOccurs ?_
    | split
    | dsimp +zetaDelta only

theorem State.showOpen_keeps {s₀ : State} {s : State} (hk : s₀.Keeps s) : s₀.Keeps (State.showOpen s) := by
  unfold State.showOpen
  repeat' first
    | with_reducible assumption
    | extract_lets
    | intro _
    | with_reducible apply Keeps.each
    | with_reducible apply Keeps.set
    | split
    | dsimp +zetaDelta only

theorem State.openSend_keeps {s₀ s : State} {ch : Nat} {r : Rod} {stop : Nat} {stuck : List Nat} {q : List (Nat × NetFrame)}
    (hk : s₀.Keeps s) : s₀.Keeps (State.openSend s ch r stop stuck q).1 := by
  induction q generalizing s stuck with
  | nil => exact hk
  | cons x q ih =>
    obtain ⟨k, f⟩ := x
    rw [State.openSend]
    extract_lets ps t x
    split
    · exact ih hk
    · exact ih (Keeps.each hk fun _ _ h => State.transmit_keeps (Keeps.set h))

theorem State.openFlush_keeps {s₀ : State} {s : State} {ch : Nat} (hk : s₀.Keeps s) : s₀.Keeps (State.openFlush s ch) := by
  unfold State.openFlush
  repeat' first
    | with_reducible assumption
    | extract_lets
    | intro _
    | with_reducible apply State.checkFailure_keeps
    | with_reducible apply State.openSend_keeps
    | with_reducible apply State.showOpen_keeps
    | with_reducible apply State.start_keeps
    | with_reducible apply Keeps.ite
    | split
    | with_reducible apply Keeps.rest
    | dsimp +zetaDelta only

theorem execOpenRod_keeps (ch i : Nat) (s : State) : ∃ u, execOpenRod ch i s = .next u ∧ s.Keeps u := by
  unfold execOpenRod
  repeat' first
    | with_reducible assumption
    | extract_lets
    | intro _
    | with_reducible apply State.checkFailure_keeps
    | with_reducible apply State.elapseNet_keeps
    | with_reducible apply State.openFlush_keeps
    | with_reducible apply State.start_keeps
    | with_reducible apply Keeps.ite
    | refine Keeps.ofOccurs ?_
    | split
    | dsimp +zetaDelta only

theorem execForward_keeps (p : Nat) (fr : NetFrame) (sfd : Nat) (s : State) : ∃ u, execForward p fr sfd s = .next u ∧ s.Keeps u := by
  unfold execForward
  repeat' first
    | with_reducible assumption
    | extract_lets
    | intro _
    | with_reducible apply State.checkFailure_keeps
    | with_reducible apply State.ctxCheck_keeps
    | with_reducible apply State.elapseNet_keeps
    | with_reducible apply State.fcsFailure_keeps
    | with_reducible apply State.hdrCrcFailure_keeps
    | with_reducible apply State.start_keeps
    | with_reducible apply State.transmit_keeps
    | with_reducible apply Keeps.ite
    | refine Keeps.ofOccurs ?_
    | split
    | dsimp +zetaDelta only

end Sys2Proof.Machine
end

