-- ==== Sys2Proof/Laws/KeepsNetRecv.lean ====
section
/-! SUPPORT. What the operations and commands of Machine/NetRecv.lean keep. -/

namespace Sys2Proof.Machine
open Reg Hid

theorem State.laneAccept_keeps {s₀ : State} {s : State} {f : Nat} {fr : NetFrame} {fur : Int} {l : Lane} (hk : s₀.Keeps s) : s₀.Keeps (State.laneAccept s f fr fur l) := by
  unfold State.laneAccept
  repeat' first
    | with_reducible assumption
    | extract_lets
    | intro _
    | with_reducible apply State.set_keeps
    | with_reducible apply State.zero_keeps
    | with_reducible apply Keeps.set
    | with_reducible apply Keeps.setBytes
    | with_reducible apply Keeps.zero
    | split
    | dsimp +zetaDelta only

theorem State.rejectFlow_keeps {s₀ : State} {s : State} {f : Nat} {why : LaneCheck} {mask a b : Nat} (hk : s₀.Keeps s) : s₀.Keeps (State.rejectFlow s f why mask a b) := by
  unfold State.rejectFlow
  repeat' first
    | with_reducible assumption
    | extract_lets
    | intro _
    | with_reducible apply State.ev_keeps
    | with_reducible apply State.inc_keeps
    | with_reducible apply State.raise_keeps
    | with_reducible apply Keeps.inc
    | with_reducible apply Keeps.raise
    | split
    | dsimp +zetaDelta only

theorem State.rejectSafety_keeps {s₀ : State} {s : State} {f : Nat} {fr : NetFrame} {fur : Int} (hk : s₀.Keeps s) : s₀.Keeps (State.rejectSafety s f fr fur) := by
  unfold State.rejectSafety
  repeat' first
    | with_reducible assumption
    | extract_lets
    | intro _
    | with_reducible apply State.rejectFlow_keeps
    | split
    | dsimp +zetaDelta only

theorem State.safetyFrame_keeps {s₀ : State} {s : State} {f : Nat} {fr : NetFrame} {fur : Int} (hk : s₀.Keeps s) : s₀.Keeps (State.safetyFrame s f fr fur) := by
  unfold State.safetyFrame
  repeat' first
    | with_reducible assumption
    | extract_lets
    | intro _
    | with_reducible apply State.each_keeps
    | with_reducible apply State.holdCopy_keeps
    | with_reducible apply State.laneAccept_keeps
    | with_reducible apply State.rejectSafety_keeps
    | with_reducible apply Keeps.each
    | with_reducible apply Keeps.ite
    | split
    | dsimp +zetaDelta only

theorem State.plainFrame_keeps {s₀ : State} {s : State} {f : Nat} {fr : NetFrame} {fur : Int} (hk : s₀.Keeps s) : s₀.Keeps (State.plainFrame s f fr fur) := by
  unfold State.plainFrame
  repeat' first
    | with_reducible assumption
    | extract_lets
    | intro _
    | with_reducible apply State.holdCopy_keeps
    | with_reducible apply State.rejectFlow_keeps
    | with_reducible apply Keeps.ite
    | split
    | dsimp +zetaDelta only

theorem State.rodFrame_keeps {s₀ : State} {s : State} {p sfd i : Nat} {r : Rod} {f : Int} {fr : NetFrame} (hk : s₀.Keeps s) : s₀.Keeps (State.rodFrame s p sfd i r f fr).1 := by
  unfold State.rodFrame
  repeat' first
    | with_reducible apply State.ctxCheck_keeps
    | with_reducible assumption
    | extract_lets
    | intro _
    | with_reducible apply State.checkFailure_keeps
    | with_reducible apply State.fcsFailure_keeps
    | with_reducible apply State.hdrCrcFailure_keeps
    | with_reducible apply State.headerMismatch_keeps
    | with_reducible apply State.noteValid_keeps
    | with_reducible apply Keeps.inc
    | with_reducible apply Keeps.ite
    | split
    | dsimp +zetaDelta only

theorem State.noRod_keeps {s₀ : State} {s : State} {p sfd : Nat} {fr : NetFrame} {a : Int} (hk : s₀.Keeps s) : s₀.Keeps (State.noRod s p sfd fr a) := by
  unfold State.noRod
  repeat' first
    | with_reducible assumption
    | extract_lets
    | intro _
    | with_reducible apply State.fcsFailure_keeps
    | with_reducible apply State.outsideWindow_keeps
    | with_reducible apply Keeps.ite
    | split
    | dsimp +zetaDelta only

theorem State.dataFrame_keeps {s₀ : State} {s : State} {p : Nat} {fr : NetFrame} {sfd : Nat} (hk : s₀.Keeps s) : s₀.Keeps (State.dataFrame s p fr sfd) := by
  unfold State.dataFrame
  repeat' first
    | with_reducible assumption
    | extract_lets
    | intro _
    | with_reducible apply State.collision_keeps
    | with_reducible apply State.confirmCold_keeps
    | with_reducible apply State.elapseNet_keeps
    | with_reducible apply State.heard_keeps
    | with_reducible apply State.noRod_keeps
    | with_reducible apply State.plainFrame_keeps
    | with_reducible apply State.rodFrame_keeps
    | with_reducible apply State.safetyFrame_keeps
    | with_reducible apply Keeps.ite
    | split
    | dsimp +zetaDelta only

theorem execDataFrame_keeps (p : Nat) (fr : NetFrame) (sfd : Nat) (s : State) : ∃ u, execDataFrame p fr sfd s = .next u ∧ s.Keeps u := by
  unfold execDataFrame
  repeat' first
    | with_reducible assumption
    | extract_lets
    | intro _
    | with_reducible apply State.dataFrame_keeps
    | with_reducible apply occurs_keeps
    | refine Keeps.ofOccurs ?_
    | split
    | dsimp +zetaDelta only

theorem State.flowEnd_keeps {s₀ : State} {s : State} {f fur : Nat} (hk : s₀.Keeps s) : s₀.Keeps (State.flowEnd s f fur) := by
  unfold State.flowEnd
  repeat' first
    | with_reducible assumption
    | extract_lets
    | intro _
    | with_reducible apply State.inc_keeps
    | with_reducible apply State.setAge_keeps
    | with_reducible apply State.set_keeps
    | with_reducible apply Keeps.set
    | with_reducible apply Keeps.inc
    | with_reducible apply Keeps.ite
    | split
    | dsimp +zetaDelta only

theorem execRodEnd_keeps (ch i : Nat) (s : State) : ∃ u, execRodEnd ch i s = .next u ∧ s.Keeps u := by
  unfold execRodEnd
  repeat' first
    | with_reducible assumption
    | extract_lets
    | intro _
    | with_reducible apply State.elapseNet_keeps
    | with_reducible apply State.flowEnd_keeps
    | with_reducible apply occurs_keeps
    | refine Keeps.ofOccurs ?_
    | split
    | dsimp +zetaDelta only

theorem State.payloadFault_keeps {s₀ : State} {s : State} {sender field p : Nat} (hk : s₀.Keeps s) : s₀.Keeps (State.payloadFault s sender field p) := by
  unfold State.payloadFault
  repeat' first
    | with_reducible assumption
    | extract_lets
    | intro _
    | with_reducible apply State.ev_keeps
    | with_reducible apply State.raise_keeps
    | with_reducible apply Keeps.raise
    | split
    | dsimp +zetaDelta only

theorem State.adopt_keeps {s₀ : State} {s : State} {sfd : Nat} {t : Int} {sender src attempt : Nat} (hk : s₀.Keeps s) : s₀.Keeps (State.adopt s sfd t sender src attempt) := by
  unfold State.adopt
  repeat' first
    | with_reducible assumption
    | extract_lets
    | intro _
    | with_reducible apply State.clearMeas_keeps
    | with_reducible apply State.ev_keeps
    | with_reducible apply State.set_keeps
    | with_reducible apply State.stepNet_keeps
    | with_reducible apply Keeps.set
    | split
    | dsimp +zetaDelta only

theorem State.syncWhileListening_keeps {s₀ : State} {s : State} {p : Nat} {fr : NetFrame} {sfd : Nat} (hk : s₀.Keeps s) : s₀.Keeps (State.syncWhileListening s p fr sfd) := by
  unfold State.syncWhileListening
  repeat' first
    | with_reducible assumption
    | extract_lets
    | intro _
    | with_reducible apply State.adopt_keeps
    | with_reducible apply State.heard_keeps
    | with_reducible apply State.payloadFault_keeps
    | with_reducible apply State.start_keeps
    | with_reducible apply Keeps.ite
    | split
    | dsimp +zetaDelta only

theorem State.measure_keeps {s₀ : State} {s : State} {l : Lane} {n : Nat} {m : Int} {rank : Nat} (hk : s₀.Keeps s) : s₀.Keeps (State.measure s l n m rank) := by
  unfold State.measure
  repeat' first
    | with_reducible assumption
    | extract_lets
    | intro _
    | with_reducible apply State.set_keeps
    | with_reducible apply Keeps.set
    | with_reducible apply Keeps.ite
    | split
    | dsimp +zetaDelta only

theorem State.syncElsewhere_keeps {s₀ : State} {s : State} {p : Nat} {fr : NetFrame} {sfd : Nat} (hk : s₀.Keeps s) : s₀.Keeps (State.syncElsewhere s p fr sfd) := by
  unfold State.syncElsewhere
  repeat' first
    | with_reducible assumption
    | extract_lets
    | intro _
    | with_reducible apply State.noRod_keeps
    | with_reducible apply State.rodFrame_keeps
    | split
    | dsimp +zetaDelta only

theorem State.syncInRod_keeps {s₀ : State} {s : State} {p : Nat} {fr : NetFrame} {sfd : Nat} (hk : s₀.Keeps s) : s₀.Keeps (State.syncInRod s p fr sfd) := by
  unfold State.syncInRod
  repeat' first
    | with_reducible assumption
    | extract_lets
    | intro _
    | with_reducible apply State.confirmCold_keeps
    | with_reducible apply State.measure_keeps
    | with_reducible apply State.outsideWindow_keeps
    | with_reducible apply State.payloadFault_keeps
    | with_reducible apply State.rodFrame_keeps
    | with_reducible apply State.start_keeps
    | with_reducible apply State.syncElsewhere_keeps
    | with_reducible apply Keeps.foldl
    | with_reducible apply Keeps.foldlState
    | with_reducible apply Keeps.ite
    | split
    | dsimp +zetaDelta only

theorem execSyncFrame_keeps (p : Nat) (fr : NetFrame) (sfd : Nat) (s : State) : ∃ u, execSyncFrame p fr sfd s = .next u ∧ s.Keeps u := by
  unfold execSyncFrame
  repeat' first
    | with_reducible assumption
    | extract_lets
    | intro _
    | with_reducible apply State.collision_keeps
    | with_reducible apply State.heard_keeps
    | with_reducible apply State.syncInRod_keeps
    | with_reducible apply State.syncWhileListening_keeps
    | with_reducible apply occurs_keeps
    | with_reducible apply Keeps.ite
    | refine Keeps.ofOccurs ?_
    | split
    | dsimp +zetaDelta only

theorem State.forwardCold_keeps {s₀ : State} {s : State} {p : Nat} {fr : NetFrame} {sfd : Nat} (hk : s₀.Keeps s) : s₀.Keeps (State.forwardCold s p fr sfd) := by
  unfold State.forwardCold
  repeat' first
    | with_reducible assumption
    | extract_lets
    | intro _
    | with_reducible apply State.elapseTo_keeps
    | with_reducible apply State.set_keeps
    | with_reducible apply State.transmit_keeps
    | with_reducible apply Keeps.set
    | with_reducible apply Keeps.ite
    | split
    | dsimp +zetaDelta only

theorem State.coldFrame_keeps {s₀ : State} {s : State} {p : Nat} {fr : NetFrame} {sfd : Nat} (hk : s₀.Keeps s) : s₀.Keeps (State.coldFrame s p fr sfd) := by
  unfold State.coldFrame
  repeat' first
    | with_reducible assumption
    | extract_lets
    | intro _
    | with_reducible apply State.adopt_keeps
    | with_reducible apply State.collision_keeps
    | with_reducible apply State.forwardCold_keeps
    | with_reducible apply State.heard_keeps
    | with_reducible apply State.integFail_keeps
    | with_reducible apply Keeps.ite
    | split
    | dsimp +zetaDelta only

theorem execColdstartFrame_keeps (p : Nat) (fr : NetFrame) (sfd : Nat) (s : State) : ∃ u, execColdstartFrame p fr sfd s = .next u ∧ s.Keeps u := by
  unfold execColdstartFrame
  repeat' first
    | with_reducible assumption
    | extract_lets
    | intro _
    | with_reducible apply State.coldFrame_keeps
    | with_reducible apply State.collision_keeps
    | with_reducible apply State.heard_keeps
    | with_reducible apply State.payloadFault_keeps
    | with_reducible apply occurs_keeps
    | with_reducible apply Keeps.ite
    | refine Keeps.ofOccurs ?_
    | split
    | dsimp +zetaDelta only

theorem State.openDrop_keeps {s₀ : State} {s : State} {ch why : Nat} (hk : s₀.Keeps s) : s₀.Keeps (State.openDrop s ch why) := by
  unfold State.openDrop
  repeat' first
    | with_reducible assumption
    | extract_lets
    | intro _
    | with_reducible apply State.ev_keeps
    | with_reducible apply State.raise_keeps
    | with_reducible apply Keeps.raise
    | split
    | dsimp +zetaDelta only

theorem State.openDeliver_keeps {s₀ : State} {s : State} {p : Nat} {fr : NetFrame} (hk : s₀.Keeps s) : s₀.Keeps (State.openDeliver s p fr) := by
  unfold State.openDeliver
  repeat' first
    | with_reducible assumption
    | extract_lets
    | intro _
    | with_reducible apply State.openDrop_keeps
    | with_reducible apply Keeps.ite
    | split
    | with_reducible apply Keeps.rest
    | dsimp +zetaDelta only

theorem execOpenFrame_keeps (p : Nat) (fr : NetFrame) (sfd : Nat) (s : State) : ∃ u, execOpenFrame p fr sfd s = .next u ∧ s.Keeps u := by
  unfold execOpenFrame
  repeat' first
    | with_reducible assumption
    | extract_lets
    | intro _
    | with_reducible apply State.checkFailure_keeps
    | with_reducible apply State.collision_keeps
    | with_reducible apply State.openDeliver_keeps
    | with_reducible apply State.openFlush_keeps
    | with_reducible apply occurs_keeps
    | with_reducible apply Keeps.ite
    | refine Keeps.ofOccurs ?_
    | split
    | with_reducible apply Keeps.rest
    | dsimp +zetaDelta only

end Sys2Proof.Machine
end

