-- ==== Sys2Proof/Laws/KeepsNetTime.lean ====
section
/-! SUPPORT. What the operations and commands of Machine/NetTime.lean keep. -/

namespace Sys2Proof.Machine
open Reg Hid

theorem State.showSync_keeps {s₀ : State} {s : State} {l : Lane} (hk : s₀.Keeps s) : s₀.Keeps (State.showSync s l) := by
  unfold State.showSync
  repeat' first
    | with_reducible assumption
    | extract_lets
    | intro _
    | with_reducible apply State.each_keeps
    | with_reducible apply State.put_keeps
    | with_reducible apply State.set_keeps
    | with_reducible apply Keeps.each
    | with_reducible apply Keeps.set
    | with_reducible apply Keeps.put
    | split
    | dsimp +zetaDelta only

theorem State.syncCorrection_keeps {s₀ : State} {s : State} (hk : s₀.Keeps s) : s₀.Keeps (State.syncCorrection s) := by
  unfold State.syncCorrection
  repeat' first
    | with_reducible assumption
    | extract_lets
    | intro _
    | with_reducible apply State.clearMeas_keeps
    | with_reducible apply State.integFail_keeps
    | with_reducible apply State.missed_keeps
    | with_reducible apply State.outOfSync_keeps
    | with_reducible apply State.put_keeps
    | with_reducible apply State.set_keeps
    | with_reducible apply State.showSync_keeps
    | with_reducible apply Keeps.set
    | with_reducible apply Keeps.put
    | with_reducible apply Keeps.optMap
    | with_reducible apply Keeps.ite
    | split
    | dsimp +zetaDelta only

theorem execSyncCorrection_keeps (s : State) : ∃ u, execSyncCorrection s = .next u ∧ s.Keeps u := by
  unfold execSyncCorrection
  repeat' first
    | with_reducible assumption
    | extract_lets
    | intro _
    | with_reducible apply State.elapseNet_keeps
    | with_reducible apply State.syncCorrection_keeps
    | with_reducible apply occurs_keeps
    | refine Keeps.ofOccurs ?_
    | split
    | dsimp +zetaDelta only

theorem State.realign_keeps {s₀ : State} {s : State} {l : Lane} {t : Nat} (hk : s₀.Keeps s) : s₀.Keeps (State.realign s l t) := by
  unfold State.realign
  repeat' first
    | with_reducible assumption
    | extract_lets
    | intro _
    | with_reducible apply State.ev_keeps
    | with_reducible apply State.raise_keeps
    | with_reducible apply State.set_keeps
    | with_reducible apply Keeps.set
    | with_reducible apply Keeps.raise
    | split
    | dsimp +zetaDelta only

theorem State.compareTimes_keeps {s₀ : State} {s : State} (hk : s₀.Keeps s) : s₀.Keeps (State.compareTimes s) := by
  unfold State.compareTimes
  repeat' first
    | with_reducible assumption
    | extract_lets
    | intro _
    | with_reducible apply State.each_keeps
    | with_reducible apply State.realign_keeps
    | with_reducible apply State.set_keeps
    | with_reducible apply Keeps.each
    | with_reducible apply Keeps.set
    | with_reducible apply Keeps.ite
    | split
    | dsimp +zetaDelta only

theorem State.applyCorrection_keeps {s₀ : State} {s : State} (hk : s₀.Keeps s) : s₀.Keeps (State.applyCorrection s) := by
  unfold State.applyCorrection
  repeat' first
    | with_reducible assumption
    | extract_lets
    | intro _
    | with_reducible apply State.ev_keeps
    | with_reducible apply State.raise_keeps
    | with_reducible apply State.set_keeps
    | with_reducible apply State.stepNet_keeps
    | with_reducible apply Keeps.set
    | with_reducible apply Keeps.raise
    | with_reducible apply Keeps.ite
    | split
    | dsimp +zetaDelta only

theorem State.bankSwitch_keeps {s₀ : State} {s : State} (hk : s₀.Keeps s) : s₀.Keeps (State.bankSwitch s) := by
  unfold State.bankSwitch
  repeat' first
    | with_reducible assumption
    | extract_lets
    | intro _
    | with_reducible apply State.ev_keeps
    | with_reducible apply State.raise_keeps
    | with_reducible apply State.set_keeps
    | with_reducible apply Keeps.set
    | with_reducible apply Keeps.raise
    | with_reducible apply Keeps.ite
    | split
    | dsimp +zetaDelta only

theorem State.syncAtBoundary_keeps {s₀ : State} {s : State} (hk : s₀.Keeps s) : s₀.Keeps (State.syncAtBoundary s) := by
  unfold State.syncAtBoundary
  repeat' first
    | with_reducible assumption
    | extract_lets
    | intro _
    | with_reducible apply State.attemptFailed_keeps
    | with_reducible apply State.enterSync_keeps
    | with_reducible apply State.ev_keeps
    | with_reducible apply State.integFail_keeps
    | with_reducible apply State.listen_keeps
    | with_reducible apply State.raise_keeps
    | with_reducible apply State.set_keeps
    | with_reducible apply Keeps.set
    | with_reducible apply Keeps.raise
    | with_reducible apply Keeps.ite
    | split
    | dsimp +zetaDelta only

theorem execFurlongBoundary_keeps (s : State) : ∃ u, execFurlongBoundary s = .next u ∧ s.Keeps u := by
  unfold execFurlongBoundary
  repeat' first
    | with_reducible assumption
    | extract_lets
    | intro _
    | with_reducible apply State.applyCorrection_keeps
    | with_reducible apply State.bankSwitch_keeps
    | with_reducible apply State.compareTimes_keeps
    | with_reducible apply State.elapseNet_keeps
    | with_reducible apply State.groupBoundary_keeps
    | with_reducible apply State.leaseBoundary_keeps
    | with_reducible apply State.reloadRods_keeps
    | with_reducible apply State.set_keeps
    | with_reducible apply State.syncAtBoundary_keeps
    | with_reducible apply occurs_keeps
    | with_reducible apply Keeps.set
    | with_reducible apply Keeps.ite
    | refine Keeps.ofOccurs ?_
    | split
    | dsimp +zetaDelta only

theorem execListenTimeout_keeps (s : State) : ∃ u, execListenTimeout s = .next u ∧ s.Keeps u := by
  unfold execListenTimeout
  repeat' first
    | with_reducible assumption
    | extract_lets
    | intro _
    | with_reducible apply State.each_keeps
    | with_reducible apply State.elapseTo_keeps
    | with_reducible apply State.ev_keeps
    | with_reducible apply State.listenTimer_keeps
    | with_reducible apply State.raise_keeps
    | with_reducible apply State.set_keeps
    | with_reducible apply State.stepNet_keeps
    | with_reducible apply State.transmit_keeps
    | with_reducible apply occurs_keeps
    | with_reducible apply Keeps.each
    | with_reducible apply Keeps.set
    | with_reducible apply Keeps.raise
    | with_reducible apply Keeps.ite
    | refine Keeps.ofOccurs ?_
    | split
    | dsimp +zetaDelta only

theorem State.tbCapture_keeps {s₀ : State} {s : State} (hk : s₀.Keeps s) : s₀.Keeps (State.tbCapture s) := by
  unfold State.tbCapture
  repeat' first
    | with_reducible assumption
    | extract_lets
    | intro _
    | with_reducible apply State.each_keeps
    | with_reducible apply State.set_keeps
    | with_reducible apply Keeps.each
    | with_reducible apply Keeps.set
    | split
    | dsimp +zetaDelta only

theorem execTbCapture_keeps (s : State) : ∃ u, execTbCapture s = .next u ∧ s.Keeps u := by
  unfold execTbCapture
  repeat' first
    | with_reducible assumption
    | extract_lets
    | intro _
    | with_reducible apply State.tbCapture_keeps
    | with_reducible apply occurs_keeps
    | refine Keeps.ofOccurs ?_
    | split
    | dsimp +zetaDelta only

theorem execWakeBurstRequest_keeps (reason : Nat) (s : State) : ∃ u, execWakeBurstRequest reason s = .next u ∧ s.Keeps u := by
  unfold execWakeBurstRequest
  repeat' first
    | with_reducible assumption
    | extract_lets
    | intro _
    | with_reducible apply State.set_keeps
    | with_reducible apply State.wakeBurst_keeps
    | with_reducible apply occurs_keeps
    | with_reducible apply Keeps.set
    | refine Keeps.ofOccurs ?_
    | split
    | dsimp +zetaDelta only

theorem execWakeFrameSend_keeps (s : State) : ∃ u, execWakeFrameSend s = .next u ∧ s.Keeps u := by
  unfold execWakeFrameSend
  repeat' first
    | with_reducible assumption
    | extract_lets
    | intro _
    | with_reducible apply State.each_keeps
    | with_reducible apply State.elapseTo_keeps
    | with_reducible apply State.set_keeps
    | with_reducible apply State.settle_keeps
    | with_reducible apply State.transmit_keeps
    | with_reducible apply occurs_keeps
    | with_reducible apply Keeps.each
    | with_reducible apply Keeps.set
    | with_reducible apply Keeps.ite
    | refine Keeps.ofOccurs ?_
    | split
    | dsimp +zetaDelta only

end Sys2Proof.Machine
end

