-- ==== Sys2Proof/Laws/KeepsHostCmd.lean ====
section
/-! SUPPORT. What the operations and commands of Machine/HostCmd.lean keep. -/

namespace Sys2Proof.Machine
open Reg Hid

theorem State.startRead_keeps {b : State} {s : State} {r op : Nat} {data : Option (List Byte)}
    {f : State → Desc → List Byte → State} (h : b.Keeps s) (hf : ∀ s d x, b.Keeps s → b.Keeps (f s d x)) :
    b.Keeps (s.startRead r op data f) := by
  unfold State.startRead
  refine State.start_keeps h fun s d h => ?_
  split
  · exact State.bufferFailed_keeps h
  · split
    · exact hf _ _ _ h
    · exact h

theorem execRingNop_keeps (r : Nat) (s : State) : ∃ u, execRingNop r s = .next u ∧ s.Keeps u := by
  unfold execRingNop
  repeat' first
    | with_reducible assumption
    | extract_lets
    | intro _
    | with_reducible apply State.finish_keeps
    | with_reducible apply State.start_keeps
    | refine Keeps.ofNext ?_
    | split
    | dsimp +zetaDelta only

theorem execFlowRead_keeps (r : Nat) (memOk : Bool) (s : State) : ∃ u, execFlowRead r memOk s = .next u ∧ s.Keeps u := by
  unfold execFlowRead
  repeat' first
    | with_reducible assumption
    | extract_lets
    | intro _
    | with_reducible apply State.answer_keeps
    | with_reducible apply State.start_keeps
    | refine Keeps.ofNext ?_
    | split
    | dsimp +zetaDelta only

theorem execFlowWrite_keeps (r : Nat) (data : Option (List Byte)) (s : State) : ∃ u, execFlowWrite r data s = .next u ∧ s.Keeps u := by
  unfold execFlowWrite
  repeat' first
    | with_reducible assumption
    | extract_lets
    | intro _
    | with_reducible apply State.ctxCheck_keeps
    | with_reducible apply State.finish_keeps
    | with_reducible apply State.sendReady_keeps
    | with_reducible apply State.startRead_keeps
    | with_reducible apply State.start_keeps
    | with_reducible apply Keeps.ite
    | refine Keeps.ofNext ?_
    | split
    | dsimp +zetaDelta only

theorem execOpenSend_keeps (r : Nat) (data : Option (List Byte)) (s : State) : ∃ u, execOpenSend r data s = .next u ∧ s.Keeps u := by
  unfold execOpenSend
  repeat' first
    | with_reducible assumption
    | extract_lets
    | intro _
    | with_reducible apply State.finish_keeps
    | with_reducible apply State.openDrop_keeps
    | with_reducible apply State.openFlush_keeps
    | with_reducible apply State.startRead_keeps
    | with_reducible apply Keeps.ite
    | refine Keeps.ofNext ?_
    | split
    | with_reducible apply Keeps.rest
    | dsimp +zetaDelta only

theorem State.deliverOpen_keeps {s₀ : State} {s : State} {d : Desc} {memOk : Bool} (hk : s₀.Keeps s) : s₀.Keeps (State.deliverOpen s d memOk) := by
  unfold State.deliverOpen
  repeat' first
    | with_reducible assumption
    | extract_lets
    | intro _
    | with_reducible apply State.await_keeps
    | with_reducible apply State.bufferFailed_keeps
    | with_reducible apply State.finish_keeps
    | with_reducible apply State.hostWrite_keeps
    | with_reducible apply Keeps.ite
    | split
    | with_reducible apply Keeps.rest
    | dsimp +zetaDelta only

theorem execOpenRecv_keeps (r : Nat) (memOk : Bool) (s : State) : ∃ u, execOpenRecv r memOk s = .next u ∧ s.Keeps u := by
  unfold execOpenRecv
  repeat' first
    | with_reducible assumption
    | extract_lets
    | intro _
    | with_reducible apply State.deliverOpen_keeps
    | with_reducible apply State.start_keeps
    | refine Keeps.ofNext ?_
    | split
    | dsimp +zetaDelta only

theorem execCanSend_keeps (r : Nat) (data : Option (List Byte)) (s : State) : ∃ u, execCanSend r data s = .next u ∧ s.Keeps u := by
  unfold execCanSend
  repeat' first
    | with_reducible assumption
    | extract_lets
    | intro _
    | with_reducible apply State.await_keeps
    | with_reducible apply State.canRequest_keeps
    | with_reducible apply State.finish_keeps
    | with_reducible apply State.startRead_keeps
    | with_reducible apply State.start_keeps
    | with_reducible apply Keeps.ite
    | refine Keeps.ofNext ?_
    | split
    | dsimp +zetaDelta only

theorem execCanWithdraw_keeps (r : Nat) (s : State) : ∃ u, execCanWithdraw r s = .next u ∧ s.Keeps u := by
  unfold execCanWithdraw
  repeat' first
    | with_reducible assumption
    | extract_lets
    | intro _
    | with_reducible apply State.canRemove_keeps
    | with_reducible apply State.finish_keeps
    | with_reducible apply State.start_keeps
    | with_reducible apply Keeps.ite
    | refine Keeps.ofNext ?_
    | split
    | dsimp +zetaDelta only

theorem execCanRead_keeps (r : Nat) (memOk : Bool) (s : State) : ∃ u, execCanRead r memOk s = .next u ∧ s.Keeps u := by
  unfold execCanRead
  repeat' first
    | with_reducible assumption
    | extract_lets
    | intro _
    | with_reducible apply State.answer_keeps
    | with_reducible apply State.start_keeps
    | refine Keeps.ofNext ?_
    | split
    | dsimp +zetaDelta only

theorem execCanRecover_keeps (r : Nat) (s : State) : ∃ u, execCanRecover r s = .next u ∧ s.Keeps u := by
  unfold execCanRecover
  repeat' first
    | with_reducible assumption
    | extract_lets
    | intro _
    | with_reducible apply State.canRecover_keeps
    | with_reducible apply State.outcome_keeps
    | with_reducible apply State.start_keeps
    | refine Keeps.ofNext ?_
    | split
    | dsimp +zetaDelta only

theorem execCanObjclr_keeps (r : Nat) (s : State) : ∃ u, execCanObjclr r s = .next u ∧ s.Keeps u := by
  unfold execCanObjclr
  repeat' first
    | with_reducible assumption
    | extract_lets
    | intro _
    | with_reducible apply State.objClear_keeps
    | with_reducible apply State.outcome_keeps
    | with_reducible apply State.start_keeps
    | refine Keeps.ofNext ?_
    | split
    | dsimp +zetaDelta only

theorem execSnapshot_keeps (r : Nat) (s : State) : ∃ u, execSnapshot r s = .next u ∧ s.Keeps u := by
  unfold execSnapshot
  repeat' first
    | with_reducible assumption
    | extract_lets
    | intro _
    | with_reducible apply State.await_keeps
    | with_reducible apply State.finish_keeps
    | with_reducible apply State.start_keeps
    | with_reducible apply Keeps.set
    | with_reducible apply Keeps.ite
    | refine Keeps.ofNext ?_
    | split
    | dsimp +zetaDelta only

theorem State.snapEnd_keeps {b : State} {s : State} {t : Nat} {f : State → Desc → State} (h : b.Keeps s)
    (hf : ∀ s d, b.Keeps s → b.Keeps (f s d)) : b.Keeps (s.snapEnd t f) := by
  unfold State.snapEnd
  extract_lets
  split
  · exact hf _ _ (Keeps.set h)
  · exact Keeps.set h

theorem execSnapshotCapture_keeps (t : Nat) (consistent memOk : Bool) (s : State) : ∃ u, execSnapshotCapture t consistent memOk s = .next u ∧ s.Keeps u := by
  unfold execSnapshotCapture
  repeat' first
    | with_reducible assumption
    | extract_lets
    | intro _
    | with_reducible apply State.answer_keeps
    | with_reducible apply State.finish_keeps
    | with_reducible apply State.snapEnd_keeps
    | with_reducible apply Keeps.set
    | with_reducible apply Keeps.ite
    | refine Keeps.ofOccurs ?_
    | split
    | dsimp +zetaDelta only

theorem State.snapCheck_keeps {s₀ : State} {s : State} {t : Nat} (hk : s₀.Keeps s) : s₀.Keeps (State.snapCheck s t) := by
  unfold State.snapCheck
  repeat' first
    | with_reducible assumption
    | extract_lets
    | intro _
    | with_reducible apply State.finish_keeps
    | with_reducible apply State.snapEnd_keeps
    | with_reducible apply Keeps.ite
    | split
    | dsimp +zetaDelta only

theorem execUnlockRelease_keeps (r : Nat) (s : State) : ∃ u, execUnlockRelease r s = .next u ∧ s.Keeps u := by
  unfold execUnlockRelease
  repeat' first
    | with_reducible assumption
    | extract_lets
    | intro _
    | with_reducible apply State.finish_keeps
    | with_reducible apply State.holdLost_keeps
    | with_reducible apply State.start_keeps
    | with_reducible apply State.unlockDrop_keeps
    | refine Keeps.ofNext ?_
    | split
    | dsimp +zetaDelta only

theorem State.setForce_keeps {s₀ : State} {s : State} {d : Desc} {bs : List Byte} (hk : s₀.Keeps s) : s₀.Keeps (State.setForce s d bs) := by
  unfold State.setForce
  repeat' first
    | with_reducible assumption
    | extract_lets
    | intro _
    | with_reducible apply State.debugRequest_keeps
    | with_reducible apply State.ev_keeps
    | with_reducible apply State.finish_keeps
    | with_reducible apply State.showForces_keeps
    | with_reducible apply Keeps.set
    | with_reducible apply Keeps.setBytes
    | with_reducible apply Keeps.ite
    | split
    | dsimp +zetaDelta only

theorem execForceSet_keeps (r : Nat) (data : Option (List Byte)) (s : State) : ∃ u, execForceSet r data s = .next u ∧ s.Keeps u := by
  unfold execForceSet
  repeat' first
    | with_reducible assumption
    | extract_lets
    | intro _
    | with_reducible apply State.setForce_keeps
    | with_reducible apply State.startRead_keeps
    | refine Keeps.ofNext ?_
    | split
    | dsimp +zetaDelta only

theorem execForceRemove_keeps (r : Nat) (s : State) : ∃ u, execForceRemove r s = .next u ∧ s.Keeps u := by
  unfold execForceRemove
  repeat' first
    | with_reducible assumption
    | extract_lets
    | intro _
    | with_reducible apply State.debugRequest_keeps
    | with_reducible apply State.finish_keeps
    | with_reducible apply State.removeForce_keeps
    | with_reducible apply State.start_keeps
    | with_reducible apply Keeps.each
    | with_reducible apply Keeps.ite
    | refine Keeps.ofNext ?_
    | split
    | dsimp +zetaDelta only

theorem execForceRead_keeps (r : Nat) (memOk : Bool) (s : State) : ∃ u, execForceRead r memOk s = .next u ∧ s.Keeps u := by
  unfold execForceRead
  repeat' first
    | with_reducible assumption
    | extract_lets
    | intro _
    | with_reducible apply State.answer_keeps
    | with_reducible apply State.debugRequest_keeps
    | with_reducible apply State.finish_keeps
    | with_reducible apply State.start_keeps
    | with_reducible apply Keeps.ite
    | refine Keeps.ofNext ?_
    | split
    | dsimp +zetaDelta only

theorem execDbgWrite_keeps (r : Nat) (s : State) : ∃ u, execDbgWrite r s = .next u ∧ s.Keeps u := by
  unfold execDbgWrite
  repeat' first
    | with_reducible assumption
    | extract_lets
    | intro _
    | with_reducible apply State.dbgTaskWrite_keeps
    | with_reducible apply State.finish_keeps
    | with_reducible apply State.start_keeps
    | with_reducible apply Keeps.ite
    | refine Keeps.ofNext ?_
    | split
    | dsimp +zetaDelta only

theorem execPstateReq_keeps (r : Nat) (s : State) : ∃ u, execPstateReq r s = .next u ∧ s.Keeps u := by
  unfold execPstateReq
  repeat' first
    | with_reducible assumption
    | extract_lets
    | intro _
    | with_reducible apply State.finish_keeps
    | with_reducible apply State.outcome_keeps
    | with_reducible apply State.psRequest_keeps
    | with_reducible apply State.start_keeps
    | with_reducible apply Keeps.ite
    | refine Keeps.ofNext ?_
    | split
    | dsimp +zetaDelta only

theorem execTaskRestart_keeps (r : Nat) (s : State) : ∃ u, execTaskRestart r s = .next u ∧ s.Keeps u := by
  unfold execTaskRestart
  repeat' first
    | with_reducible assumption
    | extract_lets
    | intro _
    | with_reducible apply State.finish_keeps
    | with_reducible apply State.outcome_keeps
    | with_reducible apply State.start_keeps
    | with_reducible apply State.taskRestart_keeps
    | with_reducible apply Keeps.ite
    | refine Keeps.ofNext ?_
    | split
    | dsimp +zetaDelta only

theorem execModeReq_keeps (r : Nat) (s : State) : ∃ u, execModeReq r s = .next u ∧ s.Keeps u := by
  unfold execModeReq
  repeat' first
    | with_reducible assumption
    | extract_lets
    | intro _
    | with_reducible apply State.modeRequest_keeps
    | with_reducible apply State.outcome_keeps
    | with_reducible apply State.start_keeps
    | refine Keeps.ofNext ?_
    | split
    | dsimp +zetaDelta only

theorem execBrakeMrst_keeps (r : Nat) (s : State) : ∃ u, execBrakeMrst r s = .next u ∧ s.Keeps u := by
  unfold execBrakeMrst
  repeat' first
    | with_reducible assumption
    | extract_lets
    | intro _
    | with_reducible apply State.brakeReset_keeps
    | with_reducible apply State.outcome_keeps
    | with_reducible apply State.start_keeps
    | refine Keeps.ofNext ?_
    | split
    | dsimp +zetaDelta only

theorem execWakeBurst_keeps (r : Nat) (s : State) : ∃ u, execWakeBurst r s = .next u ∧ s.Keeps u := by
  unfold execWakeBurst
  repeat' first
    | with_reducible assumption
    | extract_lets
    | intro _
    | with_reducible apply State.await_keeps
    | with_reducible apply State.finish_keeps
    | with_reducible apply State.start_keeps
    | with_reducible apply State.wakeBurst_keeps
    | with_reducible apply Keeps.ite
    | refine Keeps.ofNext ?_
    | split
    | dsimp +zetaDelta only

end Sys2Proof.Machine
end

