-- ==== Sys2Proof/Laws/KeepsAttest.lean ====
section
/-! SUPPORT. What the operations and commands of Machine/Attest.lean keep. -/

namespace Sys2Proof.Machine
open Reg Hid

theorem execAttest_keeps (r : Nat) (nonce : Option (List Byte)) (memOk : Bool) (s : State) : ∃ u, execAttest r nonce memOk s = .next u ∧ s.Keeps u := by
  unfold execAttest
  repeat' first
    | with_reducible assumption
    | extract_lets
    | intro _
    | with_reducible apply State.answer_keeps
    | with_reducible apply State.bufferFailed_keeps
    | with_reducible apply State.finish_keeps
    | with_reducible apply State.start_keeps
    | with_reducible apply Keeps.ite
    | refine Keeps.ofNext ?_
    | split
    | dsimp +zetaDelta only

theorem execIdentity_keeps (r : Nat) (memOk : Bool) (s : State) : ∃ u, execIdentity r memOk s = .next u ∧ s.Keeps u := by
  unfold execIdentity
  repeat' first
    | with_reducible assumption
    | extract_lets
    | intro _
    | with_reducible apply State.answer_keeps
    | with_reducible apply State.finish_keeps
    | with_reducible apply State.start_keeps
    | with_reducible apply Keeps.ite
    | refine Keeps.ofNext ?_
    | split
    | dsimp +zetaDelta only

theorem execUnlockChallenge_keeps (r : Nat) (memOk : Bool) (s : State) : ∃ u, execUnlockChallenge r memOk s = .next u ∧ s.Keeps u := by
  unfold execUnlockChallenge
  repeat' first
    | with_reducible assumption
    | extract_lets
    | intro _
    | with_reducible apply State.answer_keeps
    | with_reducible apply State.finish_keeps
    | with_reducible apply State.start_keeps
    | with_reducible apply Keeps.set
    | with_reducible apply Keeps.destroy
    | with_reducible apply Keeps.ite
    | refine Keeps.ofNext ?_
    | split
    | dsimp +zetaDelta only

theorem State.unlockRefuse_keeps {s₀ : State} {s : State} {d : Desc} {why : Nat} (hk : s₀.Keeps s) : s₀.Keeps (State.unlockRefuse s d why) := by
  unfold State.unlockRefuse
  repeat' first
    | with_reducible assumption
    | extract_lets
    | intro _
    | with_reducible apply State.ev_keeps
    | with_reducible apply State.finish_keeps
    | split
    | dsimp +zetaDelta only

theorem State.unlockWrong_keeps {s₀ : State} {s : State} {d : Desc} (hk : s₀.Keeps s) : s₀.Keeps (State.unlockWrong s d) := by
  unfold State.unlockWrong
  repeat' first
    | with_reducible assumption
    | extract_lets
    | intro _
    | with_reducible apply State.unlockRefuse_keeps
    | with_reducible apply Keeps.set
    | with_reducible apply Keeps.inc
    | with_reducible apply Keeps.raise
    | with_reducible apply Keeps.ite
    | split
    | dsimp +zetaDelta only

theorem State.unlockGrant_keeps {s₀ : State} {s : State} {d : Desc} {scope key : Nat} (hk : s₀.Keeps s) : s₀.Keeps (State.unlockGrant s d scope key) := by
  unfold State.unlockGrant
  repeat' first
    | with_reducible assumption
    | extract_lets
    | intro _
    | with_reducible apply State.ev_keeps
    | with_reducible apply State.finish_keeps
    | with_reducible apply Keeps.each
    | with_reducible apply Keeps.set
    | with_reducible apply Keeps.put
    | split
    | dsimp +zetaDelta only

theorem execUnlockResponse_keeps (r : Nat) (data : Option (List Byte)) (s : State) : ∃ u, execUnlockResponse r data s = .next u ∧ s.Keeps u := by
  unfold execUnlockResponse
  repeat' first
    | with_reducible assumption
    | extract_lets
    | intro _
    | with_reducible apply State.finish_keeps
    | with_reducible apply State.startRead_keeps
    | with_reducible apply State.unlockGrant_keeps
    | with_reducible apply State.unlockRefuse_keeps
    | with_reducible apply State.unlockWrong_keeps
    | with_reducible apply Keeps.set
    | with_reducible apply Keeps.ite
    | refine Keeps.ofNext ?_
    | split
    | dsimp +zetaDelta only

end Sys2Proof.Machine
end

