-- ==== Sys2Proof/Laws/KeepsBalance.lean ====
section
/-! SUPPORT. What the operations and commands of Machine/Balance.lean keep. -/

namespace Sys2Proof.Machine
open Reg Hid

theorem State.presentThird_keeps {s₀ : State} {s : State} {t : Nat} {l : Lane} {p v : Pres} (hk : s₀.Keeps s) : s₀.Keeps (State.presentThird s t l p v) := by
  unfold State.presentThird
  repeat' first
    | with_reducible assumption
    | extract_lets
    | intro _
    | with_reducible apply State.agreed_keeps
    | with_reducible apply State.balLast_keeps
    | with_reducible apply State.laneDissent_keeps
    | with_reducible apply State.takeVoted_keeps
    | with_reducible apply Keeps.set
    | with_reducible apply Keeps.setBal
    | with_reducible apply Keeps.optMap
    | with_reducible apply Keeps.ite
    | split
    | dsimp +zetaDelta only

theorem State.presentPair_keeps {s₀ : State} {s : State} {t : Nat} {l m : Lane} {p : Pres} (hk : s₀.Keeps s) : s₀.Keeps (State.presentPair s t l m p) := by
  unfold State.presentPair
  repeat' first
    | with_reducible assumption
    | extract_lets
    | intro _
    | with_reducible apply State.agreed_keeps
    | with_reducible apply State.balLast_keeps
    | with_reducible apply State.balanceDone_keeps
    | with_reducible apply State.laneDissent_keeps
    | with_reducible apply State.majorityAfter_keeps
    | with_reducible apply Keeps.each
    | with_reducible apply Keeps.set
    | with_reducible apply Keeps.setBal
    | with_reducible apply Keeps.ite
    | split
    | dsimp +zetaDelta only

theorem State.presentAlone_keeps {s₀ : State} {s : State} {t : Nat} {l : Lane} {p : Pres} (hk : s₀.Keeps s) : s₀.Keeps (State.presentAlone s t l p) := by
  unfold State.presentAlone
  repeat' first
    | with_reducible assumption
    | extract_lets
    | intro _
    | with_reducible apply State.balLast_keeps
    | with_reducible apply State.enterSafe_keeps
    | with_reducible apply State.noMajority_keeps
    | with_reducible apply Keeps.setBal
    | with_reducible apply Keeps.ite
    | split
    | dsimp +zetaDelta only

theorem State.present_keeps {s₀ : State} {s : State} {t : Nat} {l : Lane} {p : Pres} (hk : s₀.Keeps s) : s₀.Keeps (State.present s t l p) := by
  unfold State.present
  repeat' first
    | with_reducible assumption
    | extract_lets
    | intro _
    | with_reducible apply State.presentAlone_keeps
    | with_reducible apply State.presentPair_keeps
    | with_reducible apply State.presentThird_keeps
    | with_reducible apply Keeps.set
    | with_reducible apply Keeps.ite
    | split
    | dsimp +zetaDelta only

theorem State.verdictFault_keeps {s₀ : State} {s : State} {t : Nat} {l : Lane} {kind : Nat} (hk : s₀.Keeps s) : s₀.Keeps (State.verdictFault s t l kind) := by
  unfold State.verdictFault
  repeat' first
    | with_reducible assumption
    | extract_lets
    | intro _
    | with_reducible apply State.ev_keeps
    | with_reducible apply State.trigger_keeps
    | with_reducible apply Keeps.raise
    | split
    | dsimp +zetaDelta only

theorem State.exerciseOut_keeps {s₀ : State} {s : State} {t : Nat} {missing : List Lane} (hk : s₀.Keeps s) : s₀.Keeps (State.exerciseOut s t missing) := by
  unfold State.exerciseOut
  repeat' first
    | with_reducible assumption
    | extract_lets
    | intro _
    | with_reducible apply State.verdictFault_keeps
    | with_reducible apply Keeps.each
    | with_reducible apply Keeps.set
    | with_reducible apply Keeps.inc
    | with_reducible apply Keeps.ite
    | split
    | dsimp +zetaDelta only

theorem execPresentation_keeps (t : Nat) (l : Lane) (missing : List Lane) (s : State) : ∃ u, execPresentation t l missing s = .next u ∧ s.Keeps u := by
  unfold execPresentation
  repeat' first
    | with_reducible assumption
    | extract_lets
    | intro _
    | with_reducible apply State.exerciseOut_keeps
    | with_reducible apply State.lateDue_keeps
    | with_reducible apply State.present_keeps
    | with_reducible apply Keeps.setPres
    | with_reducible apply Keeps.ite
    | refine Keeps.ofOccurs ?_
    | split
    | dsimp +zetaDelta only

theorem execLateWindowClose_keeps (t : Nat) (s : State) : ∃ u, execLateWindowClose t s = .next u ∧ s.Keeps u := by
  unfold execLateWindowClose
  repeat' first
    | with_reducible assumption
    | extract_lets
    | intro _
    | with_reducible apply State.closeLate_keeps
    | with_reducible apply State.elapseTo_keeps
    | refine Keeps.ofOccurs ?_
    | split
    | dsimp +zetaDelta only

theorem State.compareVerdicts_keeps {s₀ : State} {s : State} {t : Nat} {vs : List (Lane × Verdict)} (hk : s₀.Keeps s) : s₀.Keeps (State.compareVerdicts s t vs) := by
  unfold State.compareVerdicts
  repeat' first
    | with_reducible assumption
    | extract_lets
    | intro _
    | with_reducible apply State.enterSafe_keeps
    | with_reducible apply State.noMajority_keeps
    | with_reducible apply State.verdictFault_keeps
    | with_reducible apply Keeps.each
    | with_reducible apply Keeps.setBal
    | with_reducible apply Keeps.ite
    | split
    | dsimp +zetaDelta only

theorem execVerdict_keeps (t : Nat) (l : Lane) (v : Verdict) (s : State) : ∃ u, execVerdict t l v s = .next u ∧ s.Keeps u := by
  unfold execVerdict
  repeat' first
    | with_reducible assumption
    | extract_lets
    | intro _
    | with_reducible apply State.compareVerdicts_keeps
    | with_reducible apply Keeps.setBal
    | with_reducible apply Keeps.ite
    | refine Keeps.ofOccurs ?_
    | split
    | dsimp +zetaDelta only

theorem execLaneEnableMinority_keeps (l : Lane) (c side grains : Nat) (atLaunch : Bool) (s : State) : ∃ u, execLaneEnableMinority l c side grains atLaunch s = .next u ∧ s.Keeps u := by
  unfold execLaneEnableMinority
  repeat' first
    | with_reducible assumption
    | extract_lets
    | intro _
    | with_reducible apply State.ev_keeps
    | with_reducible apply State.trigger_keeps
    | with_reducible apply Keeps.raise
    | refine Keeps.ofOccurs ?_
    | split
    | dsimp +zetaDelta only

theorem State.protoError_keeps {s₀ : State} {s : State} {link kind : Nat} {blamed : Option Lane} (hk : s₀.Keeps s) : s₀.Keeps (State.protoError s link kind blamed) := by
  unfold State.protoError
  repeat' first
    | with_reducible assumption
    | extract_lets
    | intro _
    | with_reducible apply State.ev_keeps
    | with_reducible apply State.trigger_keeps
    | with_reducible apply Keeps.raise
    | with_reducible apply Keeps.optMap
    | split
    | dsimp +zetaDelta only

theorem execExchangeHandshakeTimeout_keeps (link : Nat) (blamed : Option Lane) (s : State) : ∃ u, execExchangeHandshakeTimeout link blamed s = .next u ∧ s.Keeps u := by
  unfold execExchangeHandshakeTimeout
  repeat' first
    | with_reducible assumption
    | extract_lets
    | intro _
    | with_reducible apply State.protoError_keeps
    | with_reducible apply Keeps.set
    | refine Keeps.ofOccurs ?_
    | split
    | dsimp +zetaDelta only

theorem execWrongLengthTransfer_keeps (link : Nat) (blamed : Option Lane) (s : State) : ∃ u, execWrongLengthTransfer link blamed s = .next u ∧ s.Keeps u := by
  unfold execWrongLengthTransfer
  repeat' first
    | with_reducible assumption
    | extract_lets
    | intro _
    | with_reducible apply State.protoError_keeps
    | refine Keeps.ofOccurs ?_
    | split
    | dsimp +zetaDelta only

theorem State.maxClear_keeps {s₀ : State} {s : State} {t : Nat} (hk : s₀.Keeps s) : s₀.Keeps (State.maxClear s t) := by
  unfold State.maxClear
  repeat' first
    | with_reducible assumption
    | extract_lets
    | intro _
    | with_reducible apply Keeps.set
    | split
    | dsimp +zetaDelta only

theorem execTskMaxclr_keeps (t : Nat) (s : State) : ∃ u, execTskMaxclr t s = .next u ∧ s.Keeps u := by
  unfold execTskMaxclr
  repeat' first
    | with_reducible assumption
    | extract_lets
    | intro _
    | with_reducible apply State.maxClear_keeps
    | refine Keeps.ofOccurs ?_
    | split
    | dsimp +zetaDelta only

end Sys2Proof.Machine
end

