-- ==== Sys2Proof/Laws/KeepsReset.lean ====
section
/-! SUPPORT. What the operations and commands of Machine/Reset.lean keep. -/

namespace Sys2Proof.Machine
open Reg Hid

/-- The ranges of memory that a reset keeps lose no byte and gain none. -/
theorem unwritten_kept {js : List Junk} {rs : List (Nat × Nat)} {a : Nat} (h : inRanges rs a = true) :
    unwritten (rs.flatMap fun x => js.flatMap fun j => j.moved x.1 x.1 x.2) a = unwritten js a := by
  have out : ∀ (rs : List (Nat × Nat)), unwritten js a = 0 →
      unwritten (rs.flatMap fun x => js.flatMap fun j => j.moved x.1 x.1 x.2) a = 0 := by
    intro rs h0
    induction rs with
    | nil => rfl
    | cons x r ih =>
      rw [List.flatMap_cons]
      by_cases hx : x.1 ≤ a ∧ a < x.1 + x.2
      · rw [unwritten_moved_in hx ih, Nat.sub_add_cancel hx.1, h0]
      · rw [unwritten_moved_out hx, ih]
  induction rs with
  | nil => simp [inRanges] at h
  | cons x r ih =>
    rw [List.flatMap_cons]
    by_cases hx : x.1 ≤ a ∧ a < x.1 + x.2
    · by_cases h0 : unwritten js a = 0
      · rw [unwritten_moved_in hx (out r h0), Nat.sub_add_cancel hx.1]
      · rw [unwritten_moved_first hx (by rw [Nat.sub_add_cancel hx.1]; exact h0), Nat.sub_add_cancel hx.1]
    · rw [unwritten_moved_out hx]
      refine ih ?_
      simp only [inRanges, List.any_cons, Bool.or_eq_true, Bool.and_eq_true, decide_eq_true_eq] at h
      exact h.resolve_left hx

theorem State.remains_keeps {s₀ : State} {s : State} {keep : Nat} (hk : s₀.Keeps s) : s₀.Keeps (s.remains keep) := by
  unfold State.remains
  extract_lets v rs src r w
  have hv : s₀.Keeps v := Keeps.ite (Keeps.destroy hk) hk
  have hr : s₀.Keeps r := by
    refine Keeps.trans hv ⟨rfl, fun x => ?_, fun x => ?_⟩
    · rw [Keeps.tablesWf_iff] at x ⊢
      exact ⟨Sparse.rising_filter _ x.1, rfl, rfl, rfl, rfl, rfl, rfl⟩
    · rw [Memory.wf_iff] at x ⊢
      refine ⟨Sparse.rising_filter _ x.1, fun p hp => ?_⟩
      have hp' := List.mem_filter.1 hp
      show p.2 ≠ unwritten (rs.flatMap fun y => v.junk.flatMap fun j => j.moved y.1 y.1 y.2) p.1
      rw [unwritten_kept hp'.2]
      exact x.2 p hp'.1
  have hw : s₀.Keeps w := Keeps.destroy hr
  exact Keeps.ite (Keeps.each hw fun s n h => Keeps.each h fun s k h => Keeps.zero h) hw

theorem State.cold_keeps {s₀ : State} {s : State} {cause keep : Nat} (hk : s₀.Keeps s) : s₀.Keeps (State.cold s cause keep) := by
  unfold State.cold
  repeat' first
    | with_reducible assumption
    | extract_lets
    | intro _
    | with_reducible apply State.remains_keeps
    | with_reducible apply Keeps.set
    | split
    | dsimp +zetaDelta only

theorem State.deviceReset_keeps {s₀ : State} {s : State} {cause : Nat} (hk : s₀.Keeps s) : s₀.Keeps (State.deviceReset s cause) := by
  unfold State.deviceReset
  repeat' first
    | with_reducible assumption
    | extract_lets
    | intro _
    | with_reducible apply State.cold_keeps
    | with_reducible apply Keeps.set
    | split
    | dsimp +zetaDelta only

theorem State.pfailStep_keeps {s₀ : State} {s : State} (hk : s₀.Keeps s) : s₀.Keeps (State.pfailStep s) := by
  unfold State.pfailStep
  repeat' first
    | with_reducible assumption
    | extract_lets
    | intro _
    | with_reducible apply State.deviceReset_keeps
    | with_reducible apply State.saveOpTime_keeps
    | with_reducible apply Keeps.set
    | with_reducible apply Keeps.ite
    | split
    | dsimp +zetaDelta only

theorem State.startLanes_keeps {s₀ : State} {s : State} {fail : List Lane} (hk : s₀.Keeps s) : s₀.Keeps (State.startLanes s fail) := by
  unfold State.startLanes
  repeat' first
    | with_reducible assumption
    | extract_lets
    | intro _
    | with_reducible apply State.enterSafe_keeps
    | with_reducible apply State.selfCheck_keeps
    | with_reducible apply State.setLane_keeps
    | with_reducible apply Keeps.each
    | with_reducible apply Keeps.set
    | with_reducible apply Keeps.ite
    | split
    | with_reducible apply Keeps.rest
    | dsimp +zetaDelta only

theorem State.resumeOpTime_keeps {s₀ : State} {s : State} (hk : s₀.Keeps s) : s₀.Keeps (State.resumeOpTime s) := by
  unfold State.resumeOpTime
  repeat' first
    | with_reducible assumption
    | extract_lets
    | intro _
    | with_reducible apply State.ev_keeps
    | with_reducible apply State.setOpTime_keeps
    | with_reducible apply Keeps.raise
    | with_reducible apply Keeps.ite
    | split
    | dsimp +zetaDelta only

theorem State.countCycle_keeps {s₀ : State} {s : State} (hk : s₀.Keeps s) : s₀.Keeps (State.countCycle s) := by
  unfold State.countCycle
  repeat' first
    | with_reducible assumption
    | extract_lets
    | intro _
    | with_reducible apply Keeps.set
    | with_reducible apply Keeps.ite
    | split
    | dsimp +zetaDelta only

theorem State.wakeFaults_keeps {s₀ : State} {s : State} (hk : s₀.Keeps s) : s₀.Keeps (State.wakeFaults s) := by
  unfold State.wakeFaults
  repeat' first
    | with_reducible assumption
    | extract_lets
    | intro _
    | with_reducible apply State.enqueueRec_keeps
    | with_reducible apply State.ev_keeps
    | with_reducible apply Keeps.each
    | with_reducible apply Keeps.set
    | with_reducible apply Keeps.raise
    | with_reducible apply Keeps.ite
    | split
    | dsimp +zetaDelta only

theorem State.startWake_keeps {s₀ : State} {s : State} (hk : s₀.Keeps s) : s₀.Keeps (State.startWake s) := by
  unfold State.startWake
  repeat' first
    | with_reducible assumption
    | extract_lets
    | intro _
    | with_reducible apply State.ev_keeps
    | with_reducible apply State.showWake_keeps
    | with_reducible apply Keeps.raise
    | with_reducible apply Keeps.ite
    | split
    | dsimp +zetaDelta only

theorem State.release450_keeps {s₀ : State} {s : State} {devid side us : Nat} {fail : List Lane} (hk : s₀.Keeps s) : s₀.Keeps (State.release450 s devid side us fail) := by
  unfold State.release450
  repeat' first
    | with_reducible assumption
    | extract_lets
    | intro _
    | with_reducible apply State.countCycle_keeps
    | with_reducible apply State.ev_keeps
    | with_reducible apply State.resumeOpTime_keeps
    | with_reducible apply State.startLanes_keeps
    | with_reducible apply State.startWake_keeps
    | with_reducible apply State.wakeFaults_keeps
    | with_reducible apply Keeps.each
    | with_reducible apply Keeps.set
    | with_reducible apply Keeps.put
    | with_reducible apply Keeps.restore
    | split
    | dsimp +zetaDelta only

end Sys2Proof.Machine
end

