-- ==== Sys2Proof/Laws/KeepsCommit.lean ====
section
/-! SUPPORT. What the operations and commands of Machine/Commit.lean keep. -/

namespace Sys2Proof.Machine
open Reg Hid

theorem execRecordCommit_keeps (ok : Bool) (s : State) : ∃ u, execRecordCommit ok s = .next u ∧ s.Keeps u := by
  unfold execRecordCommit
  repeat' first
    | with_reducible assumption
    | extract_lets
    | intro _
    | with_reducible apply State.showQueue_keeps
    | with_reducible apply State.showNewest_keeps
    | with_reducible apply State.ev_keeps
    | with_reducible apply State.closeFounding_keeps
    | with_reducible apply State.exhausted_keeps
    | with_reducible apply State.reportLoss_keeps
    | with_reducible apply State.pfailStep_keeps
    | with_reducible apply Keeps.setBytes
    | with_reducible apply Keeps.destroy
    | with_reducible apply Keeps.raise
    | with_reducible apply Keeps.optMap
    | with_reducible apply Keeps.ite
    | refine Keeps.ofOccurs ?_
    | split
    | with_reducible apply Keeps.rest
    | dsimp +zetaDelta only

theorem execRecordRewrite_keeps (seq : Nat) (s : State) : ∃ u, execRecordRewrite seq s = .next u ∧ s.Keeps u := by
  unfold execRecordRewrite
  repeat' first
    | with_reducible assumption
    | extract_lets
    | intro _
    | with_reducible apply State.pfailStep_keeps
    | with_reducible apply Keeps.setBytes
    | with_reducible apply Keeps.ite
    | refine Keeps.ofOccurs ?_
    | split
    | with_reducible apply Keeps.rest
    | dsimp +zetaDelta only

end Sys2Proof.Machine
end

