-- ==== Sys2Proof/Laws/KeepsField.lean ====
section
/-! SUPPORT. What the operations and commands of Machine/Field.lean keep. -/

namespace Sys2Proof.Machine
open Reg Hid

theorem State.setLevel_keeps {s₀ : State} {s : State} {l : Lane} {c p : Nat} {v : Bool} (hk : s₀.Keeps s) : s₀.Keeps (State.setLevel s l c p v) := by
  unfold State.setLevel
  repeat' first
    | with_reducible assumption
    | extract_lets
    | intro _
    | with_reducible apply Keeps.put
    | with_reducible apply Keeps.setIf
    | split
    | dsimp +zetaDelta only

theorem State.discDue_keeps {s₀ : State} {s : State} {l : Lane} {c : Nat} (hk : s₀.Keeps s) : s₀.Keeps (State.discDue s l c) := by
  unfold State.discDue
  repeat' first
    | with_reducible assumption
    | extract_lets
    | intro _
    | with_reducible apply State.setDc_keeps
    | with_reducible apply Keeps.ite
    | split
    | dsimp +zetaDelta only

theorem execDebounceEnd_keeps (l : Lane) (c : Nat) (a b : Bool) (s : State) : ∃ u, execDebounceEnd l c a b s = .next u ∧ s.Keeps u := by
  unfold execDebounceEnd
  repeat' first
    | with_reducible assumption
    | extract_lets
    | intro _
    | with_reducible apply State.discDue_keeps
    | with_reducible apply State.elapseTo_keeps
    | with_reducible apply State.noteReadback_keeps
    | with_reducible apply State.setDc_keeps
    | with_reducible apply State.setLevel_keeps
    | with_reducible apply Keeps.each
    | with_reducible apply Keeps.put
    | with_reducible apply Keeps.ite
    | refine Keeps.ofOccurs ?_
    | split
    | dsimp +zetaDelta only

theorem execDiscrepancyTimeout_keeps (l : Lane) (c : Nat) (s : State) : ∃ u, execDiscrepancyTimeout l c s = .next u ∧ s.Keeps u := by
  unfold execDiscrepancyTimeout
  repeat' first
    | with_reducible assumption
    | extract_lets
    | intro _
    | with_reducible apply State.elapseTo_keeps
    | with_reducible apply State.setDc_keeps
    | refine Keeps.ofOccurs ?_
    | split
    | dsimp +zetaDelta only

theorem State.sdClockEvents_keeps {s₀ : State} {s : State} {c cause : Nat} (hk : s₀.Keeps s) : s₀.Keeps (State.sdClockEvents s c cause) := by
  unfold State.sdClockEvents
  repeat' first
    | with_reducible assumption
    | extract_lets
    | intro _
    | with_reducible apply State.ev_keeps
    | with_reducible apply Keeps.set
    | with_reducible apply Keeps.raise
    | with_reducible apply Keeps.ite
    | split
    | dsimp +zetaDelta only

theorem State.sdClockFault_keeps {s₀ : State} {s : State} {l : Lane} {c cause : Nat} (hk : s₀.Keeps s) : s₀.Keeps (State.sdClockFault s l c cause) := by
  unfold State.sdClockFault
  repeat' first
    | with_reducible assumption
    | extract_lets
    | intro _
    | with_reducible apply State.sdClockEvents_keeps
    | with_reducible apply Keeps.set
    | with_reducible apply Keeps.setIf
    | split
    | dsimp +zetaDelta only

theorem State.sdShift_keeps {s₀ : State} {s : State} {l : Lane} {c : Nat} (hk : s₀.Keeps s) : s₀.Keeps (State.sdShift s l c) := by
  unfold State.sdShift
  repeat' first
    | with_reducible assumption
    | extract_lets
    | intro _
    | with_reducible apply Keeps.set
    | split
    | dsimp +zetaDelta only

theorem State.sdOverEvent_keeps {s₀ : State} {s : State} {c src high : Nat} (hk : s₀.Keeps s) : s₀.Keeps (State.sdOverEvent s c src high) := by
  unfold State.sdOverEvent
  repeat' first
    | with_reducible assumption
    | extract_lets
    | intro _
    | with_reducible apply State.ev_keeps
    | with_reducible apply Keeps.raise
    | split
    | dsimp +zetaDelta only

theorem State.sdOverAlone_keeps {s₀ : State} {s : State} {c w : Nat} (hk : s₀.Keeps s) : s₀.Keeps (State.sdOverAlone s c w) := by
  unfold State.sdOverAlone
  repeat' first
    | with_reducible assumption
    | extract_lets
    | intro _
    | with_reducible apply State.sdOverEvent_keeps
    | with_reducible apply Keeps.set
    | with_reducible apply Keeps.ite
    | split
    | dsimp +zetaDelta only

theorem State.sdOverSeen_keeps {s₀ : State} {s : State} {l : Lane} {c w : Nat} {high : Bool} (hk : s₀.Keeps s) : s₀.Keeps (State.sdOverSeen s l c w high) := by
  unfold State.sdOverSeen
  repeat' first
    | with_reducible assumption
    | extract_lets
    | intro _
    | with_reducible apply State.sdOverEvent_keeps
    | with_reducible apply Keeps.set
    | with_reducible apply Keeps.put
    | with_reducible apply Keeps.ite
    | split
    | dsimp +zetaDelta only

theorem execSdWindowComplete_keeps (l : Lane) (c j sum edge loop : Nat) (s : State) : ∃ u, execSdWindowComplete l c j sum edge loop s = .next u ∧ s.Keeps u := by
  unfold execSdWindowComplete
  repeat' first
    | with_reducible assumption
    | extract_lets
    | intro _
    | with_reducible apply State.elapseTo_keeps
    | with_reducible apply State.sdClockFault_keeps
    | with_reducible apply State.sdOverAlone_keeps
    | with_reducible apply State.sdOverSeen_keeps
    | with_reducible apply State.sdShift_keeps
    | with_reducible apply Keeps.set
    | with_reducible apply Keeps.put
    | with_reducible apply Keeps.free
    | with_reducible apply Keeps.ite
    | refine Keeps.ofOccurs ?_
    | split
    | dsimp +zetaDelta only

theorem execSdClockFault_keeps (l : Lane) (c cause : Nat) (s : State) : ∃ u, execSdClockFault l c cause s = .next u ∧ s.Keeps u := by
  unfold execSdClockFault
  repeat' first
    | with_reducible assumption
    | extract_lets
    | intro _
    | with_reducible apply State.elapseTo_keeps
    | with_reducible apply State.sdClockFault_keeps
    | with_reducible apply Keeps.ite
    | refine Keeps.ofOccurs ?_
    | split
    | dsimp +zetaDelta only

theorem execSdClockRestored_keeps (l : Lane) (c j : Nat) (s : State) : ∃ u, execSdClockRestored l c j s = .next u ∧ s.Keeps u := by
  unfold execSdClockRestored
  repeat' first
    | with_reducible assumption
    | extract_lets
    | intro _
    | with_reducible apply State.elapseTo_keeps
    | with_reducible apply State.sdClockEvents_keeps
    | with_reducible apply Keeps.set
    | refine Keeps.ofOccurs ?_
    | split
    | dsimp +zetaDelta only

theorem State.speedPulse_keeps {s₀ : State} {s : State} {l : Lane} {c : Nat} {e : SpeedEdge} (hk : s₀.Keeps s) : s₀.Keeps (State.speedPulse s l c e) := by
  unfold State.speedPulse
  repeat' first
    | with_reducible assumption
    | extract_lets
    | intro _
    | with_reducible apply Keeps.set
    | with_reducible apply Keeps.put
    | with_reducible apply Keeps.ite
    | split
    | dsimp +zetaDelta only

theorem execSpeedEdgeAccepted_keeps (l : Lane) (c : Nat) (e : SpeedEdge) (s : State) : ∃ u, execSpeedEdgeAccepted l c e s = .next u ∧ s.Keeps u := by
  unfold execSpeedEdgeAccepted
  repeat' first
    | with_reducible assumption
    | extract_lets
    | intro _
    | with_reducible apply State.elapseTo_keeps
    | with_reducible apply State.speedPulse_keeps
    | with_reducible apply Keeps.set
    | with_reducible apply Keeps.put
    | with_reducible apply Keeps.setIf
    | with_reducible apply Keeps.ite
    | refine Keeps.ofOccurs ?_
    | split
    | dsimp +zetaDelta only

theorem execStandstill_keeps (l : Lane) (c : Nat) (s : State) : ∃ u, execStandstill l c s = .next u ∧ s.Keeps u := by
  unfold execStandstill
  repeat' first
    | with_reducible assumption
    | extract_lets
    | intro _
    | with_reducible apply State.elapseTo_keeps
    | with_reducible apply Keeps.set
    | refine Keeps.ofOccurs ?_
    | split
    | dsimp +zetaDelta only

theorem State.bankDown_keeps {s₀ : State} {s : State} {c : Nat} (hk : s₀.Keeps s) : s₀.Keeps (State.bankDown s c) := by
  unfold State.bankDown
  repeat' first
    | with_reducible assumption
    | extract_lets
    | intro _
    | with_reducible apply State.sdClockFault_keeps
    | with_reducible apply State.setDc_keeps
    | with_reducible apply Keeps.each
    | with_reducible apply Keeps.set
    | with_reducible apply Keeps.put
    | with_reducible apply Keeps.raise
    | with_reducible apply Keeps.ite
    | split
    | dsimp +zetaDelta only

theorem execBankSupplyFault_keeps (b : Nat) (s : State) : ∃ u, execBankSupplyFault b s = .next u ∧ s.Keeps u := by
  unfold execBankSupplyFault
  repeat' first
    | with_reducible assumption
    | extract_lets
    | intro _
    | with_reducible apply State.bankDown_keeps
    | with_reducible apply State.driveGroup_keeps
    | with_reducible apply State.ev_keeps
    | with_reducible apply State.noteReadback_keeps
    | with_reducible apply Keeps.each
    | with_reducible apply Keeps.set
    | refine Keeps.ofOccurs ?_
    | split
    | dsimp +zetaDelta only

theorem execBankSupplyRestored_keeps (b : Nat) (s : State) : ∃ u, execBankSupplyRestored b s = .next u ∧ s.Keeps u := by
  unfold execBankSupplyRestored
  repeat' first
    | with_reducible assumption
    | extract_lets
    | intro _
    | with_reducible apply State.ev_keeps
    | with_reducible apply Keeps.each
    | with_reducible apply Keeps.set
    | with_reducible apply Keeps.ite
    | refine Keeps.ofOccurs ?_
    | split
    | dsimp +zetaDelta only

end Sys2Proof.Machine
end

