-- ==== Sys2Proof/Laws/KeepsOlc.lean ====
section
/-! SUPPORT. What the operations and commands of Machine/Olc.lean keep. -/

namespace Sys2Proof.Machine
open Reg Hid

theorem State.loadChanged_keeps {s₀ : State} {s : State} {l : Lane} {im : LogicImage} (hk : s₀.Keeps s) : s₀.Keeps (State.loadChanged s l im) := by
  unfold State.loadChanged
  repeat' first
    | with_reducible assumption
    | extract_lets
    | intro _
    | with_reducible apply Keeps.each
    | with_reducible apply Keeps.setWords
    | split
    | dsimp +zetaDelta only

theorem State.olcArm_keeps {s₀ : State} {s : State} {im : LogicImage} (hk : s₀.Keeps s) : s₀.Keeps (State.olcArm s im) := by
  unfold State.olcArm
  repeat' first
    | with_reducible assumption
    | extract_lets
    | intro _
    | with_reducible apply State.ev_keeps
    | with_reducible apply State.olcReply_keeps
    | with_reducible apply State.settle_keeps
    | with_reducible apply Keeps.set
    | split
    | dsimp +zetaDelta only

theorem execOlcCopyConfirmed_keeps (l : Lane) (ok : Bool) (s : State) : ∃ u, execOlcCopyConfirmed l ok s = .next u ∧ s.Keeps u := by
  unfold execOlcCopyConfirmed
  repeat' first
    | with_reducible assumption
    | extract_lets
    | intro _
    | with_reducible apply State.loadChanged_keeps
    | with_reducible apply State.olcAbort_keeps
    | with_reducible apply State.olcArm_keeps
    | with_reducible apply Keeps.set
    | with_reducible apply Keeps.ite
    | refine Keeps.ofOccurs ?_
    | split
    | dsimp +zetaDelta only

theorem State.keepOld_keeps {s₀ : State} {s : State} {l : Lane} (hk : s₀.Keeps s) : s₀.Keeps (State.keepOld s l) := by
  unfold State.keepOld
  repeat' first
    | with_reducible assumption
    | extract_lets
    | intro _
    | with_reducible apply Keeps.each
    | with_reducible apply Keeps.copy
    | with_reducible apply Keeps.setCtx
    | with_reducible apply Keeps.ite
    | split
    | dsimp +zetaDelta only

theorem State.newVars_keeps {s₀ : State} {s : State} {old im : LogicImage} {l : Lane} (hk : s₀.Keeps s) : s₀.Keeps (State.newVars s old im l) := by
  unfold State.newVars
  repeat' first
    | with_reducible assumption
    | extract_lets
    | intro _
    | with_reducible apply State.initData_keeps
    | with_reducible apply Keeps.each
    | with_reducible apply Keeps.setWord
    | split
    | dsimp +zetaDelta only

theorem State.checkForce_keeps {s₀ : State} {was : List Nat} {s : State} {i : Nat} (hk : s₀.Keeps s) : s₀.Keeps (State.checkForce was s i) := by
  unfold State.checkForce
  repeat' first
    | with_reducible assumption
    | extract_lets
    | intro _
    | with_reducible apply State.dropForce_keeps
    | with_reducible apply Keeps.inc
    | with_reducible apply Keeps.wr
    | with_reducible apply Keeps.ite
    | split
    | dsimp +zetaDelta only

theorem execOlcSwitch_keeps (s : State) : ∃ u, execOlcSwitch s = .next u ∧ s.Keeps u := by
  unfold execOlcSwitch
  repeat' first
    | with_reducible assumption
    | extract_lets
    | intro _
    | with_reducible apply State.beginProbation_keeps
    | with_reducible apply State.checkForce_keeps
    | with_reducible apply State.elapseNet_keeps
    | with_reducible apply State.keepOld_keeps
    | with_reducible apply State.newVars_keeps
    | with_reducible apply State.setJournal_keeps
    | with_reducible apply State.showForces_keeps
    | with_reducible apply State.showImage_keeps
    | with_reducible apply State.showImages_keeps
    | with_reducible apply Keeps.each
    | with_reducible apply Keeps.set
    | with_reducible apply Keeps.put
    | refine Keeps.ofOccurs ?_
    | split
    | with_reducible apply Keeps.rest
    | dsimp +zetaDelta only

end Sys2Proof.Machine
end

