-- ==== Sys2Proof/Laws/KeepsLaunchOps.lean ====
section
/-! SUPPORT. What the operations and commands of Machine/LaunchOps.lean keep. -/

namespace Sys2Proof.Machine
open Reg Hid

theorem State.showPadFault_keeps {s₀ : State} {s : State} {c : Nat} (hk : s₀.Keeps s) : s₀.Keeps (State.showPadFault s c) := by
  unfold State.showPadFault
  repeat' first
    | with_reducible assumption
    | extract_lets
    | intro _
    | with_reducible apply Keeps.each
    | with_reducible apply Keeps.set
    | split
    | dsimp +zetaDelta only

theorem State.padClear_keeps {s₀ : State} {s : State} {c : Nat} (hk : s₀.Keeps s) : s₀.Keeps (State.padClear s c) := by
  unfold State.padClear
  repeat' first
    | with_reducible assumption
    | extract_lets
    | intro _
    | with_reducible apply State.showPadFault_keeps
    | with_reducible apply Keeps.set
    | with_reducible apply Keeps.ite
    | split
    | dsimp +zetaDelta only

theorem State.markLaunch_keeps {s₀ : State} {s : State} {c : Nat} (hk : s₀.Keeps s) : s₀.Keeps (State.markLaunch s c) := by
  unfold State.markLaunch
  repeat' first
    | with_reducible assumption
    | extract_lets
    | intro _
    | with_reducible apply Keeps.each
    | with_reducible apply Keeps.set
    | with_reducible apply Keeps.put
    | with_reducible apply Keeps.ite
    | split
    | dsimp +zetaDelta only

theorem State.launchChannel_keeps {s₀ : State} {s : State} {t c : Nat} (hk : s₀.Keeps s) : s₀.Keeps (State.launchChannel s t c) := by
  unfold State.launchChannel
  repeat' first
    | with_reducible assumption
    | extract_lets
    | intro _
    | with_reducible apply State.markLaunch_keeps
    | with_reducible apply State.padClear_keeps
    | with_reducible apply State.refuseAlone_keeps
    | with_reducible apply Keeps.each
    | with_reducible apply Keeps.set
    | with_reducible apply Keeps.put
    | with_reducible apply Keeps.ite
    | split
    | dsimp +zetaDelta only

theorem State.launch_keeps {s₀ : State} {s : State} {t : Nat} (hk : s₀.Keeps s) : s₀.Keeps (State.launch s t) := by
  unfold State.launch
  repeat' first
    | with_reducible assumption
    | extract_lets
    | intro _
    | with_reducible apply State.launchChannel_keeps
    | with_reducible apply State.putSafe_keeps
    | with_reducible apply Keeps.each
    | with_reducible apply Keeps.set
    | with_reducible apply Keeps.copy
    | with_reducible apply Keeps.ite
    | split
    | dsimp +zetaDelta only

theorem State.resetGroup_keeps {s₀ : State} {s : State} {g : Nat} (hk : s₀.Keeps s) : s₀.Keeps (State.resetGroup s g) := by
  unfold State.resetGroup
  repeat' first
    | with_reducible assumption
    | extract_lets
    | intro _
    | with_reducible apply State.summarise_keeps
    | with_reducible apply Keeps.each
    | with_reducible apply Keeps.set
    | with_reducible apply Keeps.ite
    | split
    | dsimp +zetaDelta only

theorem State.resetGroups_keeps {s₀ : State} {s : State} {gs : List Nat} (hk : s₀.Keeps s) : s₀.Keeps (State.resetGroups s gs) := by
  unfold State.resetGroups
  repeat' first
    | with_reducible assumption
    | extract_lets
    | intro _
    | with_reducible apply State.ev_keeps
    | with_reducible apply State.resetGroup_keeps
    | with_reducible apply State.settle_keeps
    | with_reducible apply Keeps.each
    | with_reducible apply Keeps.set
    | with_reducible apply Keeps.foldl
    | with_reducible apply Keeps.foldlState
    | with_reducible apply Keeps.ite
    | split
    | dsimp +zetaDelta only

theorem State.releaseHold_keeps {s₀ : State} {s : State} {g : Nat} {l : Lane} (hk : s₀.Keeps s) : s₀.Keeps (State.releaseHold s g l) := by
  unfold State.releaseHold
  repeat' first
    | with_reducible assumption
    | extract_lets
    | intro _
    | with_reducible apply Keeps.set
    | with_reducible apply Keeps.ite
    | split
    | dsimp +zetaDelta only

theorem State.followCommand_keeps {s₀ : State} {s : State} {g : Nat} {l : Lane} (hk : s₀.Keeps s) : s₀.Keeps (State.followCommand s g l) := by
  unfold State.followCommand
  repeat' first
    | with_reducible assumption
    | extract_lets
    | intro _
    | with_reducible apply Keeps.set
    | split
    | dsimp +zetaDelta only

theorem State.scheduleTest_keeps {s₀ : State} {s : State} {g t : Nat} (hk : s₀.Keeps s) : s₀.Keeps (State.scheduleTest s g t) := by
  unfold State.scheduleTest
  repeat' first
    | with_reducible assumption
    | extract_lets
    | intro _
    | with_reducible apply Keeps.set
    | with_reducible apply Keeps.free
    | with_reducible apply Keeps.ite
    | split
    | dsimp +zetaDelta only

theorem State.groupInstant_keeps {s₀ : State} {s : State} {t g : Nat} (hk : s₀.Keeps s) : s₀.Keeps (State.groupInstant s t g) := by
  unfold State.groupInstant
  repeat' first
    | with_reducible assumption
    | extract_lets
    | intro _
    | with_reducible apply State.driveGroup_keeps
    | with_reducible apply State.followCommand_keeps
    | with_reducible apply State.releaseHold_keeps
    | with_reducible apply State.scheduleTest_keeps
    | with_reducible apply State.summarise_keeps
    | with_reducible apply Keeps.each
    | with_reducible apply Keeps.set
    | with_reducible apply Keeps.put
    | with_reducible apply Keeps.ite
    | split
    | dsimp +zetaDelta only

theorem State.groupsInstant_keeps {s₀ : State} {s : State} {t : Nat} (hk : s₀.Keeps s) : s₀.Keeps (State.groupsInstant s t) := by
  unfold State.groupsInstant
  repeat' first
    | with_reducible assumption
    | extract_lets
    | intro _
    | with_reducible apply State.groupInstant_keeps
    | with_reducible apply State.resetGroups_keeps
    | with_reducible apply Keeps.each
    | with_reducible apply Keeps.set
    | split
    | dsimp +zetaDelta only

theorem State.padFault_keeps {s₀ : State} {s : State} {c p : Nat} (hk : s₀.Keeps s) : s₀.Keeps (State.padFault s c p) := by
  unfold State.padFault
  repeat' first
    | with_reducible assumption
    | extract_lets
    | intro _
    | with_reducible apply State.ev_keeps
    | with_reducible apply State.showPadFault_keeps
    | with_reducible apply Keeps.set
    | with_reducible apply Keeps.raise
    | split
    | dsimp +zetaDelta only

theorem State.exercisePad_keeps {s₀ : State} {s : State} {t : Nat} {miss : Bool} (hk : s₀.Keeps s) : s₀.Keeps (State.exercisePad s t miss) := by
  unfold State.exercisePad
  repeat' first
    | with_reducible assumption
    | extract_lets
    | intro _
    | with_reducible apply State.padFault_keeps
    | with_reducible apply Keeps.set
    | with_reducible apply Keeps.ite
    | split
    | dsimp +zetaDelta only

theorem State.exercise_keeps {s₀ : State} {s : State} {t : Nat} {miss : Bool} (hk : s₀.Keeps s) : s₀.Keeps (State.exercise s t miss) := by
  unfold State.exercise
  repeat' first
    | with_reducible assumption
    | extract_lets
    | intro _
    | with_reducible apply State.exercisePad_keeps
    | with_reducible apply Keeps.set
    | with_reducible apply Keeps.ite
    | split
    | dsimp +zetaDelta only

end Sys2Proof.Machine
end

