-- ==== Sys2Proof/Laws/KeepsTwinOps.lean ====
section
/-! SUPPORT. What the operations and commands of Machine/TwinOps.lean keep. -/

namespace Sys2Proof.Machine
open Reg Hid

theorem State.trackRun_keeps {s₀ : State} {s : State} (hk : s₀.Keeps s) : s₀.Keeps (State.trackRun s) := by
  unfold State.trackRun
  repeat' first
    | with_reducible assumption
    | extract_lets
    | intro _
    | with_reducible apply State.abandonScan_keeps
    | with_reducible apply State.requestState_keeps
    | with_reducible apply State.setShadow_keeps
    | with_reducible apply Keeps.each
    | with_reducible apply Keeps.set
    | with_reducible apply Keeps.put
    | with_reducible apply Keeps.ite
    | split
    | dsimp +zetaDelta only

theorem State.soloEffect_keeps {s₀ : State} {s : State} (hk : s₀.Keeps s) : s₀.Keeps (State.soloEffect s) := by
  unfold State.soloEffect
  repeat' first
    | with_reducible assumption
    | extract_lets
    | intro _
    | with_reducible apply State.ev_keeps
    | with_reducible apply State.setRole_keeps
    | with_reducible apply Keeps.set
    | with_reducible apply Keeps.ite
    | split
    | dsimp +zetaDelta only

theorem State.takeOver_keeps {s₀ : State} {s : State} (hk : s₀.Keeps s) : s₀.Keeps (State.takeOver s) := by
  unfold State.takeOver
  repeat' first
    | with_reducible assumption
    | extract_lets
    | intro _
    | with_reducible apply State.ev_keeps
    | with_reducible apply State.setRole_keeps
    | with_reducible apply Keeps.set
    | with_reducible apply Keeps.raise
    | with_reducible apply Keeps.ite
    | split
    | dsimp +zetaDelta only

theorem State.commitTest_keeps {s₀ : State} {s : State} {a : Nat} (hk : s₀.Keeps s) : s₀.Keeps (State.commitTest s a) := by
  unfold State.commitTest
  repeat' first
    | with_reducible assumption
    | extract_lets
    | intro _
    | with_reducible apply Keeps.set
    | with_reducible apply Keeps.ite
    | split
    | dsimp +zetaDelta only

theorem State.leaseInstant_keeps {s₀ : State} {s : State} {t a : Nat} (hk : s₀.Keeps s) : s₀.Keeps (State.leaseInstant s t a) := by
  unfold State.leaseInstant
  repeat' first
    | with_reducible assumption
    | extract_lets
    | intro _
    | with_reducible apply State.commitTest_keeps
    | with_reducible apply State.sendLease_keeps
    | with_reducible apply State.soloEffect_keeps
    | with_reducible apply State.takeOver_keeps
    | with_reducible apply State.trackRun_keeps
    | with_reducible apply Keeps.set
    | with_reducible apply Keeps.ite
    | split
    | dsimp +zetaDelta only

theorem State.showFrozen_keeps {s₀ : State} {s : State} {t : Nat} {x : TwinStage} (hk : s₀.Keeps s) : s₀.Keeps (State.showFrozen s t x) := by
  unfold State.showFrozen
  repeat' first
    | with_reducible assumption
    | extract_lets
    | intro _
    | with_reducible apply State.ev_keeps
    | with_reducible apply Keeps.set
    | with_reducible apply Keeps.put
    | with_reducible apply Keeps.raise
    | with_reducible apply Keeps.ite
    | split
    | dsimp +zetaDelta only

theorem State.leaseStaged_keeps {s₀ : State} {s : State} {t : Nat} (hk : s₀.Keeps s) : s₀.Keeps (State.leaseStaged s t) := by
  unfold State.leaseStaged
  repeat' first
    | with_reducible assumption
    | extract_lets
    | intro _
    | with_reducible apply Keeps.set
    | with_reducible apply Keeps.ite
    | split
    | dsimp +zetaDelta only

theorem State.shadowDeadline_keeps {s₀ : State} {s : State} {t : Nat} (hk : s₀.Keeps s) : s₀.Keeps (State.shadowDeadline s t) := by
  unfold State.shadowDeadline
  repeat' first
    | with_reducible assumption
    | extract_lets
    | intro _
    | with_reducible apply State.ev_keeps
    | with_reducible apply State.resync_keeps
    | with_reducible apply Keeps.set
    | with_reducible apply Keeps.raise
    | with_reducible apply Keeps.ite
    | split
    | dsimp +zetaDelta only

theorem State.applyDeltas_keeps {s₀ : State} {s : State} {t : Nat} {ls : List Lane} (hk : s₀.Keeps s) : s₀.Keeps (State.applyDeltas s t ls) := by
  unfold State.applyDeltas
  repeat' first
    | with_reducible assumption
    | extract_lets
    | intro _
    | with_reducible apply State.putState_keeps
    | with_reducible apply Keeps.each
    | split
    | dsimp +zetaDelta only

theorem State.applyChunk_keeps {s₀ : State} {s : State} {t : Nat} {ls : List Lane} (hk : s₀.Keeps s) : s₀.Keeps (State.applyChunk s t ls) := by
  unfold State.applyChunk
  repeat' first
    | with_reducible assumption
    | extract_lets
    | intro _
    | with_reducible apply State.putState_keeps
    | with_reducible apply Keeps.each
    | with_reducible apply Keeps.setWord
    | split
    | dsimp +zetaDelta only

theorem State.shadowInstant_keeps {s₀ : State} {s : State} {t : Nat} (hk : s₀.Keeps s) : s₀.Keeps (State.shadowInstant s t) := by
  unfold State.shadowInstant
  repeat' first
    | with_reducible assumption
    | extract_lets
    | intro _
    | with_reducible apply State.applyChunk_keeps
    | with_reducible apply State.applyDeltas_keeps
    | with_reducible apply State.ev_keeps
    | with_reducible apply State.setShadow_keeps
    | with_reducible apply Keeps.set
    | with_reducible apply Keeps.ite
    | split
    | dsimp +zetaDelta only

theorem State.becomeStandby_keeps {s₀ : State} {s : State} {cause : Nat} (hk : s₀.Keeps s) : s₀.Keeps (State.becomeStandby s cause) := by
  unfold State.becomeStandby
  repeat' first
    | with_reducible assumption
    | extract_lets
    | intro _
    | with_reducible apply State.abandonScan_keeps
    | with_reducible apply State.requestState_keeps
    | with_reducible apply State.setRole_keeps
    | with_reducible apply State.setShadow_keeps
    | with_reducible apply Keeps.each
    | with_reducible apply Keeps.set
    | with_reducible apply Keeps.put
    | split
    | dsimp +zetaDelta only

theorem State.grant_keeps {s₀ : State} {s : State} {freq : Nat} (hk : s₀.Keeps s) : s₀.Keeps (State.grant s freq) := by
  unfold State.grant
  repeat' first
    | with_reducible assumption
    | extract_lets
    | intro _
    | with_reducible apply State.sendLease_keeps
    | with_reducible apply State.setExpiry_keeps
    | split
    | dsimp +zetaDelta only

end Sys2Proof.Machine
end

