-- ==== Sys2Proof/Laws/KeepsInstant.lean ====
section
/-! SUPPORT. What the operations and commands of Machine/Instant.lean keep. -/

namespace Sys2Proof.Machine
open Reg Hid

theorem State.latchTask_keeps {s₀ : State} {s : State} {t n : Nat} {diff : List (Lane × Nat × Nat)} (hk : s₀.Keeps s) : s₀.Keeps (State.latchTask s t n diff) := by
  unfold State.latchTask
  repeat' first
    | with_reducible assumption
    | extract_lets
    | intro _
    | with_reducible apply State.canAge_keeps
    | with_reducible apply State.checkCan_keeps
    | with_reducible apply State.checkFlows_keeps
    | with_reducible apply State.each_keeps
    | with_reducible apply State.latchLane_keeps
    | with_reducible apply State.phaseEvents_keeps
    | with_reducible apply Keeps.each
    | with_reducible apply Keeps.ite
    | split
    | dsimp +zetaDelta only

theorem State.newPeriod_keeps {s₀ : State} {s : State} {t : Nat} (hk : s₀.Keeps s) : s₀.Keeps (State.newPeriod s t) := by
  unfold State.newPeriod
  repeat' first
    | with_reducible assumption
    | extract_lets
    | intro _
    | with_reducible apply State.dropScan_keeps
    | with_reducible apply State.each_keeps
    | with_reducible apply State.put_keeps
    | with_reducible apply State.setBal_keeps
    | with_reducible apply State.set_keeps
    | with_reducible apply Keeps.each
    | with_reducible apply Keeps.set
    | with_reducible apply Keeps.put
    | with_reducible apply Keeps.setBal
    | split
    | dsimp +zetaDelta only

theorem State.restartTask_keeps {s₀ : State} {s : State} {t : Nat} (hk : s₀.Keeps s) : s₀.Keeps (State.restartTask s t) := by
  unfold State.restartTask
  repeat' first
    | with_reducible assumption
    | extract_lets
    | intro _
    | with_reducible apply State.abandonScan_keeps
    | with_reducible apply State.canRestart_keeps
    | with_reducible apply State.each_keeps
    | with_reducible apply State.ev_keeps
    | with_reducible apply State.loadWindow_keeps
    | with_reducible apply State.psReached_keeps
    | with_reducible apply State.restartLane_keeps
    | with_reducible apply State.set_keeps
    | with_reducible apply State.settle_keeps
    | with_reducible apply Keeps.each
    | with_reducible apply Keeps.set
    | with_reducible apply Keeps.optMap
    | with_reducible apply Keeps.ite
    | split
    | dsimp +zetaDelta only

theorem State.reachedIdle_keeps {s₀ : State} {s : State} {t : Nat} (hk : s₀.Keeps s) : s₀.Keeps (State.reachedIdle s t) := by
  unfold State.reachedIdle
  repeat' first
    | with_reducible assumption
    | extract_lets
    | intro _
    | with_reducible apply State.psReached_keeps
    | with_reducible apply Keeps.ite
    | split
    | dsimp +zetaDelta only

theorem State.joinSeeded_keeps {s₀ : State} {s : State} {t : Nat} (hk : s₀.Keeps s) : s₀.Keeps (State.joinSeeded s t) := by
  unfold State.joinSeeded
  repeat' first
    | with_reducible assumption
    | extract_lets
    | intro _
    | with_reducible apply State.each_keeps
    | with_reducible apply State.set_keeps
    | with_reducible apply Keeps.each
    | with_reducible apply Keeps.set
    | with_reducible apply Keeps.ite
    | split
    | dsimp +zetaDelta only

theorem State.seededAll_keeps {s₀ : State} {s : State} (hk : s₀.Keeps s) : s₀.Keeps (State.seededAll s) := by
  unfold State.seededAll
  repeat' first
    | with_reducible assumption
    | extract_lets
    | intro _
    | with_reducible apply State.each_keeps
    | with_reducible apply State.seedingDone_keeps
    | with_reducible apply Keeps.each
    | with_reducible apply Keeps.ite
    | split
    | dsimp +zetaDelta only

theorem State.leaveStart_keeps {s₀ : State} {s : State} {t : Nat} (hk : s₀.Keeps s) : s₀.Keeps (State.leaveStart s t) := by
  unfold State.leaveStart
  repeat' first
    | with_reducible assumption
    | extract_lets
    | intro _
    | with_reducible apply State.each_keeps
    | with_reducible apply State.setLane_keeps
    | with_reducible apply State.start_keeps
    | with_reducible apply Keeps.each
    | with_reducible apply Keeps.ite
    | split
    | dsimp +zetaDelta only

theorem State.parkInstant_keeps {s₀ : State} {s : State} {t : Nat} (hk : s₀.Keeps s) : s₀.Keeps (State.parkInstant s t) := by
  unfold State.parkInstant
  repeat' first
    | with_reducible assumption
    | extract_lets
    | intro _
    | with_reducible apply State.abandonScan_keeps
    | with_reducible apply State.set_keeps
    | with_reducible apply Keeps.set
    | with_reducible apply Keeps.ite
    | split
    | dsimp +zetaDelta only

theorem State.forceInstant_keeps {s₀ : State} {s : State} {t : Nat} {crcBad : Option Lane} (hk : s₀.Keeps s) : s₀.Keeps (State.forceInstant s t crcBad) := by
  unfold State.forceInstant
  repeat' first
    | with_reducible assumption
    | extract_lets
    | intro _
    | with_reducible apply State.dropSafetyForces_keeps
    | with_reducible apply State.forceCheck_keeps
    | split
    | dsimp +zetaDelta only

theorem State.latchState_keeps {s₀ : State} {s : State} {t a : Nat} (hk : s₀.Keeps s) : s₀.Keeps (State.latchState s t a) := by
  unfold State.latchState
  repeat' first
    | with_reducible assumption
    | extract_lets
    | intro _
    | with_reducible apply State.each_keeps
    | with_reducible apply State.latchFlows_keeps
    | with_reducible apply State.latchLane_keeps
    | with_reducible apply State.setSys_keeps
    | with_reducible apply State.set_keeps
    | with_reducible apply Keeps.each
    | with_reducible apply Keeps.set
    | with_reducible apply Keeps.setSys
    | split
    | dsimp +zetaDelta only

theorem State.outputsInstant_keeps {s₀ : State} {s : State} {t : Nat} (hk : s₀.Keeps s) : s₀.Keeps (State.outputsInstant s t) := by
  unfold State.outputsInstant
  repeat' first
    | with_reducible assumption
    | extract_lets
    | intro _
    | with_reducible apply State.canLaunch_keeps
    | with_reducible apply State.groupsInstant_keeps
    | with_reducible apply State.launch_keeps
    | with_reducible apply State.parkInstant_keeps
    | split
    | dsimp +zetaDelta only

theorem State.inputsInstant_keeps {s₀ : State} {s : State} {t n a : Nat} {padMiss : Bool} (hk : s₀.Keeps s) : s₀.Keeps (State.inputsInstant s t n a padMiss) := by
  unfold State.inputsInstant
  repeat' first
    | with_reducible assumption
    | extract_lets
    | intro _
    | with_reducible apply State.agreeSingle_keeps
    | with_reducible apply State.exercise_keeps
    | with_reducible apply State.latchState_keeps
    | with_reducible apply State.newPeriod_keeps
    | with_reducible apply State.permitSingle_keeps
    | with_reducible apply State.set_keeps
    | with_reducible apply Keeps.set
    | with_reducible apply Keeps.ite
    | split
    | dsimp +zetaDelta only

theorem State.atInstant_keeps {s₀ : State} {s : State} {t a : Nat} (hk : s₀.Keeps s) : s₀.Keeps (State.atInstant s t a) := by
  unfold State.atInstant
  repeat' first
    | with_reducible assumption
    | extract_lets
    | intro _
    | with_reducible apply State.set_keeps
    | with_reducible apply Keeps.set
    | split
    | dsimp +zetaDelta only

theorem execActionInstant_keeps (t : Nat) (padDiff : List (Lane × Nat × Nat)) (padMiss : Bool) (crcBad : Option Lane) (s : State) : ∃ u, execActionInstant t padDiff padMiss crcBad s = .next u ∧ s.Keeps u := by
  unfold execActionInstant
  repeat' first
    | with_reducible assumption
    | extract_lets
    | intro _
    | with_reducible apply State.atInstant_keeps
    | with_reducible apply State.elapseNet_keeps
    | with_reducible apply State.forceInstant_keeps
    | with_reducible apply State.handOverDue_keeps
    | with_reducible apply State.inputsInstant_keeps
    | with_reducible apply State.joinSeeded_keeps
    | with_reducible apply State.latchTask_keeps
    | with_reducible apply State.leaseInstant_keeps
    | with_reducible apply State.leaveStart_keeps
    | with_reducible apply State.olcCarry_keeps
    | with_reducible apply State.outputsInstant_keeps
    | with_reducible apply State.pacePeriod_keeps
    | with_reducible apply State.padReadback_keeps
    | with_reducible apply State.powerRequest_keeps
    | with_reducible apply State.reachedIdle_keeps
    | with_reducible apply State.restartTask_keeps
    | with_reducible apply State.seededAll_keeps
    | with_reducible apply State.shadowInstant_keeps
    | with_reducible apply occurs_keeps
    | with_reducible apply Keeps.ite
    | refine Keeps.ofOccurs ?_
    | split
    | dsimp +zetaDelta only

end Sys2Proof.Machine
end

