-- ==== Sys2Proof/Laws/KeepsLink.lean ====
section
/-! SUPPORT. What the operations and commands of Machine/Link.lean keep. -/

namespace Sys2Proof.Machine
open Reg Hid

theorem State.recvCl_keeps {s₀ : State} {s : State} {k : Nat} {p : ClPacket} (hk : s₀.Keeps s) : s₀.Keeps (State.recvCl s k p) := by
  unfold State.recvCl
  repeat' first
    | with_reducible assumption
    | extract_lets
    | intro _
    | with_reducible apply Keeps.set
    | with_reducible apply Keeps.ite
    | split
    | dsimp +zetaDelta only

theorem State.credit_keeps {s₀ : State} {s : State} {k n : Nat} (hk : s₀.Keeps s) : s₀.Keeps (State.credit s k n) := by
  unfold State.credit
  repeat' first
    | with_reducible assumption
    | extract_lets
    | intro _
    | with_reducible apply Keeps.set
    | split
    | dsimp +zetaDelta only

theorem execRead_keeps (k : Nat) (p : ClPacket) (s : State) : ∃ u, execRead k p s = .next u ∧ s.Keeps u := by
  unfold execRead
  repeat' first
    | with_reducible assumption
    | extract_lets
    | intro _
    | with_reducible apply State.recvCl_keeps
    | with_reducible apply State.sendCl_keeps
    | refine Keeps.ofOccurs ?_
    | split
    | dsimp +zetaDelta only

theorem State.semCommand_keeps {s₀ : State} {s : State} {w : Nat} (hk : s₀.Keeps s) : s₀.Keeps (State.semCommand s w) := by
  unfold State.semCommand
  repeat' first
    | with_reducible assumption
    | extract_lets
    | intro _
    | with_reducible apply State.semRelease_keeps
    | with_reducible apply State.semTake_keeps
    | with_reducible apply Keeps.ite
    | split
    | dsimp +zetaDelta only

theorem execWrite_keeps (k : Nat) (p : ClPacket) (s : State) : ∃ u, execWrite k p s = .next u ∧ s.Keeps u := by
  unfold execWrite
  repeat' first
    | with_reducible assumption
    | extract_lets
    | intro _
    | with_reducible apply State.recvCl_keeps
    | with_reducible apply State.semCommand_keeps
    | with_reducible apply State.sendCl_keeps
    | with_reducible apply Keeps.setBytes
    | with_reducible apply Keeps.ite
    | refine Keeps.ofOccurs ?_
    | split
    | dsimp +zetaDelta only

theorem execReadData_keeps (k : Nat) (p : ClPacket) (s : State) : ∃ u, execReadData k p s = .next u ∧ s.Keeps u := by
  unfold execReadData
  repeat' first
    | with_reducible assumption
    | extract_lets
    | intro _
    | with_reducible apply State.credit_keeps
    | with_reducible apply State.readReturns_keeps
    | with_reducible apply State.recvCl_keeps
    | refine Keeps.ofOccurs ?_
    | split
    | dsimp +zetaDelta only

theorem execWriteAck_keeps (k : Nat) (p : ClPacket) (s : State) : ∃ u, execWriteAck k p s = .next u ∧ s.Keeps u := by
  unfold execWriteAck
  repeat' first
    | with_reducible assumption
    | extract_lets
    | intro _
    | with_reducible apply State.credit_keeps
    | with_reducible apply State.recvCl_keeps
    | with_reducible apply State.writeDone_keeps
    | with_reducible apply Keeps.ite
    | refine Keeps.ofOccurs ?_
    | split
    | dsimp +zetaDelta only

theorem execErrorRsp_keeps (k : Nat) (p : ClPacket) (s : State) : ∃ u, execErrorRsp k p s = .next u ∧ s.Keeps u := by
  unfold execErrorRsp
  repeat' first
    | with_reducible assumption
    | extract_lets
    | intro _
    | with_reducible apply State.credit_keeps
    | with_reducible apply State.pumpTwin_keeps
    | with_reducible apply State.pump_keeps
    | with_reducible apply State.readReturns_keeps
    | with_reducible apply State.recvCl_keeps
    | with_reducible apply State.writeFailed_keeps
    | with_reducible apply Keeps.ite
    | refine Keeps.ofOccurs ?_
    | split
    | dsimp +zetaDelta only

theorem execCredit_keeps (k : Nat) (p : ClPacket) (s : State) : ∃ u, execCredit k p s = .next u ∧ s.Keeps u := by
  unfold execCredit
  repeat' first
    | with_reducible assumption
    | extract_lets
    | intro _
    | with_reducible apply State.credit_keeps
    | with_reducible apply State.pumpTwin_keeps
    | with_reducible apply State.pump_keeps
    | with_reducible apply State.recvCl_keeps
    | refine Keeps.ofOccurs ?_
    | split
    | dsimp +zetaDelta only

theorem State.refuseLink_keeps {s₀ : State} {s : State} {k cause : Nat} (hk : s₀.Keeps s) : s₀.Keeps (State.refuseLink s k cause) := by
  unfold State.refuseLink
  repeat' first
    | with_reducible assumption
    | extract_lets
    | intro _
    | with_reducible apply State.ev_keeps
    | with_reducible apply Keeps.set
    | with_reducible apply Keeps.raise
    | with_reducible apply Keeps.ite
    | split
    | dsimp +zetaDelta only

theorem State.linkDelayReq_keeps {s₀ : State} {s : State} {k : Nat} (hk : s₀.Keeps s) : s₀.Keeps (State.linkDelayReq s k) := by
  unfold State.linkDelayReq
  repeat' first
    | with_reducible assumption
    | extract_lets
    | intro _
    | with_reducible apply State.refuseLink_keeps
    | with_reducible apply State.sendCl_keeps
    | with_reducible apply Keeps.set
    | with_reducible apply Keeps.ite
    | split
    | dsimp +zetaDelta only

theorem execTrain_keeps (k : Nat) (p : ClPacket) (who : ClIdent) (s : State) : ∃ u, execTrain k p who s = .next u ∧ s.Keeps u := by
  unfold execTrain
  repeat' first
    | with_reducible assumption
    | extract_lets
    | intro _
    | with_reducible apply State.linkDelayReq_keeps
    | with_reducible apply State.refuseLink_keeps
    | with_reducible apply Keeps.set
    | with_reducible apply Keeps.ite
    | refine Keeps.ofOccurs ?_
    | split
    | dsimp +zetaDelta only

theorem execCommaDetection_keeps (k : Nat) (s : State) : ∃ u, execCommaDetection k s = .next u ∧ s.Keeps u := by
  unfold execCommaDetection
  repeat' first
    | with_reducible assumption
    | extract_lets
    | intro _
    | with_reducible apply State.sendCl_keeps
    | with_reducible apply Keeps.set
    | refine Keeps.ofOccurs ?_
    | split
    | dsimp +zetaDelta only

theorem execDelayReq_keeps (k : Nat) (p : ClPacket) (sfd : Nat) (s : State) : ∃ u, execDelayReq k p sfd s = .next u ∧ s.Keeps u := by
  unfold execDelayReq
  repeat' first
    | with_reducible assumption
    | extract_lets
    | intro _
    | with_reducible apply State.recvCl_keeps
    | with_reducible apply State.sendCl_keeps
    | refine Keeps.ofOccurs ?_
    | split
    | dsimp +zetaDelta only

theorem State.linkUpNow_keeps {s₀ : State} {s : State} {k d : Nat} (hk : s₀.Keeps s) : s₀.Keeps (State.linkUpNow s k d) := by
  unfold State.linkUpNow
  repeat' first
    | with_reducible assumption
    | extract_lets
    | intro _
    | with_reducible apply State.ev_keeps
    | with_reducible apply State.pump_keeps
    | with_reducible apply State.showGroup_keeps
    | with_reducible apply Keeps.set
    | with_reducible apply Keeps.raise
    | split
    | dsimp +zetaDelta only

theorem execDelayRsp_keeps (k : Nat) (p : ClPacket) (sfd : Nat) (s : State) : ∃ u, execDelayRsp k p sfd s = .next u ∧ s.Keeps u := by
  unfold execDelayRsp
  repeat' first
    | with_reducible assumption
    | extract_lets
    | intro _
    | with_reducible apply State.linkDelayReq_keeps
    | with_reducible apply State.linkUpNow_keeps
    | with_reducible apply State.recvCl_keeps
    | with_reducible apply State.refuseLink_keeps
    | with_reducible apply Keeps.set
    | with_reducible apply Keeps.ite
    | refine Keeps.ofOccurs ?_
    | split
    | dsimp +zetaDelta only

theorem State.retrain_keeps {s₀ : State} {s : State} {k : Nat} (hk : s₀.Keeps s) : s₀.Keeps (State.retrain s k) := by
  unfold State.retrain
  repeat' first
    | with_reducible assumption
    | extract_lets
    | intro _
    | with_reducible apply State.ev_keeps
    | with_reducible apply State.linkLost_keeps
    | with_reducible apply Keeps.set
    | with_reducible apply Keeps.inc
    | with_reducible apply Keeps.raise
    | with_reducible apply Keeps.ite
    | split
    | dsimp +zetaDelta only

theorem execBadPacket_keeps (k : Nat) (ours : Bool) (s : State) : ∃ u, execBadPacket k ours s = .next u ∧ s.Keeps u := by
  unfold execBadPacket
  repeat' first
    | with_reducible assumption
    | extract_lets
    | intro _
    | with_reducible apply State.retrain_keeps
    | with_reducible apply Keeps.set
    | with_reducible apply Keeps.inc
    | with_reducible apply Keeps.ite
    | refine Keeps.ofOccurs ?_
    | split
    | dsimp +zetaDelta only

theorem execAlignmentLost_keeps (k : Nat) (s : State) : ∃ u, execAlignmentLost k s = .next u ∧ s.Keeps u := by
  unfold execAlignmentLost
  repeat' first
    | with_reducible assumption
    | extract_lets
    | intro _
    | with_reducible apply State.linkLost_keeps
    | refine Keeps.ofOccurs ?_
    | split
    | dsimp +zetaDelta only

theorem execLinkWaitEnd_keeps (k : Nat) (s : State) : ∃ u, execLinkWaitEnd k s = .next u ∧ s.Keeps u := by
  unfold execLinkWaitEnd
  repeat' first
    | with_reducible assumption
    | extract_lets
    | intro _
    | with_reducible apply State.elapseTo_keeps
    | with_reducible apply Keeps.set
    | refine Keeps.ofOccurs ?_
    | split
    | dsimp +zetaDelta only

theorem execTime_keeps (k : Nat) (p : ClPacket) (sfd : Nat) (s : State) : ∃ u, execTime k p sfd s = .next u ∧ s.Keeps u := by
  unfold execTime
  repeat' first
    | with_reducible assumption
    | extract_lets
    | intro _
    | with_reducible apply State.ev_keeps
    | with_reducible apply State.recvCl_keeps
    | with_reducible apply State.stepNet_keeps
    | with_reducible apply Keeps.set
    | with_reducible apply Keeps.raise
    | with_reducible apply Keeps.ite
    | refine Keeps.ofOccurs ?_
    | split
    | dsimp +zetaDelta only

end Sys2Proof.Machine
end

