-- ==== Sys2Proof/Laws/KeepsNetOther.lean ====
section
/-! SUPPORT. What the operations and commands of Machine/NetOther.lean keep. -/

namespace Sys2Proof.Machine
open Reg Hid

theorem State.statusFrame_keeps {s₀ : State} {s : State} {p : Nat} {fr : NetFrame} {sfd : Nat} (hk : s₀.Keeps s) : s₀.Keeps (State.statusFrame s p fr sfd) := by
  unfold State.statusFrame
  repeat' first
    | with_reducible assumption
    | extract_lets
    | intro _
    | with_reducible apply State.collision_keeps
    | with_reducible apply State.confirmCold_keeps
    | with_reducible apply State.elapseNet_keeps
    | with_reducible apply State.heard_keeps
    | with_reducible apply State.noRod_keeps
    | with_reducible apply State.rodFrame_keeps
    | with_reducible apply Keeps.ite
    | split
    | dsimp +zetaDelta only

theorem execStatusFrame_keeps (p : Nat) (fr : NetFrame) (sfd : Nat) (s : State) : ∃ u, execStatusFrame p fr sfd s = .next u ∧ s.Keeps u := by
  unfold execStatusFrame
  repeat' first
    | with_reducible assumption
    | extract_lets
    | intro _
    | with_reducible apply State.statusFrame_keeps
    | with_reducible apply occurs_keeps
    | refine Keeps.ofOccurs ?_
    | split
    | dsimp +zetaDelta only

theorem State.countWake_keeps {s₀ : State} {s : State} {fr : NetFrame} {at_ : Nat} (hk : s₀.Keeps s) : s₀.Keeps (State.countWake s fr at_) := by
  unfold State.countWake
  repeat' first
    | with_reducible assumption
    | extract_lets
    | intro _
    | with_reducible apply State.set_keeps
    | with_reducible apply State.wakeBy_keeps
    | with_reducible apply Keeps.set
    | with_reducible apply Keeps.ite
    | split
    | with_reducible apply Keeps.rest
    | dsimp +zetaDelta only

theorem State.wakeAwake_keeps {s₀ : State} {s : State} {p : Nat} {fr : NetFrame} {sfd : Nat} (hk : s₀.Keeps s) : s₀.Keeps (State.wakeAwake s p fr sfd) := by
  unfold State.wakeAwake
  repeat' first
    | with_reducible assumption
    | extract_lets
    | intro _
    | with_reducible apply State.noRod_keeps
    | with_reducible apply State.rodFrame_keeps
    | with_reducible apply Keeps.ite
    | split
    | dsimp +zetaDelta only

theorem execWakeFrame_keeps (p : Nat) (fr : NetFrame) (sfd : Nat) (s : State) : ∃ u, execWakeFrame p fr sfd s = .next u ∧ s.Keeps u := by
  unfold execWakeFrame
  repeat' first
    | with_reducible assumption
    | extract_lets
    | intro _
    | with_reducible apply State.countWake_keeps
    | with_reducible apply State.wakeAwake_keeps
    | with_reducible apply happens_keeps
    | with_reducible apply Keeps.ite
    | refine Keeps.ofHappens ?_
    | split
    | dsimp +zetaDelta only

end Sys2Proof.Machine
end

