-- ==== Sys2Proof/Laws/KeepsPState.lean ====
section
/-! SUPPORT. What the operations and commands of Machine/PState.lean keep. -/

namespace Sys2Proof.Machine
open Reg Hid

theorem execStopRequest_keeps (s : State) : ∃ u, execStopRequest s = .next u ∧ s.Keeps u := by
  unfold execStopRequest
  repeat' first
    | with_reducible assumption
    | extract_lets
    | intro _
    | with_reducible apply State.psRequest_keeps
    | with_reducible apply Keeps.set
    | refine Keeps.ofOccurs ?_
    | split
    | dsimp +zetaDelta only

theorem execRunRequest_keeps (cold : Bool) (s : State) : ∃ u, execRunRequest cold s = .next u ∧ s.Keeps u := by
  unfold execRunRequest
  repeat' first
    | with_reducible assumption
    | extract_lets
    | intro _
    | with_reducible apply State.psRequest_keeps
    | with_reducible apply Keeps.set
    | with_reducible apply Keeps.put
    | refine Keeps.ofOccurs ?_
    | split
    | dsimp +zetaDelta only

theorem execHoldRequest_keeps (s : State) : ∃ u, execHoldRequest s = .next u ∧ s.Keeps u := by
  unfold execHoldRequest
  repeat' first
    | with_reducible assumption
    | extract_lets
    | intro _
    | with_reducible apply State.psRequest_keeps
    | with_reducible apply Keeps.set
    | refine Keeps.ofOccurs ?_
    | split
    | dsimp +zetaDelta only

theorem execAutorun_keeps (s : State) : ∃ u, execAutorun s = .next u ∧ s.Keeps u := by
  unfold execAutorun
  repeat' first
    | with_reducible assumption
    | extract_lets
    | intro _
    | with_reducible apply State.enterRun_keeps
    | with_reducible apply State.setProg_keeps
    | refine Keeps.ofOccurs ?_
    | split
    | dsimp +zetaDelta only

theorem execTaskRestartRequest_keeps (t : Nat) (cold : Bool) (s : State) : ∃ u, execTaskRestartRequest t cold s = .next u ∧ s.Keeps u := by
  unfold execTaskRestartRequest
  repeat' first
    | with_reducible assumption
    | extract_lets
    | intro _
    | with_reducible apply State.taskRestart_keeps
    | with_reducible apply Keeps.set
    | with_reducible apply Keeps.put
    | refine Keeps.ofOccurs ?_
    | split
    | dsimp +zetaDelta only

theorem execPeriodicSnapshot_keeps (s : State) : ∃ u, execPeriodicSnapshot s = .next u ∧ s.Keeps u := by
  unfold execPeriodicSnapshot
  repeat' first
    | with_reducible assumption
    | extract_lets
    | intro _
    | with_reducible apply State.startSnapshot_keeps
    | with_reducible apply Keeps.set
    | refine Keeps.ofOccurs ?_
    | split
    | dsimp +zetaDelta only

theorem execUnlockLapse_keeps (s : State) : ∃ u, execUnlockLapse s = .next u ∧ s.Keeps u := by
  unfold execUnlockLapse
  repeat' first
    | with_reducible assumption
    | extract_lets
    | intro _
    | with_reducible apply State.elapseTo_keeps
    | with_reducible apply State.unlockEnd_keeps
    | refine Keeps.ofOccurs ?_
    | split
    | dsimp +zetaDelta only

theorem execUnlockLockoutEnd_keeps (s : State) : ∃ u, execUnlockLockoutEnd s = .next u ∧ s.Keeps u := by
  unfold execUnlockLockoutEnd
  repeat' first
    | with_reducible assumption
    | extract_lets
    | intro _
    | with_reducible apply State.elapseTo_keeps
    | with_reducible apply Keeps.set
    | refine Keeps.ofOccurs ?_
    | split
    | dsimp +zetaDelta only

end Sys2Proof.Machine
end

