-- ==== Sys2Proof/Laws/KeepsPower.lean ====
section
/-! SUPPORT. What the operations and commands of Machine/Power.lean keep. -/

namespace Sys2Proof.Machine
open Reg Hid

theorem execPowerRequest_keeps (target : Nat) (s : State) : ∃ u, execPowerRequest target s = .next u ∧ s.Keeps u := by
  unfold execPowerRequest
  repeat' first
    | with_reducible assumption
    | extract_lets
    | intro _
    | with_reducible apply State.powerRequest_keeps
    | with_reducible apply Keeps.set
    | refine Keeps.ofOccurs ?_
    | split
    | dsimp +zetaDelta only

theorem execPowerWithdraw_keeps (s : State) : ∃ u, execPowerWithdraw s = .next u ∧ s.Keeps u := by
  unfold execPowerWithdraw
  repeat' first
    | with_reducible assumption
    | extract_lets
    | intro _
    | with_reducible apply State.powerRequest_keeps
    | with_reducible apply Keeps.set
    | refine Keeps.ofOccurs ?_
    | split
    | dsimp +zetaDelta only

theorem execPowerReq_keeps (r : Nat) (s : State) : ∃ u, execPowerReq r s = .next u ∧ s.Keeps u := by
  unfold execPowerReq
  repeat' first
    | with_reducible assumption
    | extract_lets
    | intro _
    | with_reducible apply State.start_keeps
    | with_reducible apply State.powerRequest_keeps
    | with_reducible apply State.finish_keeps
    | with_reducible apply State.await_keeps
    | with_reducible apply Keeps.ite
    | refine Keeps.ofNext ?_
    | split
    | dsimp +zetaDelta only

theorem execBlockAnswer_keeps (fails : Bool) (s : State) : ∃ u, execBlockAnswer fails s = .next u ∧ s.Keeps u := by
  unfold execBlockAnswer
  repeat' first
    | with_reducible assumption
    | extract_lets
    | intro _
    | with_reducible apply State.acceptBlock_keeps
    | with_reducible apply State.powerBack_keeps
    | refine Keeps.ofOccurs ?_
    | split
    | dsimp +zetaDelta only

theorem execBlockAnswerTimeout_keeps (s : State) : ∃ u, execBlockAnswerTimeout s = .next u ∧ s.Keeps u := by
  unfold execBlockAnswerTimeout
  repeat' first
    | with_reducible assumption
    | extract_lets
    | intro _
    | with_reducible apply State.elapseTo_keeps
    | with_reducible apply State.powerBack_keeps
    | refine Keeps.ofOccurs ?_
    | split
    | dsimp +zetaDelta only

theorem execWakePin_keeps (src : Nat) (s : State) : ∃ u, execWakePin src s = .next u ∧ s.Keeps u := by
  unfold execWakePin
  repeat' first
    | with_reducible assumption
    | extract_lets
    | intro _
    | with_reducible apply State.wakeBy_keeps
    | with_reducible apply Keeps.ite
    | refine Keeps.ofHappens ?_
    | split
    | dsimp +zetaDelta only

theorem execPcieActivityWake_keeps (s : State) : ∃ u, execPcieActivityWake s = .next u ∧ s.Keeps u := by
  unfold execPcieActivityWake
  repeat' first
    | with_reducible assumption
    | extract_lets
    | intro _
    | with_reducible apply State.wakeBy_keeps
    | refine Keeps.ofHappens ?_
    | split
    | dsimp +zetaDelta only

theorem State.wakeLast_keeps {s₀ : State} {s : State} {fail : List Lane} (hk : s₀.Keeps s) : s₀.Keeps (State.wakeLast s fail) := by
  unfold State.wakeLast
  repeat' first
    | with_reducible assumption
    | extract_lets
    | intro _
    | with_reducible apply State.wakeDone_keeps
    | with_reducible apply State.cold_keeps
    | with_reducible apply Keeps.each
    | with_reducible apply Keeps.set
    | with_reducible apply Keeps.ite
    | split
    | dsimp +zetaDelta only

theorem execWakeStepReady_keeps (us : Nat) (fail : List Lane) (lost : Nat) (s : State) : ∃ u, execWakeStepReady us fail lost s = .next u ∧ s.Keeps u := by
  unfold execWakeStepReady
  repeat' first
    | with_reducible assumption
    | extract_lets
    | intro _
    | with_reducible apply State.elapse_keeps
    | with_reducible apply State.wakeLast_keeps
    | with_reducible apply Keeps.add
    | with_reducible apply Keeps.set
    | with_reducible apply Keeps.ite
    | refine Keeps.ofHappens ?_
    | split
    | dsimp +zetaDelta only

theorem State.latchFault_keeps {s₀ : State} {s : State} {w : Nat} (hk : s₀.Keeps s) : s₀.Keeps (State.latchFault s w) := by
  unfold State.latchFault
  repeat' first
    | with_reducible assumption
    | extract_lets
    | intro _
    | with_reducible apply Keeps.set
    | with_reducible apply Keeps.inc
    | with_reducible apply Keeps.ite
    | split
    | dsimp +zetaDelta only

theorem execWakeStepTimeout_keeps (s : State) : ∃ u, execWakeStepTimeout s = .next u ∧ s.Keeps u := by
  unfold execWakeStepTimeout
  repeat' first
    | with_reducible assumption
    | extract_lets
    | intro _
    | with_reducible apply State.latchFault_keeps
    | with_reducible apply State.remains_keeps
    | with_reducible apply Keeps.set
    | with_reducible apply Keeps.add
    | with_reducible apply Keeps.put
    | with_reducible apply Keeps.ite
    | refine Keeps.ofHappens ?_
    | split
    | dsimp +zetaDelta only

theorem execWakeRetry_keeps (s : State) : ∃ u, execWakeRetry s = .next u ∧ s.Keeps u := by
  unfold execWakeRetry
  repeat' first
    | with_reducible assumption
    | extract_lets
    | intro _
    | with_reducible apply Keeps.set
    | with_reducible apply Keeps.inc
    | with_reducible apply Keeps.add
    | refine Keeps.ofHappens ?_
    | split
    | dsimp +zetaDelta only

theorem execPfailAssert_keeps (s : State) : ∃ u, execPfailAssert s = .next u ∧ s.Keeps u := by
  unfold execPfailAssert
  repeat' first
    | with_reducible assumption
    | extract_lets
    | intro _
    | with_reducible apply State.ev_keeps
    | with_reducible apply State.powerBack_keeps
    | with_reducible apply State.startSnapshot_keeps
    | with_reducible apply State.relinquish_keeps
    | with_reducible apply State.pfailStep_keeps
    | with_reducible apply Keeps.set
    | with_reducible apply Keeps.raise
    | with_reducible apply Keeps.ite
    | refine Keeps.ofHappens ?_
    | split
    | dsimp +zetaDelta only

theorem execPfailRelease_keeps (s : State) : ∃ u, execPfailRelease s = .next u ∧ s.Keeps u := by
  unfold execPfailRelease
  repeat' first
    | with_reducible assumption
    | extract_lets
    | intro _
    | with_reducible apply State.ev_keeps
    | with_reducible apply Keeps.set
    | with_reducible apply Keeps.ite
    | refine Keeps.ofHappens ?_
    | split
    | dsimp +zetaDelta only

theorem execSnapshotWriteDone_keeps (mramError : Bool) (s : State) : ∃ u, execSnapshotWriteDone mramError s = .next u ∧ s.Keeps u := by
  unfold execSnapshotWriteDone
  repeat' first
    | with_reducible assumption
    | extract_lets
    | intro _
    | with_reducible apply State.ev_keeps
    | with_reducible apply State.writeSlot_keeps
    | with_reducible apply State.startSnapshot_keeps
    | with_reducible apply State.psSettle_keeps
    | with_reducible apply State.powerSnapDone_keeps
    | with_reducible apply State.fallbackNow_keeps
    | with_reducible apply State.pfailStep_keeps
    | with_reducible apply Keeps.raise
    | with_reducible apply Keeps.destroy
    | with_reducible apply Keeps.set
    | with_reducible apply Keeps.optMap
    | with_reducible apply Keeps.ite
    | refine Keeps.ofOccurs ?_
    | split
    | dsimp +zetaDelta only

end Sys2Proof.Machine
end

