-- ==== Sys2Proof/Laws/KeepsTwin.lean ====
section
/-! SUPPORT. What the operations and commands of Machine/Twin.lean keep. -/

namespace Sys2Proof.Machine
open Reg Hid

theorem State.twinReject_keeps {s₀ : State} {s : State} {kind : Nat} {checks : List (Lane × Option Nat)} (hk : s₀.Keeps s) : s₀.Keeps (State.twinReject s kind checks) := by
  unfold State.twinReject
  repeat' first
    | with_reducible assumption
    | extract_lets
    | intro _
    | with_reducible apply State.ev_keeps
    | with_reducible apply Keeps.raise
    | split
    | dsimp +zetaDelta only

theorem State.leaseHeard_keeps {s₀ : State} {s : State} {net : Bool} {m : LeaseMsg} (hk : s₀.Keeps s) : s₀.Keeps (State.leaseHeard s net m) := by
  unfold State.leaseHeard
  repeat' first
    | with_reducible assumption
    | extract_lets
    | intro _
    | with_reducible apply Keeps.set
    | with_reducible apply Keeps.put
    | with_reducible apply Keeps.ite
    | split
    | dsimp +zetaDelta only

theorem State.missedRecords_keeps {s₀ : State} {s : State} (hk : s₀.Keeps s) : s₀.Keeps (State.missedRecords s) := by
  unfold State.missedRecords
  repeat' first
    | with_reducible assumption
    | extract_lets
    | intro _
    | with_reducible apply State.resync_keeps
    | with_reducible apply Keeps.each
    | with_reducible apply Keeps.set
    | split
    | dsimp +zetaDelta only

theorem State.relinquished_keeps {s₀ : State} {s : State} {m : LeaseMsg} (hk : s₀.Keeps s) : s₀.Keeps (State.relinquished s m) := by
  unfold State.relinquished
  repeat' first
    | with_reducible assumption
    | extract_lets
    | intro _
    | with_reducible apply State.ev_keeps
    | with_reducible apply State.setExpiry_keeps
    | with_reducible apply Keeps.set
    | with_reducible apply Keeps.raise
    | with_reducible apply Keeps.free
    | with_reducible apply Keeps.ite
    | split
    | dsimp +zetaDelta only

theorem State.conflict_keeps {s₀ : State} {s : State} {m : LeaseMsg} (hk : s₀.Keeps s) : s₀.Keeps (State.conflict s m) := by
  unfold State.conflict
  repeat' first
    | with_reducible assumption
    | extract_lets
    | intro _
    | with_reducible apply State.ev_keeps
    | with_reducible apply State.goPassive_keeps
    | with_reducible apply Keeps.raise
    | with_reducible apply Keeps.ite
    | split
    | dsimp +zetaDelta only

theorem State.granted_keeps {s₀ : State} {s : State} {m : LeaseMsg} (hk : s₀.Keeps s) : s₀.Keeps (State.granted s m) := by
  unfold State.granted
  repeat' first
    | with_reducible assumption
    | extract_lets
    | intro _
    | with_reducible apply State.grant_keeps
    | with_reducible apply State.setExpiry_keeps
    | with_reducible apply State.setRole_keeps
    | with_reducible apply Keeps.set
    | with_reducible apply Keeps.ite
    | split
    | dsimp +zetaDelta only

theorem State.requested_keeps {s₀ : State} {s : State} {m : LeaseMsg} (hk : s₀.Keeps s) : s₀.Keeps (State.requested s m) := by
  unfold State.requested
  repeat' first
    | with_reducible assumption
    | extract_lets
    | intro _
    | with_reducible apply State.becomeStandby_keeps
    | with_reducible apply State.grant_keeps
    | with_reducible apply Keeps.ite
    | split
    | dsimp +zetaDelta only

theorem execLeaseMessage_keeps (net : Bool) (s : State) : ∃ u, execLeaseMessage net s = .next u ∧ s.Keeps u := by
  unfold execLeaseMessage
  repeat' first
    | with_reducible assumption
    | extract_lets
    | intro _
    | with_reducible apply State.agreed_keeps
    | with_reducible apply State.conflict_keeps
    | with_reducible apply State.granted_keeps
    | with_reducible apply State.leaseHeard_keeps
    | with_reducible apply State.missedRecords_keeps
    | with_reducible apply State.relinquished_keeps
    | with_reducible apply State.requested_keeps
    | with_reducible apply State.twinReject_keeps
    | with_reducible apply Keeps.each
    | with_reducible apply Keeps.set
    | with_reducible apply Keeps.ite
    | refine Keeps.ofOccurs ?_
    | split
    | dsimp +zetaDelta only

theorem State.soloRequest_keeps {s₀ : State} {s : State} {src : Nat} (hk : s₀.Keeps s) : s₀.Keeps (State.soloRequest s src) := by
  unfold State.soloRequest
  repeat' first
    | with_reducible assumption
    | extract_lets
    | intro _
    | with_reducible apply State.ev_keeps
    | with_reducible apply Keeps.set
    | split
    | dsimp +zetaDelta only

theorem execSoloRequest_keeps (s : State) : ∃ u, execSoloRequest s = .next u ∧ s.Keeps u := by
  unfold execSoloRequest
  repeat' first
    | with_reducible assumption
    | extract_lets
    | intro _
    | with_reducible apply State.soloRequest_keeps
    | refine Keeps.ofOccurs ?_
    | split
    | dsimp +zetaDelta only

theorem State.recordIn_keeps {s₀ : State} {s : State} {t marker : Nat} {b : List Byte} (hk : s₀.Keeps s) : s₀.Keeps (State.recordIn s t marker b).1 := by
  unfold State.recordIn
  repeat' first
    | with_reducible assumption
    | extract_lets
    | intro _
    | with_reducible apply Keeps.each
    | with_reducible apply Keeps.set
    | split
    | dsimp +zetaDelta only

theorem State.recordsCame_keeps {s₀ : State} {s : State} {t : Nat} (hk : s₀.Keeps s) : s₀.Keeps (State.recordsCame s t) := by
  unfold State.recordsCame
  repeat' first
    | with_reducible assumption
    | extract_lets
    | intro _
    | with_reducible apply Keeps.setIf
    | with_reducible apply Keeps.ite
    | split
    | dsimp +zetaDelta only

theorem State.shadowScan_keeps {s₀ : State} {s : State} {t : Nat} (hk : s₀.Keeps s) : s₀.Keeps (State.shadowScan s t) := by
  unfold State.shadowScan
  repeat' first
    | with_reducible assumption
    | extract_lets
    | intro _
    | with_reducible apply State.crossCheck_keeps
    | with_reducible apply State.startScan_keeps
    | with_reducible apply Keeps.each
    | with_reducible apply Keeps.set
    | with_reducible apply Keeps.copy
    | with_reducible apply Keeps.setSys
    | with_reducible apply Keeps.setFlowSeen
    | split
    | dsimp +zetaDelta only

theorem execRecordA_keeps (t : Nat) (s : State) : ∃ u, execRecordA t s = .next u ∧ s.Keeps u := by
  unfold execRecordA
  repeat' first
    | with_reducible assumption
    | extract_lets
    | intro _
    | with_reducible apply State.recordIn_keeps
    | with_reducible apply State.recordsCame_keeps
    | with_reducible apply State.shadowScan_keeps
    | with_reducible apply State.twinReject_keeps
    | with_reducible apply Keeps.set
    | with_reducible apply Keeps.ite
    | refine Keeps.ofOccurs ?_
    | split
    | dsimp +zetaDelta only

theorem execRecordB_keeps (t : Nat) (s : State) : ∃ u, execRecordB t s = .next u ∧ s.Keeps u := by
  unfold execRecordB
  repeat' first
    | with_reducible assumption
    | extract_lets
    | intro _
    | with_reducible apply State.compareB_keeps
    | with_reducible apply State.recordIn_keeps
    | with_reducible apply State.recordsCame_keeps
    | with_reducible apply State.requestState_keeps
    | with_reducible apply State.twinReject_keeps
    | with_reducible apply Keeps.set
    | with_reducible apply Keeps.ite
    | refine Keeps.ofOccurs ?_
    | split
    | dsimp +zetaDelta only

theorem execSnapshotRequest_keeps (s : State) : ∃ u, execSnapshotRequest s = .next u ∧ s.Keeps u := by
  unfold execSnapshotRequest
  repeat' first
    | with_reducible assumption
    | extract_lets
    | intro _
    | with_reducible apply State.twinReject_keeps
    | with_reducible apply Keeps.each
    | with_reducible apply Keeps.set
    | with_reducible apply Keeps.ite
    | refine Keeps.ofOccurs ?_
    | split
    | dsimp +zetaDelta only

theorem execStateChunk_keeps (s : State) : ∃ u, execStateChunk s = .next u ∧ s.Keeps u := by
  unfold execStateChunk
  repeat' first
    | with_reducible assumption
    | extract_lets
    | intro _
    | with_reducible apply State.recordIn_keeps
    | with_reducible apply State.requestState_keeps
    | with_reducible apply State.twinReject_keeps
    | with_reducible apply Keeps.set
    | with_reducible apply Keeps.put
    | with_reducible apply Keeps.inc
    | with_reducible apply Keeps.ite
    | refine Keeps.ofOccurs ?_
    | split
    | dsimp +zetaDelta only

theorem execResyncTimeout_keeps (t : Nat) (s : State) : ∃ u, execResyncTimeout t s = .next u ∧ s.Keeps u := by
  unfold execResyncTimeout
  repeat' first
    | with_reducible assumption
    | extract_lets
    | intro _
    | with_reducible apply State.elapseTo_keeps
    | with_reducible apply State.ev_keeps
    | with_reducible apply State.requestState_keeps
    | with_reducible apply Keeps.set
    | refine Keeps.ofOccurs ?_
    | split
    | dsimp +zetaDelta only

end Sys2Proof.Machine
end

