-- ==== Sys2Proof/Laws/KeepsRegWrite.lean ====
section
/-! SUPPORT. What the operations and commands of Machine/RegWrite.lean keep. -/

namespace Sys2Proof.Machine
open Reg Hid

theorem State.clearFlag_keeps {s₀ : State} {s : State} {a i : Nat} {meets : Bool} (hk : s₀.Keeps s) : s₀.Keeps (State.clearFlag s a i meets) := by
  unfold State.clearFlag
  repeat' first
    | with_reducible assumption
    | extract_lets
    | intro _
    | with_reducible apply State.raise_keeps
    | with_reducible apply State.set_keeps
    | with_reducible apply Keeps.set
    | with_reducible apply Keeps.raise
    | with_reducible apply Keeps.ite
    | split
    | dsimp +zetaDelta only

theorem State.writeOnes_keeps {s₀ : State} {s : State} {a ones sets : Nat} (hk : s₀.Keeps s) : s₀.Keeps (State.writeOnes s a ones sets) := by
  unfold State.writeOnes
  repeat' first
    | with_reducible assumption
    | extract_lets
    | intro _
    | with_reducible apply State.clearFlag_keeps
    | with_reducible apply State.each_keeps
    | with_reducible apply Keeps.each
    | split
    | dsimp +zetaDelta only

theorem execW1cClear_keeps (a ones sets : Nat) (s : State) : ∃ u, execW1cClear a ones sets s = .next u ∧ s.Keeps u := by
  unfold execW1cClear
  repeat' first
    | with_reducible assumption
    | extract_lets
    | intro _
    | with_reducible apply State.writeOnes_keeps
    | with_reducible apply occurs_keeps
    | refine Keeps.ofOccurs ?_
    | split
    | dsimp +zetaDelta only

theorem State.sqConfig_keeps {s₀ : State} {s : State} {r v : Nat} (hk : s₀.Keeps s) : s₀.Keeps (State.sqConfig s r v) := by
  unfold State.sqConfig
  repeat' first
    | with_reducible assumption
    | extract_lets
    | intro _
    | with_reducible apply State.cfgReject_keeps
    | with_reducible apply State.set_keeps
    | with_reducible apply State.sqEnable_keeps
    | with_reducible apply Keeps.set
    | with_reducible apply Keeps.ite
    | split
    | dsimp +zetaDelta only

theorem State.cqConfig_keeps {s₀ : State} {s : State} {c v : Nat} (hk : s₀.Keeps s) : s₀.Keeps (State.cqConfig s c v) := by
  unfold State.cqConfig
  repeat' first
    | with_reducible assumption
    | extract_lets
    | intro _
    | with_reducible apply State.cfgReject_keeps
    | with_reducible apply State.cqEnable_keeps
    | with_reducible apply State.set_keeps
    | with_reducible apply Keeps.set
    | with_reducible apply Keeps.ite
    | split
    | dsimp +zetaDelta only

theorem State.msixWrite_keeps {s₀ : State} {s : State} {a v : Nat} (hk : s₀.Keeps s) : s₀.Keeps (State.msixWrite s a v) := by
  unfold State.msixWrite
  repeat' first
    | with_reducible assumption
    | extract_lets
    | intro _
    | with_reducible apply State.inc_keeps
    | with_reducible apply State.set_keeps
    | with_reducible apply Keeps.set
    | with_reducible apply Keeps.inc
    | with_reducible apply Keeps.ite
    | split
    | dsimp +zetaDelta only

theorem State.hifWrite_keeps {s₀ : State} {s : State} {a v : Nat} (hk : s₀.Keeps s) : s₀.Keeps (State.hifWrite s a v) := by
  unfold State.hifWrite
  repeat' first
    | with_reducible assumption
    | extract_lets
    | intro _
    | with_reducible apply State.cfgReject_keeps
    | with_reducible apply State.cqConfig_keeps
    | with_reducible apply State.hifEnable_keeps
    | with_reducible apply State.msixWrite_keeps
    | with_reducible apply State.regStore_keeps
    | with_reducible apply State.set_keeps
    | with_reducible apply State.sqConfig_keeps
    | with_reducible apply Keeps.set
    | with_reducible apply Keeps.ite
    | split
    | dsimp +zetaDelta only

theorem State.coreAction_keeps {s₀ : State} {s : State} {a v : Nat} (hk : s₀.Keeps s) : s₀.Keeps (State.coreAction s a v) := by
  unfold State.coreAction
  repeat' first
    | with_reducible assumption
    | extract_lets
    | intro _
    | with_reducible apply State.brakeReset_keeps
    | with_reducible apply State.maxClear_keeps
    | with_reducible apply State.modeRequest_keeps
    | with_reducible apply State.paceNote_keeps
    | with_reducible apply State.padLatchClear_keeps
    | with_reducible apply State.powerRequest_keeps
    | with_reducible apply State.psRequest_keeps
    | with_reducible apply State.taskRestart_keeps
    | with_reducible apply State.tbCapture_keeps
    | with_reducible apply State.unRetire_keeps
    | with_reducible apply Keeps.ite
    | split
    | dsimp +zetaDelta only

theorem State.busAction_keeps {s₀ : State} {s : State} {a v : Nat} (hk : s₀.Keeps s) : s₀.Keeps (State.busAction s a v) := by
  unfold State.busAction
  repeat' first
    | with_reducible assumption
    | extract_lets
    | intro _
    | with_reducible apply State.bridgeMaxClear_keeps
    | with_reducible apply State.canRecover_keeps
    | with_reducible apply State.objClear_keeps
    | with_reducible apply State.soloRequest_keeps
    | with_reducible apply State.wakeBurst_keeps
    | with_reducible apply Keeps.ite
    | split
    | dsimp +zetaDelta only

theorem State.barWrite_keeps {s₀ : State} {s : State} {a v : Nat} (hk : s₀.Keeps s) : s₀.Keeps (State.barWrite s a v) := by
  unfold State.barWrite
  repeat' first
    | with_reducible assumption
    | extract_lets
    | intro _
    | with_reducible apply State.busAction_keeps
    | with_reducible apply State.coreAction_keeps
    | with_reducible apply State.dbgTaskWrite_keeps
    | with_reducible apply State.hifWrite_keeps
    | with_reducible apply State.mdio_keeps
    | with_reducible apply State.regStore_keeps
    | with_reducible apply State.writeOnes_keeps
    | with_reducible apply Keeps.ite
    | split
    | dsimp +zetaDelta only

theorem execRegisterWrite_keeps (a v : Nat) (s : State) : ∃ u, execRegisterWrite a v s = .next u ∧ s.Keeps u := by
  unfold execRegisterWrite
  repeat' first
    | with_reducible assumption
    | extract_lets
    | intro _
    | with_reducible apply State.barWrite_keeps
    | with_reducible apply occurs_keeps
    | refine Keeps.ofOccurs ?_
    | split
    | dsimp +zetaDelta only

end Sys2Proof.Machine
end

