-- ==== Sys2Proof/Laws/KeepsStaging.lean ====
section
/-! SUPPORT. What the operations and commands of Machine/Staging.lean keep. -/

namespace Sys2Proof.Machine
open Reg Hid

theorem State.overrun_keeps {s₀ : State} {s : State} {t : Nat} (hk : s₀.Keeps s) : s₀.Keeps (State.overrun s t) := by
  unfold State.overrun
  repeat' first
    | with_reducible assumption
    | extract_lets
    | intro _
    | with_reducible apply State.ev_keeps
    | with_reducible apply State.raise_keeps
    | with_reducible apply State.set_keeps
    | with_reducible apply State.trip_keeps
    | with_reducible apply Keeps.set
    | with_reducible apply Keeps.raise
    | with_reducible apply Keeps.ite
    | split
    | dsimp +zetaDelta only

theorem State.deadlineDissent_keeps {s₀ : State} {s : State} {t : Nat} (hk : s₀.Keeps s) : s₀.Keeps (State.deadlineDissent s t) := by
  unfold State.deadlineDissent
  repeat' first
    | with_reducible assumption
    | extract_lets
    | intro _
    | with_reducible apply State.balLast_keeps
    | with_reducible apply State.noMajority_keeps
    | with_reducible apply State.paceNote_keeps
    | with_reducible apply State.setBal_keeps
    | with_reducible apply State.set_keeps
    | with_reducible apply Keeps.set
    | with_reducible apply Keeps.setBal
    | split
    | dsimp +zetaDelta only

theorem State.scanDeadline_keeps {s₀ : State} {s : State} {t : Nat} (hk : s₀.Keeps s) : s₀.Keeps (State.scanDeadline s t) := by
  unfold State.scanDeadline
  repeat' first
    | with_reducible assumption
    | extract_lets
    | intro _
    | with_reducible apply State.abandonScan_keeps
    | with_reducible apply State.deadlineDissent_keeps
    | with_reducible apply State.overrun_keeps
    | with_reducible apply State.set_keeps
    | with_reducible apply State.shadowDeadline_keeps
    | with_reducible apply State.trip_keeps
    | with_reducible apply Keeps.set
    | with_reducible apply Keeps.ite
    | split
    | dsimp +zetaDelta only

theorem State.stageFrom_keeps {s₀ : State} {s : State} {t src : Nat} (hk : s₀.Keeps s) : s₀.Keeps (State.stageFrom s t src) := by
  unfold State.stageFrom
  repeat' first
    | with_reducible assumption
    | extract_lets
    | intro _
    | with_reducible apply State.applyForces_keeps
    | with_reducible apply State.copy_keeps
    | with_reducible apply State.set_keeps
    | with_reducible apply Keeps.set
    | with_reducible apply Keeps.copy
    | split
    | dsimp +zetaDelta only

theorem State.stageImage_keeps {s₀ : State} {s : State} {t : Nat} {x : TwinStage} (hk : s₀.Keeps s) : s₀.Keeps (State.stageImage s t x) := by
  unfold State.stageImage
  repeat' first
    | with_reducible assumption
    | extract_lets
    | intro _
    | with_reducible apply State.putSafe_keeps
    | with_reducible apply State.set_keeps
    | with_reducible apply State.stageFrom_keeps
    | with_reducible apply Keeps.set
    | with_reducible apply Keeps.ite
    | split
    | dsimp +zetaDelta only

theorem State.outputFed_keeps {s₀ : State} {s : State} {t : Nat} (hk : s₀.Keeps s) : s₀.Keeps (State.outputFed s t) := by
  unfold State.outputFed
  repeat' first
    | with_reducible assumption
    | extract_lets
    | intro _
    | with_reducible apply State.ctxCheck_keeps
    | with_reducible apply State.each_keeps
    | with_reducible apply State.refuseAlone_keeps
    | with_reducible apply State.sendReady_keeps
    | with_reducible apply Keeps.each
    | with_reducible apply Keeps.ite
    | split
    | dsimp +zetaDelta only

theorem State.stageCan_keeps {s₀ : State} {s : State} {t : Nat} (hk : s₀.Keeps s) : s₀.Keeps (State.stageCan s t) := by
  unfold State.stageCan
  repeat' first
    | with_reducible assumption
    | extract_lets
    | intro _
    | with_reducible apply State.canStageObj_keeps
    | with_reducible apply State.canStage_keeps
    | with_reducible apply State.each_keeps
    | with_reducible apply State.refuseAlone_keeps
    | with_reducible apply Keeps.each
    | with_reducible apply Keeps.ite
    | split
    | dsimp +zetaDelta only

theorem State.switchWords_keeps {s₀ : State} {s : State} {t : Nat} (hk : s₀.Keeps s) : s₀.Keeps (State.switchWords s t) := by
  unfold State.switchWords
  repeat' first
    | with_reducible assumption
    | extract_lets
    | intro _
    | with_reducible apply State.ev_keeps
    | with_reducible apply State.raise_keeps
    | with_reducible apply State.refuseAlone_keeps
    | with_reducible apply State.set_keeps
    | with_reducible apply Keeps.set
    | with_reducible apply Keeps.raise
    | with_reducible apply Keeps.ite
    | split
    | dsimp +zetaDelta only

theorem State.stagePower_keeps {s₀ : State} {s : State} {t : Nat} (hk : s₀.Keeps s) : s₀.Keeps (State.stagePower s t) := by
  unfold State.stagePower
  repeat' first
    | with_reducible assumption
    | extract_lets
    | intro _
    | with_reducible apply State.set_keeps
    | with_reducible apply Keeps.set
    | with_reducible apply Keeps.ite
    | split
    | dsimp +zetaDelta only

theorem State.stageMode_keeps {s₀ : State} {s : State} {t : Nat} (hk : s₀.Keeps s) : s₀.Keeps (State.stageMode s t) := by
  unfold State.stageMode
  repeat' first
    | with_reducible assumption
    | extract_lets
    | intro _
    | with_reducible apply State.modeRefuse_keeps
    | with_reducible apply State.set_keeps
    | with_reducible apply State.settle_keeps
    | with_reducible apply Keeps.set
    | with_reducible apply Keeps.ite
    | split
    | dsimp +zetaDelta only

theorem State.stageState_keeps {s₀ : State} {s : State} {t : Nat} (hk : s₀.Keeps s) : s₀.Keeps (State.stageState s t) := by
  unfold State.stageState
  repeat' first
    | with_reducible assumption
    | extract_lets
    | intro _
    | with_reducible apply State.psReached_keeps
    | with_reducible apply State.set_keeps
    | with_reducible apply Keeps.set
    | with_reducible apply Keeps.ite
    | split
    | dsimp +zetaDelta only

theorem State.stageBlocks_keeps {s₀ : State} {s : State} {t : Nat} {x : TwinStage} (hk : s₀.Keeps s) : s₀.Keeps (State.stageBlocks s t x) := by
  unfold State.stageBlocks
  repeat' first
    | with_reducible assumption
    | extract_lets
    | intro _
    | with_reducible apply State.confirmAt_keeps
    | with_reducible apply State.outputFed_keeps
    | with_reducible apply State.stageCan_keeps
    | with_reducible apply State.switchWords_keeps
    | with_reducible apply Keeps.ite
    | split
    | dsimp +zetaDelta only

theorem execStaging_keeps (t : Nat) (s : State) : ∃ u, execStaging t s = .next u ∧ s.Keeps u := by
  unfold execStaging
  repeat' first
    | with_reducible assumption
    | extract_lets
    | intro _
    | with_reducible apply State.elapseNet_keeps
    | with_reducible apply State.forceCheck_keeps
    | with_reducible apply State.lateDue_keeps
    | with_reducible apply State.leaseStaged_keeps
    | with_reducible apply State.scanDeadline_keeps
    | with_reducible apply State.set_keeps
    | with_reducible apply State.showFrozen_keeps
    | with_reducible apply State.snapCheck_keeps
    | with_reducible apply State.stageBlocks_keeps
    | with_reducible apply State.stageImage_keeps
    | with_reducible apply State.stageMode_keeps
    | with_reducible apply State.stagePower_keeps
    | with_reducible apply State.stageState_keeps
    | with_reducible apply State.takeForces_keeps
    | with_reducible apply occurs_keeps
    | with_reducible apply Keeps.set
    | refine Keeps.ofOccurs ?_
    | split
    | dsimp +zetaDelta only

end Sys2Proof.Machine
end

