-- ==== Sys2Proof/Laws/KeepsStart.lean ====
section
/-! SUPPORT. What the operations and commands of Machine/Start.lean keep. -/

namespace Sys2Proof.Machine
open Reg Hid

theorem execSupplyLoss_keeps (which : Nat) (s : State) : ∃ u, execSupplyLoss which s = .next u ∧ s.Keeps u := by
  unfold execSupplyLoss
  repeat' first
    | with_reducible assumption
    | extract_lets
    | intro _
    | with_reducible apply State.deviceReset_keeps
    | with_reducible apply Keeps.set
    | with_reducible apply Keeps.ite
    | refine Keeps.ofHappens ?_
    | split
    | dsimp +zetaDelta only

theorem execPgValid_keeps (s : State) : ∃ u, execPgValid s = .next u ∧ s.Keeps u := by
  unfold execPgValid
  repeat' first
    | with_reducible assumption
    | extract_lets
    | intro _
    | with_reducible apply Keeps.set
    | refine Keeps.ofHappens ?_
    | split
    | dsimp +zetaDelta only

theorem execLaneRailLow_keeps (l : Lane) (s : State) : ∃ u, execLaneRailLow l s = .next u ∧ s.Keeps u := by
  unfold execLaneRailLow
  repeat' first
    | with_reducible assumption
    | extract_lets
    | intro _
    | with_reducible apply State.driveOff_keeps
    | with_reducible apply State.dropScan_keeps
    | with_reducible apply Keeps.each
    | with_reducible apply Keeps.set
    | with_reducible apply Keeps.ite
    | refine Keeps.ofHappens ?_
    | split
    | dsimp +zetaDelta only

theorem execLaneRailRestored_keeps (l : Lane) (s : State) : ∃ u, execLaneRailRestored l s = .next u ∧ s.Keeps u := by
  unfold execLaneRailRestored
  repeat' first
    | with_reducible assumption
    | extract_lets
    | intro _
    | with_reducible apply Keeps.set
    | refine Keeps.ofHappens ?_
    | split
    | dsimp +zetaDelta only

theorem execTestEnRise_keeps (s : State) : ∃ u, execTestEnRise s = .next u ∧ s.Keeps u := by
  unfold execTestEnRise
  repeat' first
    | with_reducible assumption
    | extract_lets
    | intro _
    | with_reducible apply State.deviceReset_keeps
    | with_reducible apply Keeps.set
    | with_reducible apply Keeps.ite
    | refine Keeps.ofHappens ?_
    | split
    | dsimp +zetaDelta only

theorem execTestEnFall_keeps (s : State) : ∃ u, execTestEnFall s = .next u ∧ s.Keeps u := by
  unfold execTestEnFall
  repeat' first
    | with_reducible assumption
    | extract_lets
    | intro _
    | with_reducible apply Keeps.set
    | with_reducible apply Keeps.ite
    | refine Keeps.ofHappens ?_
    | split
    | dsimp +zetaDelta only

theorem execAonPowerOn_keeps (s : State) : ∃ u, execAonPowerOn s = .next u ∧ s.Keeps u := by
  unfold execAonPowerOn
  repeat' first
    | with_reducible assumption
    | extract_lets
    | intro _
    | with_reducible apply State.remains_keeps
    | with_reducible apply Keeps.set
    | with_reducible apply Keeps.restore
    | with_reducible apply Keeps.resetRegs
    | refine Keeps.ofNext ?_
    | split
    | dsimp +zetaDelta only

theorem execPorstN_keeps (s : State) : ∃ u, execPorstN s = .next u ∧ s.Keeps u := by
  unfold execPorstN
  repeat' first
    | with_reducible assumption
    | extract_lets
    | intro _
    | with_reducible apply State.deviceReset_keeps
    | with_reducible apply Keeps.set
    | with_reducible apply Keeps.ite
    | refine Keeps.ofHappens ?_
    | split
    | dsimp +zetaDelta only

theorem execPorstNRelease_keeps (s : State) : ∃ u, execPorstNRelease s = .next u ∧ s.Keeps u := by
  unfold execPorstNRelease
  repeat' first
    | with_reducible assumption
    | extract_lets
    | intro _
    | with_reducible apply Keeps.set
    | refine Keeps.ofHappens ?_
    | split
    | dsimp +zetaDelta only

theorem execInternalResetRelease_keeps (devid side us : Nat) (fail : List Lane) (s : State) : ∃ u, execInternalResetRelease devid side us fail s = .next u ∧ s.Keeps u := by
  unfold execInternalResetRelease
  repeat' first
    | with_reducible assumption
    | extract_lets
    | intro _
    | with_reducible apply State.release450_keeps
    | refine Keeps.ofHappens ?_
    | split
    | dsimp +zetaDelta only

theorem State.takeFloors_keeps {s₀ : State} {s : State} {i : Nat} (hk : s₀.Keeps s) : s₀.Keeps (State.takeFloors s i) := by
  unfold State.takeFloors
  repeat' first
    | with_reducible assumption
    | extract_lets
    | intro _
    | with_reducible apply State.setFloor_keeps
    | with_reducible apply Keeps.each
    | split
    | dsimp +zetaDelta only

theorem State.recoverFloors_keeps {s₀ : State} {s : State} (hk : s₀.Keeps s) : s₀.Keeps (State.recoverFloors s) := by
  unfold State.recoverFloors
  repeat' first
    | with_reducible assumption
    | extract_lets
    | intro _
    | with_reducible apply State.ev_keeps
    | with_reducible apply State.setFloor_keeps
    | with_reducible apply State.takeFloors_keeps
    | with_reducible apply State.writeFloors_keeps
    | with_reducible apply Keeps.each
    | with_reducible apply Keeps.set
    | with_reducible apply Keeps.raise
    | split
    | dsimp +zetaDelta only

theorem execMramReady_keeps (s : State) : ∃ u, execMramReady s = .next u ∧ s.Keeps u := by
  unfold execMramReady
  repeat' first
    | with_reducible assumption
    | extract_lets
    | intro _
    | with_reducible apply State.ev_keeps
    | with_reducible apply State.recoverFloors_keeps
    | with_reducible apply State.replay_keeps
    | with_reducible apply State.showImages_keeps
    | with_reducible apply State.showKeys_keeps
    | with_reducible apply State.updUndo_keeps
    | with_reducible apply Keeps.each
    | with_reducible apply Keeps.set
    | with_reducible apply Keeps.put
    | with_reducible apply Keeps.ite
    | refine Keeps.ofOccurs ?_
    | split
    | dsimp +zetaDelta only

theorem execLogicImageLoaded_keeps (ok : Bool) (s : State) : ∃ u, execLogicImageLoaded ok s = .next u ∧ s.Keeps u := by
  unfold execLogicImageLoaded
  repeat' first
    | with_reducible assumption
    | extract_lets
    | intro _
    | with_reducible apply State.ev_keeps
    | with_reducible apply State.loadLogic_keeps
    | with_reducible apply State.showImages_keeps
    | with_reducible apply State.updFallback_keeps
    | with_reducible apply Keeps.set
    | with_reducible apply Keeps.ite
    | refine Keeps.ofOccurs ?_
    | split
    | dsimp +zetaDelta only

theorem execConfigurationSetApplied_keeps (ok : Bool) (s : State) : ∃ u, execConfigurationSetApplied ok s = .next u ∧ s.Keeps u := by
  unfold execConfigurationSetApplied
  repeat' first
    | with_reducible assumption
    | extract_lets
    | intro _
    | with_reducible apply State.chooseRestart_keeps
    | with_reducible apply State.ev_keeps
    | with_reducible apply State.loadConfig_keeps
    | with_reducible apply State.loadWindow_keeps
    | with_reducible apply State.updFallback_keeps
    | with_reducible apply State.wakeRebroadcast_keeps
    | with_reducible apply Keeps.set
    | with_reducible apply Keeps.ite
    | refine Keeps.ofOccurs ?_
    | split
    | dsimp +zetaDelta only

theorem State.bypass_keeps {s₀ : State} {s : State} (hk : s₀.Keeps s) : s₀.Keeps (State.bypass s) := by
  unfold State.bypass
  repeat' first
    | with_reducible assumption
    | extract_lets
    | intro _
    | with_reducible apply Keeps.set
    | split
    | dsimp +zetaDelta only

theorem execBypass_keeps (s : State) : ∃ u, execBypass s = .next u ∧ s.Keeps u := by
  unfold execBypass
  repeat' first
    | with_reducible assumption
    | extract_lets
    | intro _
    | with_reducible apply State.bypass_keeps
    | refine Keeps.ofHappens ?_
    | split
    | dsimp +zetaDelta only

theorem execIdcode_keeps (s : State) : ∃ u, execIdcode s = .next u ∧ s.Keeps u := by
  unfold execIdcode
  repeat' first
    | with_reducible assumption
    | extract_lets
    | intro _
    | with_reducible apply Keeps.set
    | refine Keeps.ofHappens ?_
    | split
    | dsimp +zetaDelta only

theorem State.preload_keeps {s₀ : State} {s : State} (hk : s₀.Keeps s) : s₀.Keeps (State.preload s) := by
  unfold State.preload
  repeat' first
    | with_reducible assumption
    | extract_lets
    | intro _
    | with_reducible apply Keeps.set
    | with_reducible apply Keeps.free
    | split
    | dsimp +zetaDelta only

theorem execSamplePreload_keeps (s : State) : ∃ u, execSamplePreload s = .next u ∧ s.Keeps u := by
  unfold execSamplePreload
  repeat' first
    | with_reducible assumption
    | extract_lets
    | intro _
    | with_reducible apply State.bypass_keeps
    | with_reducible apply State.preload_keeps
    | with_reducible apply Keeps.set
    | with_reducible apply Keeps.ite
    | refine Keeps.ofHappens ?_
    | split
    | dsimp +zetaDelta only

theorem execExtest_keeps (s : State) : ∃ u, execExtest s = .next u ∧ s.Keeps u := by
  unfold execExtest
  repeat' first
    | with_reducible assumption
    | extract_lets
    | intro _
    | with_reducible apply State.bypass_keeps
    | with_reducible apply State.preload_keeps
    | with_reducible apply Keeps.set
    | with_reducible apply Keeps.ite
    | refine Keeps.ofHappens ?_
    | split
    | dsimp +zetaDelta only

theorem State.ringsReset_keeps {s₀ : State} {s : State} (hk : s₀.Keeps s) : s₀.Keeps (State.ringsReset s) := by
  unfold State.ringsReset
  repeat' first
    | with_reducible assumption
    | extract_lets
    | intro _
    | with_reducible apply Keeps.restore
    | split
    | dsimp +zetaDelta only

theorem execPerstNAssertion_keeps (s : State) : ∃ u, execPerstNAssertion s = .next u ∧ s.Keeps u := by
  unfold execPerstNAssertion
  repeat' first
    | with_reducible assumption
    | extract_lets
    | intro _
    | with_reducible apply State.ev_keeps
    | with_reducible apply State.relayEnd_keeps
    | with_reducible apply State.release_keeps
    | with_reducible apply State.ringsReset_keeps
    | with_reducible apply Keeps.set
    | with_reducible apply Keeps.raise
    | with_reducible apply Keeps.resetRegs
    | with_reducible apply Keeps.ite
    | refine Keeps.ofHappens ?_
    | split
    | with_reducible apply Keeps.rest
    | dsimp +zetaDelta only

theorem execPerstNRelease_keeps (s : State) : ∃ u, execPerstNRelease s = .next u ∧ s.Keeps u := by
  unfold execPerstNRelease
  repeat' first
    | with_reducible assumption
    | extract_lets
    | intro _
    | with_reducible apply Keeps.set
    | with_reducible apply Keeps.put
    | refine Keeps.ofHappens ?_
    | split
    | dsimp +zetaDelta only

theorem execCodeGroupSynchronisation_keeps (p : Nat) (sync gig : Bool) (s : State) : ∃ u, execCodeGroupSynchronisation p sync gig s = .next u ∧ s.Keeps u := by
  unfold execCodeGroupSynchronisation
  repeat' first
    | with_reducible assumption
    | extract_lets
    | intro _
    | with_reducible apply State.collision_keeps
    | with_reducible apply State.portChange_keeps
    | with_reducible apply Keeps.put
    | with_reducible apply Keeps.ite
    | refine Keeps.ofOccurs ?_
    | split
    | dsimp +zetaDelta only

theorem execPllLostLock_keeps (s : State) : ∃ u, execPllLostLock s = .next u ∧ s.Keeps u := by
  unfold execPllLostLock
  repeat' first
    | with_reducible assumption
    | extract_lets
    | intro _
    | with_reducible apply Keeps.set
    | with_reducible apply Keeps.raise
    | refine Keeps.ofOccurs ?_
    | split
    | dsimp +zetaDelta only

theorem State.ageMs_keeps {s₀ : State} {s : State} {f : Fld} (hk : s₀.Keeps s) : s₀.Keeps (State.ageMs s f) := by
  unfold State.ageMs
  repeat' first
    | with_reducible assumption
    | extract_lets
    | intro _
    | with_reducible apply Keeps.inc
    | with_reducible apply Keeps.ite
    | split
    | dsimp +zetaDelta only

theorem State.temperatures_keeps {s₀ : State} {s : State} (hk : s₀.Keeps s) : s₀.Keeps (State.temperatures s) := by
  unfold State.temperatures
  repeat' first
    | with_reducible assumption
    | extract_lets
    | intro _
    | with_reducible apply Keeps.each
    | with_reducible apply Keeps.set
    | with_reducible apply Keeps.free
    | split
    | dsimp +zetaDelta only

theorem execOperatingTimeTick_keeps (s : State) : ∃ u, execOperatingTimeTick s = .next u ∧ s.Keeps u := by
  unfold execOperatingTimeTick
  repeat' first
    | with_reducible assumption
    | extract_lets
    | intro _
    | with_reducible apply State.ageMs_keeps
    | with_reducible apply State.elapseTo_keeps
    | with_reducible apply State.setOpTime_keeps
    | with_reducible apply State.temperatures_keeps
    | with_reducible apply Keeps.each
    | with_reducible apply Keeps.set
    | with_reducible apply Keeps.setIf
    | refine Keeps.ofOccurs ?_
    | split
    | dsimp +zetaDelta only

end Sys2Proof.Machine
end

