-- ==== Sys2Proof/Laws/KeepsUpdate.lean ====
section
/-! SUPPORT. What the operations and commands of Machine/Update.lean keep. -/

namespace Sys2Proof.Machine
open Reg Hid

theorem State.relayPiece_keeps {s₀ : State} {s : State} {p0 : Nat} (hk : s₀.Keeps s) : s₀.Keeps (State.relayPiece s p0) := by
  unfold State.relayPiece
  repeat' first
    | with_reducible assumption
    | extract_lets
    | intro _
    | with_reducible apply State.twinSend_keeps
    | with_reducible apply Keeps.set
    | split
    | dsimp +zetaDelta only

theorem State.relay_keeps {s₀ : State} {s : State} {d : Desc} {data : List Byte} (hk : s₀.Keeps s) : s₀.Keeps (State.relay s d data) := by
  unfold State.relay
  repeat' first
    | with_reducible assumption
    | extract_lets
    | intro _
    | with_reducible apply State.finish_keeps
    | with_reducible apply State.await_keeps
    | with_reducible apply State.relayPiece_keeps
    | with_reducible apply Keeps.set
    | with_reducible apply Keeps.setBytes
    | with_reducible apply Keeps.ite
    | split
    | dsimp +zetaDelta only

theorem State.relayAnswer_keeps {s₀ : State} {s : State} {status result : Nat} (hk : s₀.Keeps s) : s₀.Keeps (State.relayAnswer s status result) := by
  unfold State.relayAnswer
  repeat' first
    | with_reducible assumption
    | extract_lets
    | intro _
    | with_reducible apply State.relayPiece_keeps
    | with_reducible apply State.settle_keeps
    | with_reducible apply Keeps.set
    | with_reducible apply Keeps.ite
    | split
    | dsimp +zetaDelta only

theorem State.hostUpd_keeps {s₀ : State} {s : State} {d : Desc} {data : List Byte} (hk : s₀.Keeps s) : s₀.Keeps (State.hostUpd s d data) := by
  unfold State.hostUpd
  repeat' first
    | with_reducible assumption
    | extract_lets
    | intro _
    | with_reducible apply State.relay_keeps
    | with_reducible apply State.updCmd_keeps
    | with_reducible apply State.await_keeps
    | with_reducible apply State.finish_keeps
    | with_reducible apply Keeps.set
    | with_reducible apply Keeps.ite
    | split
    | dsimp +zetaDelta only

theorem execUpdOpen_keeps (r : Nat) (s : State) : ∃ u, execUpdOpen r s = .next u ∧ s.Keeps u := by
  unfold execUpdOpen
  repeat' first
    | with_reducible assumption
    | extract_lets
    | intro _
    | with_reducible apply State.start_keeps
    | with_reducible apply State.hostUpd_keeps
    | refine Keeps.ofNext ?_
    | split
    | dsimp +zetaDelta only

theorem execUpdWrite_keeps (r : Nat) (data : Option (List Byte)) (s : State) : ∃ u, execUpdWrite r data s = .next u ∧ s.Keeps u := by
  unfold execUpdWrite
  repeat' first
    | with_reducible assumption
    | extract_lets
    | intro _
    | with_reducible apply State.startRead_keeps
    | with_reducible apply State.finish_keeps
    | with_reducible apply State.hostUpd_keeps
    | with_reducible apply Keeps.ite
    | refine Keeps.ofNext ?_
    | split
    | dsimp +zetaDelta only

theorem execUpdVerify_keeps (r : Nat) (s : State) : ∃ u, execUpdVerify r s = .next u ∧ s.Keeps u := by
  unfold execUpdVerify
  repeat' first
    | with_reducible assumption
    | extract_lets
    | intro _
    | with_reducible apply State.start_keeps
    | with_reducible apply State.hostUpd_keeps
    | refine Keeps.ofNext ?_
    | split
    | dsimp +zetaDelta only

theorem execUpdActivate_keeps (r : Nat) (s : State) : ∃ u, execUpdActivate r s = .next u ∧ s.Keeps u := by
  unfold execUpdActivate
  repeat' first
    | with_reducible assumption
    | extract_lets
    | intro _
    | with_reducible apply State.start_keeps
    | with_reducible apply State.hostUpd_keeps
    | refine Keeps.ofNext ?_
    | split
    | dsimp +zetaDelta only

theorem execUpdApplyOnline_keeps (r : Nat) (s : State) : ∃ u, execUpdApplyOnline r s = .next u ∧ s.Keeps u := by
  unfold execUpdApplyOnline
  repeat' first
    | with_reducible assumption
    | extract_lets
    | intro _
    | with_reducible apply State.start_keeps
    | with_reducible apply State.hostUpd_keeps
    | refine Keeps.ofNext ?_
    | split
    | dsimp +zetaDelta only

theorem execUpdClose_keeps (r : Nat) (s : State) : ∃ u, execUpdClose r s = .next u ∧ s.Keeps u := by
  unfold execUpdClose
  repeat' first
    | with_reducible assumption
    | extract_lets
    | intro _
    | with_reducible apply State.start_keeps
    | with_reducible apply State.hostUpd_keeps
    | refine Keeps.ofNext ?_
    | split
    | dsimp +zetaDelta only

theorem execSessionLapse_keeps (s : State) : ∃ u, execSessionLapse s = .next u ∧ s.Keeps u := by
  unfold execSessionLapse
  repeat' first
    | with_reducible assumption
    | extract_lets
    | intro _
    | with_reducible apply State.elapseTo_keeps
    | with_reducible apply State.release_keeps
    | refine Keeps.ofOccurs ?_
    | split
    | dsimp +zetaDelta only

theorem State.updDiscard_keeps {s₀ : State} {s : State} {src why : Nat} (hk : s₀.Keeps s) : s₀.Keeps (State.updDiscard s src why) := by
  unfold State.updDiscard
  repeat' first
    | with_reducible assumption
    | extract_lets
    | intro _
    | with_reducible apply State.ev_keeps
    | split
    | dsimp +zetaDelta only

theorem State.updMessage_keeps {s₀ : State} {s : State} {src : Nat} {b : List Byte} (hk : s₀.Keeps s) : s₀.Keeps (State.updMessage s src b) := by
  unfold State.updMessage
  repeat' first
    | with_reducible assumption
    | extract_lets
    | intro _
    | with_reducible apply State.updDiscard_keeps
    | with_reducible apply State.relayAnswer_keeps
    | with_reducible apply State.sendUpd_keeps
    | with_reducible apply State.updCmd_keeps
    | with_reducible apply State.updReply_keeps
    | with_reducible apply Keeps.set
    | with_reducible apply Keeps.ite
    | split
    | dsimp +zetaDelta only

theorem execUpdateSessionMessage_keeps (net : Bool) (s : State) : ∃ u, execUpdateSessionMessage net s = .next u ∧ s.Keeps u := by
  unfold execUpdateSessionMessage
  repeat' first
    | with_reducible assumption
    | extract_lets
    | intro _
    | with_reducible apply State.updMessage_keeps
    | with_reducible apply Keeps.ite
    | refine Keeps.ofOccurs ?_
    | split
    | dsimp +zetaDelta only

end Sys2Proof.Machine
end

