-- ==== Sys2Proof/Laws/Scan.lean ====
section
/-! SUPPORT. What the shared operation of the scan instructions does: once for a legal instruction, once for an illegal one. -/

namespace Sys2Proof.Machine
open Reg Hid

/-- The task that a lane executes is one of the sixteen. -/
theorem State.running_lt {s : State} {l : Lane} {t : Nat} (h : s.running l = some t) : t < 16 :=
  List.mem_range.1 (List.mem_of_find?_eq_some h)

/-- A legal instruction takes effect on the fetched context, its weight counted for the lane. -/
theorem State.scan_legal {s : State} {l : Lane} {t : Nat} {i : Instr} {ok : State → Nat → Ctx → Bool}
    {eff : State → Nat → Ctx → State} (h : s.executes l t) (hw : i.wf = true)
    (hok : ∀ c : Ctx, c.pc = (s.ctx l t).pc → c.old = (s.ctx l t).old → ok s t c = true) :
    s.scan l i ok eff = eff (s.add (PACE_W l.idx) i.weight) t (s.fetched l t i.weight) := by
  unfold State.scan
  rw [h.1]
  simp only [h.2]
  have hc : ok s t (if s.prog == .hold && !(s.ctx l t).passed then (s.ctx l t).pass (s.bpsAt t (s.ctx l t).pc) else s.ctx l t) = true :=
    hok _ (by split <;> rfl) (by split <;> rfl)
  rw [if_pos (by rw [hw, hc]; rfl)]
  rfl

/-- An instruction whose form or operand is not one the task may use is an illegal word. -/
theorem State.scan_illegal {s : State} {l : Lane} {t : Nat} {i : Instr} {ok : State → Nat → Ctx → Bool}
    {eff : State → Nat → Ctx → State} (h : s.executes l t) (hw : i.wf = false ∨ ∀ c, ok s t c = false) :
    ∃ c, s.scan l i ok eff = s.illegal l t c i.opc := by
  unfold State.scan
  rw [h.1]
  simp only [h.2]
  refine ⟨_, if_neg ?_⟩
  rcases hw with hw | hw <;> simp [hw]

end Sys2Proof.Machine
end

