-- ==== Sys2Proof/Machine/Bar2.lean ====
section
/-! DEFINITION. What a host reads through the PCIe function beside BAR0: the BAR2 window on the memories and the words of its
configuration space that the spec fixes (R3, R9, R28, R29, R289, R290). A read changes nothing, and no row of the table brings one
(log 72). -/

namespace Sys2Proof.Machine
open Reg Hid

/-! ### BAR2 (R28, R29) -/

/-- The offsets of BAR2 that R28 reserves, and those past its 16 MiB. -/
def bar2Reserved (a : Nat) : Bool :=
  (decide (a < 0x600000) && decide (0x1C0800 ≤ a % 0x200000)) || (decide (0xB10000 ≤ a) && decide (a < 0xC00000)) || decide (0xC80000 ≤ a)

/-- The memory behind an offset of BAR2 has no power: that of a lane whose rail is low, and every memory outside RUN and IDLE or
in internal reset (R29, R418, R442, log 72). -/
def State.bar2Down (s : State) (a : Nat) : Bool :=
  !s.powered || Lane.all.any fun l => a / 0x200000 == l.idx && s.on (LANE_RESET l.idx)

/-- What a host reads at an aligned word of BAR2 (R28, R29): the word of the memory there, 0 at a reserved offset and from a
memory that is powered down. -/
def State.bar2Read (s : State) (a : Nat) : Nat :=
  let a := a / 4 * 4
  if bar2Reserved a || s.bar2Down a then 0 else s.rd a 4

/-- A write to BAR2 is discarded (R28, R29). -/
def State.bar2Write (s : State) (_a _v : Nat) : State := s

/-! ### Configuration space (R3, R9, R289) -/

/-- The words of the function's configuration space that the spec fixes, at the places of the PCI Express base specification that
R9 cites (log 16): vendor and device ID; revision ID and class code; the types of BAR0 and BAR2 (64-bit, memory, non-prefetchable)
under whatever base the host has assigned; the absent BAR4. -/
def configWord (a : Nat) : Option Nat :=
  if a = 0x00 then some (GLB_PCI_IDS_VENDOR.reset + 65536 * GLB_PCI_IDS_DEVICE.reset)
  else if a = 0x08 then some (GLB_PCI_REV_REV.reset + 0x118000 * 256)
  else if a = 0x20 ∨ a = 0x24 then some 0
  else none

/-- The size in bytes that a base address register asks for (R289): BAR0 256 KiB, BAR2 16 MiB, BAR4 none. -/
def barSize (n : Nat) : Nat := if n = 0 then 0x40000 else if n = 2 then 0x1000000 else 0

/-- The type bits of a base address register that exists: 64-bit memory, non-prefetchable (R289). -/
def barType : Nat := 4

end Sys2Proof.Machine
end

