-- ==== Sys2Proof/Machine/Pins.lean ====
section
/-! DEFINITION. What the device does at its other pins, from the state: SAFEOK, the PHY management pins, the power and wake pins,
the links' SerDes and the crystal (R432, R437, R438). The field pins are in Machine/InputOps.lean, the CAN pins in Machine/CanOps.lean. -/

namespace Sys2Proof.Machine
open Reg Hid

/-! ### Pins of the general-purpose bank -/

/-- The general-purpose bank's pins float: no supply below SLEEP, or internal reset (R437). -/
def State.gpFloats (s : State) : Bool := s.on IN_RESET || decide (3 ≤ s.get PW_STATE)

/-- A SAFEOK pin: low while TEST_EN is high, floating in internal reset and from SLEEP down, low in IDLE (R107, R437, R438). -/
def State.safeokPin (s : State) (l : Lane) : PinState :=
  if s.on TEST_EN && decide (s.get PW_STATE < 2) then .low
  else if s.on IN_RESET || decide (2 ≤ s.get PW_STATE) then .floating
  else .ofLevel (s.get PW_STATE == 0 && s.on (SAFEOK l.idx))

/-- TN_PHYRST_N: low from S until the configuration set is applied, then high; floating in DEEP SLEEP and OFF (R203, R437). -/
def State.phyrstPin (s : State) : PinState :=
  if 3 ≤ s.get PW_STATE then .floating else .ofLevel (s.on PHYRST)

/-- TN_MDC and TN_MDIO are driven from the release of internal reset, in RUN, IDLE and SLEEP (R432, R437). -/
def State.mdioDriven (s : State) : Bool := !s.gpFloats

/-! ### The always-on domain -/

/-- PWR_EN_CORE and PWR_EN_IO: low in OFF and while a failed wake powers the device down, high from a wake's regulator step (R431,
R432, R444). -/
def State.pwrEn (s : State) : Bool := !s.on WK_DOWN && (s.get PW_STATE != 4 || s.on WK_STEP)

/-- FAULT_N is driven low once the last attempt of a wake has failed (R431). -/
def State.faultLow (s : State) : Bool := s.on WF_FINAL

/-- PCIE_WAKE_N is driven low after a wake that the host's PCIe did not cause, until the link reaches L0 (R429). -/
def State.pcieWakeLow (s : State) : Bool := s.on PCIE_WAKE

/-- The crystal oscillates, except in DEEP SLEEP and OFF before a wake's oscillator step (R428, R437). -/
def State.crystalOn (s : State) : Bool := decide (s.get PW_STATE < 3) || decide (2 ≤ s.get WK_STEP)

/-! ### SerDes -/

/-- What a link's SerDes does (R437). -/
inductive SerDes where
  | idle | active | listening | off
  deriving DecidableEq, Repr

/-- The timed network's SerDes (R425, R437). -/
def State.netSerDes (s : State) : SerDes :=
  if 3 ≤ s.get PW_STATE then .off
  else if s.get PW_STATE = 2 then .listening
  else if s.on IN_RESET || decide (s.get START_STEP < 3) then .idle else .active

/-- The companion links' SerDes (R437). -/
def State.linkSerDes (s : State) : SerDes :=
  if 2 ≤ s.get PW_STATE then .off
  else if s.on IN_RESET || decide (s.get START_STEP < 3) then .idle else .active

end Sys2Proof.Machine
end

