-- ==== Sys2Proof/Tests/Slice0.lean ====
section
/-! SUPPORT. The author's own tests: one ill-formed term for each check of WellFormed, worked figures of the spec, and for
each statement with hypotheses states and operands that meet them, clause by clause. -/

namespace Sys2Proof.Tests
set_option Elab.async false
open Sys2Proof Sys2Proof.Machine Sys2Proof.Machine.Reg Sys2Proof.Machine.Hid

/-- The state after reset with some fields set. -/
def at_ (fs : List (Fld × Nat)) : State := State.reset.each fs fun s p => s.set p.1 p.2

/-- A context that is being executed. -/
def run0 : Ctx := { Ctx.start with phase := .running }

/-- A context that is being executed, with WA and WB. -/
def runAB (a b : Word) : Ctx := { run0 with wa := a, wb := b }

/-- An image of two POUs, of 8 and 4 instructions. -/
def image2 : LogicImage :=
  { layoutHash := 1, baseHash := 0, code := [], pous := [⟨0, 8⟩, ⟨8, 4⟩], tasks := [], timers := [], counters := [], edges := [],
    vars := [], initData := [], retainedLen := 0, changedPous := [], changedInstrs := 0, setTask := 0, setAddr := 0, setLen := 0 }

/-- Lane LA executes task 0 with a context; the task owns 16 words of the output image. -/
def scan (c : Ctx) (fs : List (Fld × Nat)) : State :=
  State.setCtx { at_ ((TSK_QSLICE_LEN 0, 16) :: fs) with image := some image2 } .la 0 c

/-- Every lane is in the vote. -/
def inVote3 : List (Fld × Nat) := [(LN_STATUS_ST 0, 1), (LN_STATUS_ST 1, 1), (LN_STATUS_ST 2, 1)]

/-! ### Well-formed commands (R40 to R42, R54, R75) -/

theorem test_wf_bit_number : (Instr.ld .la (.at ⟨.M, 0, 8⟩)).wf = false ∧ (Instr.ld .la (.at ⟨.M, 0x7FFFF, 7⟩)).wf = true := by decide
theorem test_wf_bit_address : (Instr.orBit .lb (.at ⟨.M, 0x80000, 0⟩)).wf = false := by decide
theorem test_wf_store_to_input : (Instr.st .la ⟨.I, 0, 0⟩).wf = false ∧ (Instr.stw .la ⟨.I, 0⟩).wf = false := by decide
theorem test_wf_word_alignment : (Instr.ldw .la (.at ⟨.Q, 2⟩)).wf = false ∧ (Instr.ldw .la (.at ⟨.Q, 0xFFFC⟩)).wf = true := by decide
theorem test_wf_word_address : (Instr.ldx .la ⟨.Q, 0x10000⟩).wf = false := by decide
theorem test_wf_edge : (Instr.edgr .la 16384).wf = false := by decide
theorem test_wf_jump : (Instr.jmp .la 262144).wf = false := by decide
theorem test_wf_call : (Instr.call .la 1024).wf = false := by decide
theorem test_wf_timer : (Instr.ton .la 4096).wf = false := by decide
theorem test_wf_counter_port : (Instr.cu .la .ctd 0).wf = false ∧ (Instr.cd .la .ctu 0).wf = false := by decide
theorem test_wf_counter_number : (Instr.counterR .la .ctu 4096).wf = false ∧ (Instr.qd .la .ctu 0).wf = false := by decide
theorem test_wf_flow : (Instr.stale .la 512).wf = false := by decide

/-! ### Worked figures of the spec -/

/-- R46: ABS of the most negative number stays, with OV. -/
theorem test_abs_min : (match exec (.abs .la) (scan (runAB Word.minInt 0) []) with
    | .next u => decide ((u.ctx .la 0).wa = Word.minInt ∧ (u.ctx .la 0).ov = true)
    | _ => false) = true := by decide
/-- R45: the most negative number divided by -1 gives itself, remainder 0 and OV. -/
theorem test_div_min : (match exec (.div .la (.k 0xFFFFFF)) (scan (runAB Word.minInt 7) []) with
    | .next u => decide ((u.ctx .la 0).wa = Word.minInt ∧ (u.ctx .la 0).wb = 0 ∧ (u.ctx .la 0).ov = true)
    | _ => false) = true := by decide
/-- R47: SHL by 32 leaves 0 and moves out bit 0. -/
theorem test_shl_32 : (match exec (.shl .la (.k 32)) (scan (runAB 1 0) []) with
    | .next u => decide ((u.ctx .la 0).wa = 0 ∧ (u.ctx .la 0).cy = true)
    | _ => false) = true := by decide
/-- R48, R74: an index that is no multiple of 4 ends the scan. -/
theorem test_index_fault : (match exec (.ldx .la ⟨.Q, 0⟩) (scan (runAB 0 2) []) with
    | .next u => decide ((u.ctx .la 0).phase = .ended ∧ u.presOf .la 0 = some .trip)
    | _ => false) = true := by decide
/-- R283: 8 is added to the transmit error counter by a transmitter's error. -/
theorem test_can_error : (match exec (.canError 0 ⟨1, false, true, false, false, false⟩) (at_ [(CN_CTL_MODE 0, 1), (CN_STATUS_STATE 0, 1), (CN_TXOBJ 0, 1)]) with
    | .next u => u.get (CN_ERRCNT_TEC 0) == 8 && u.get (CN_PEND 0 0) == 1
    | _ => false) = true := by decide
/-- R332: a take of a free semaphore records the tag. -/
theorem test_semaphore : (match exec (.semaphoreTake 63 0x12) (at_ []) with
    | .next u => u.get (BR_SEM_OWNER 63) == 0x12
    | _ => false) = true := by decide

/-! ### The scan engine: the hypotheses of its statements -/

theorem witness_BitLogicInstructions : (scan run0 []).executes .la 0 ∧ (BitOp.k true).wf = true ∧ (scan run0 []).bitOpOk 0 (.k true) = true ∧
    (BitOp.at ⟨.Q, 63, 7⟩).wf = true ∧ (scan run0 []).bitOpOk 0 (.at ⟨.Q, 63, 7⟩) = true := by
  refine ⟨⟨?_, ?_⟩, ?_⟩ <;> decide
theorem witness_BitStores : (BitRef.wfStore ⟨.Q, 63, 7⟩) = true ∧ (scan run0 []).bitStoreOk 0 ⟨.Q, 63, 7⟩ = true := by decide
theorem witness_NestingInstructions :
    ((scan { run0 with nest := List.replicate 31 ⟨true, .and⟩ } []).fetched .la 0 1).nest.length < 32 ∧
    ((scan { run0 with nest := [⟨true, .and⟩] } []).fetched .la 0 1).nest = [⟨true, .and⟩] ∧
    ((scan { run0 with nest := [⟨true, .or⟩] } []).fetched .la 0 1).nest = [⟨true, .or⟩] ∧
    ((scan { run0 with nest := [⟨true, .xor⟩] } []).fetched .la 0 1).nest = [⟨true, .xor⟩] := by decide
theorem witness_EdgeInstructions : (scan run0 []).executes .la 0 ∧ 16383 < 16384 := by
  refine ⟨⟨?_, ?_⟩, ?_⟩ <;> decide
theorem witness_WordMovesAndComparisons : (WordOp.at ⟨.Q, 60⟩).wf = true ∧ (scan run0 []).wordOpOk 0 (.at ⟨.Q, 60⟩) = true ∧
    (WordOp.k 0xFFFFFF).wf = true ∧ (scan run0 []).wordOpOk 0 (.k 0xFFFFFF) = true := by decide
theorem witness_Arithmetic :
    ((scan (runAB 7 0) []).wordVal .la (.k 3) ≠ 0 ∧ ((scan (runAB 7 0) []).fetched .la 0 8).wa ≠ Word.minInt) ∧
    (((scan (runAB Word.minInt 0) []).fetched .la 0 8).wa = Word.minInt ∧ (scan (runAB Word.minInt 0) []).wordVal .la (.k 0xFFFFFF) = -1) ∧
    ((scan (runAB 7 0) []).wordVal .la (.k 0) = 0 ∧ (scan (runAB 7 0) []).get (DZ_SEEN 0) ≤ ((scan (runAB 7 0) []).fetched .la 0 8).dzCount) := by decide
theorem witness_WordOperations : ((scan (runAB 7 3) []).fetched .la 0 8).wb ≠ 0 ∧ ((scan (runAB 7 0) []).fetched .la 0 8).wb = 0 := by decide
theorem witness_Shifts : [0, 1, 31, 32, 33, 64].map (fun n => ((scan run0 []).wordVal .la (.k n)).toNat) = [0, 1, 31, 32, 33, 64] ∧
    ((scan (runAB 0 5) []).fetched .la 0 1).wb.toInt > ((scan (runAB 0 5) []).wordVal .la (.k 4)).toInt := by decide
theorem witness_IndexedAccess : (WordRef.wfStore ⟨.Q, 0⟩) = true ∧ (scan (runAB 0 60) []).owns 0 .Q 0 4 = true ∧
    ((scan (runAB 0 60) []).fetched .la 0 2).wb.toNat % 4 = 0 ∧ (scan (runAB 0 60) []).owns 0 .Q (0 + ((scan (runAB 0 60) []).fetched .la 0 2).wb.toNat) 4 = true := by decide
theorem witness_JumpsAndCalls :
    (scan run0 []).jumpOk ((scan run0 []).ctx .la 0) 7 = true ∧ (scan run0 []).callOk ((scan run0 []).ctx .la 0) 1 = true ∧
    ((scan { run0 with ba := true } []).fetched .la 0 2).ba = true ∧ ((scan run0 []).fetched .la 0 2).ba = false ∧
    ((scan { run0 with call := List.replicate 15 ⟨1, 0⟩ } []).fetched .la 0 2).call.length < 16 ∧
    ((scan { run0 with call := [⟨1, 0⟩] } []).fetched .la 0 2).call = [⟨1, 0⟩] ∧ ((scan { run0 with call := [⟨1, 0⟩] } []).fetched .la 0 2).nest.length = 0 := by decide
theorem witness_ScanEnd : ((scan run0 []).fetched .la 0 0).nest = [] ∧ ((scan run0 []).fetched .la 0 0).call = [] ∧
    ((scan { run0 with ba := true } []).fetched .la 0 0).ba = true ∧ (scan run0 []).isTriple 0 = true ∧ (scan run0 [(TSK_STATE_MODE 0, 1)]).isTriple 0 = false := by decide
theorem witness_TripConditions :
    32 ≤ ((scan { run0 with nest := List.replicate 32 ⟨true, .or⟩ } []).fetched .la 0 0).nest.length ∧ ((scan run0 []).fetched .la 0 0).nest = [] ∧
    ((scan { run0 with nest := [⟨true, .or⟩] } []).fetched .la 0 0).nest ≠ [] ∧ ((scan { run0 with nest := [⟨true, .or⟩] } []).fetched .la 0 0).call = [] ∧
    ((scan { run0 with call := [⟨1, 1⟩] } []).fetched .la 0 0).call = [⟨1, 1⟩] ∧ ((scan { run0 with call := [⟨1, 1⟩] } []).fetched .la 0 0).nest.length ≠ 1 ∧
    16 ≤ ((scan { run0 with call := List.replicate 16 ⟨1, 0⟩ } []).fetched .la 0 0).call.length ∧
    ((scan (runAB 0 61) []).fetched .la 0 0).wb.toNat % 4 ≠ 0 ∧ (scan (runAB 0 64) []).owns 0 .Q (0 + ((scan (runAB 0 64) []).fetched .la 0 0).wb.toNat) 4 = false := by decide
theorem witness_Timers : 4095 < 4096 ∧ ((scan run0 []).ctx .la 0).timersDone.contains 4095 = false ∧ (scan run0 []).periodUs 0 < 2 ^ 32 := by decide
theorem witness_CounterPorts : CtrKind.ctud.hasUp = true ∧ CtrKind.ctud.hasDown = true ∧ CtrKind.ctu.hasUp = true ∧ CtrKind.ctd.hasDown = true := by decide
theorem witness_CounterEvaluation : (scan run0 []).executes .la 0 ∧ 4095 < 4096 := by
  refine ⟨⟨?_, ?_⟩, ?_⟩ <;> decide
theorem witness_FlowAndSysFunctions : (scan run0 []).isTriple 0 = true ∧ (scan run0 [(TSK_STATE_MODE 0, 3)]).isTriple 0 = false ∧ 511 < 512 := by decide
theorem witness_IllegalWords : ((scan run0 []).running .la = some 0 ∧ (scan run0 []).isTriple 0 = true ∧ decodeScan .la 0xF7000000 = none ∧
    decodeScan .la 0x4E001000 = some (.ldw .la (.at ⟨.M, 0x1000⟩)) ∧ (scan run0 []).usable 0 run0 (.ldw .la (.at ⟨.M, 0x1000⟩)) = false ∧
    (scan run0 []).bpHit 0 ((scan run0 []).ctx .la 0) = none ∧ (scan run0 []).wordOpOk 0 (.at ⟨.Q, 64⟩) = false ∧ (WordOp.at ⟨.Q, 1⟩).wf = false) ∧
    (let s := scan run0 ((TSK_STATE_MODE 0, 1) :: inVote3)
     s.running .la = some 0 ∧ s.isTriple 0 = false ∧ s.safe = false ∧ ∀ m ∈ Lane.all, s.lane m = .vote) := by decide
theorem witness_ScanWordsRoundTrip : (Instr.eval .lc .ctud 4095).scanLane = some .lc ∧ (Instr.eval .lc .ctud 4095).wf = true ∧
    (Instr.ldf .la .DZ true).scanLane = some .la ∧ (Instr.ldf .la .DZ true).wf = true := by decide

/-! ### The lanes -/

/-- A device with a configuration set and task 0 enabled. -/
def dev (fs : List (Fld × Nat)) : State := at_ ((CFG_ON, 1) :: (TSK_CFG_EN 0, 1) :: fs)

/-- A device in RUN with a program, both permits and an unlock of scope 0. -/
def runs (fs : List (Fld × Nat)) : State :=
  { dev ((DBG_PSTATE_STATE, 1) :: (DBG_PSTATE_STAND, 1) :: (DBG_PSTATE_MAINT, 1) :: (DBG_PSTATE_UNLOCK, 1) :: (DBG_PSTATE_SCOPE 0, 1) :: fs) with
    image := some image2 }

theorem witness_ActionInstant :
    ((dev []).powered = true ∧ (dev []).enabled 0 = true ∧ (dev []).on CFG_ON = true ∧ (dev []).on ACT_STEP = false ∧ (dev []).blk 3 = false) ∧
    (let s := dev ((STG_KIND 0, 1) :: (TSK_QSLICE_LEN 0, 16) :: inVote3)
     s.on MODE_PEND = false ∧ s.on TW_CFG_EN = false ∧ s.twinOn = false ∧ s.on PW_FWD = false ∧ (∀ l ∈ Lane.all, s.lane l = .vote) ∧ s.safe = false ∧
      (∀ c ∈ List.range 64, s.get (FC_CFG_MODE c) = 0) ∧ s.forces forceEntry = [] ∧ s.isTriple 0 = true ∧ s.on (RESTART 0) = false ∧ s.samples 0 = 1 ∧
      s.get (STG_KIND 0) = 1 ∧ s.get (TSK_QSLICE_BASE 0) + 4 * s.get (TSK_QSLICE_LEN 0) ≤ 65536 ∧ s.enabled 0 = true) := by decide
theorem witness_StagingPoint : ((dev []).powered = true ∧ (dev []).enabled 0 = true ∧ (dev []).on CFG_ON = true ∧ (dev []).on ACT_STEP = false ∧ (dev []).blk 3 = false ∧
    (dev []).get (PARKED 0) ≠ 2 ∧ (dev []).on TW_CFG_EN = false ∧ (dev []).on (LATE_AT 0) = false ∧ (dev []).prog = .stop) ∧
    (let s := dev [(DBG_PSTATE_STATE, 1), (STARTED 0, 1), (TSK_QSLICE_LEN 0, 16)]
     s.prog = .run ∧ s.on (STARTED 0) = true ∧ s.on (RESTART 0) = false ∧ s.tripped 0 = false ∧ s.stopped 0 = false ∧ s.on (TRIP_NEXT 0) = false ∧
      s.on (SCANNING 0) = false ∧ s.on (TSK_STATE_SKIPPING 0) = false ∧ s.on PW_PHASE = false ∧ s.get (PARKED 0) = 0 ∧ s.forces forceEntry = [] ∧
      s.get (TSK_QSLICE_BASE 0) + 4 * s.get (TSK_QSLICE_LEN 0) ≤ 65536 ∧ s.on (LATE_AT 0) = false) := by decide
theorem witness_InputAgreementAndPreemption :
    (let s := dev [(AGREE 0, 1), (TSK_ISLICE_LEN 0, 16), (DBG_PERMIT_TASK, 1)]
     s.get (AGREE 0) = 1 ∧ ((s.inputImports 0).all fun i => s.on (IMP_DONE i)) = true ∧ s.agreeTurn 0 = true ∧ s.on TW_CFG_EN = false ∧ s.on GRP_CFG_EN = false ∧
      s.get DBG_PERMIT_TASK ≠ 0 ∧ s.get (TSK_ISLICE_BASE 0) + 4 * s.get (TSK_ISLICE_LEN 0) ≤ 65536) ∧
    (let s := ((dev [(TSK_CFG_PRIO 0, 5), (TSK_CFG_EN 1, 1), (TSK_CFG_PRIO 1, 4)]).setCtx .la 0 run0).setCtx .la 1 { Ctx.start with phase := .ready }
     s.powered = true ∧ s.running .la = some 0 ∧ s.byPriority.find? (s.waiting .la) = some 1 ∧ s.get (TSK_CFG_PRIO 1) < s.get (TSK_CFG_PRIO 0)) := by decide
/-- A verdict: an agreed result with a signature. -/
def verdict5 : Verdict := { outcome := 0, named := none, sig := 5 }
theorem witness_Presentations :
    (dev []).presOf .la 0 = none ∧
    (let s := (dev []).setPres .la 0 (some .trip)
     s.presOf .la 0 = some .trip ∧ s.safe = false ∧ s.votes .la 0 = true ∧ (s.bal 0).closed = false ∧ (s.bal 0).voted = none ∧ s.on (LATE_AT 0) = false ∧
      s.exercised 0 .la = false ∧ s.partner 0 .la .trip = none ∧ (s.bal 0).seen.length + 1 < (s.voters 0).length) ∧
    ((dev []).votes .la 0 = true ∧ (((dev []).bal 0).verdicts.filter (fun v => v.1 != Lane.la) ++ [(Lane.la, verdict5)]).length < ((dev []).voters 0).length) ∧
    (let s := (dev []).setBal 0 { Balance.empty with verdicts := [(.lb, verdict5), (.lc, verdict5)] }
     let vs := (s.bal 0).verdicts.filter (fun v => v.1 != Lane.la) ++ [(Lane.la, verdict5)]
     s.votes .la 0 = true ∧ (s.voters 0).length ≤ vs.length ∧ 2 ≤ vs.length ∧ ∀ v ∈ vs, v.2 = verdict5) ∧
    (let s := (dev [(LATE_AT 0, 1)]).setBal 0 { Balance.empty with seen := [(.la, .trip), (.lb, .trip), (.lc, .trip)] }
     s.on (LATE_AT 0) = true ∧ s.halted 0 = false ∧ ∀ l ∈ s.voters 0, (s.bal 0).seen.any (fun q => q.1 == l) = true) ∧
    (let s := (dev [(LATE_AT 0, 1)]).setBal 0 { Balance.empty with seen := [(.la, .trip), (.lb, .trip)] }
     s.on (LATE_AT 0) = true ∧ s.halted 0 = false ∧ s.awaited 0 = some .lc) := by decide
theorem witness_ExchangeRows : (at_ []).powered = true ∧ 5 < 6 ∧ Lane.la ≠ Lane.lc ∧
    (let s := at_ ((KEEP_AT 0, 100001) :: (FREE, 100000) :: inVote3)
     s.safeokDue .la < 2 ^ 64 ∧ s.voting .la = true ∧ s.on (KEEP_AT 0) = true ∧ s.safeokDue .la + 1 ≤ s.get (KEEP_AT 0) + 50000 ∧ s.on (TBF 0) = false ∧
      s.safe = false ∧ s.get PWR_STATUS_STATE = 0) ∧
    (let s := at_ ((FREE, 100000) :: inVote3)
     s.on (KEEP_AT 0) = false ∧ s.safeokDue .la < 2 ^ 64) := by decide
theorem witness_LaneMonitors :
    ((at_ []).timeReporter .la = true ∧ (at_ []).safe = false ∧ (at_ []).get (TCAL 0) = 0 ∧ 250000 * 1000000 < 2 ^ (TRATIO 0).w ∧ 250000 < 2 ^ (TCAL 0).w) ∧
    ((at_ [(PACE_DUE, 1)]).on PACE_DUE = true ∧ (at_ [(PACE_DUE, 1)]).paceRef = none) ∧
    (let s := runs ((PACE_DUE, 1) :: (STARTED 0, 1) :: (PACE_W 0, 700) :: inVote3)
     s.on PACE_DUE = true ∧ s.paceRef = some 0 ∧ Lane.la ∈ s.voters 0) ∧
    (let s := at_ ((LAUNCHED 0 63, 1) :: inVote3)
     s.get (BAL_FOLLOW 63) = 0 ∧ s.voting .la = true ∧ s.on (LAUNCHED 0 63) = true ∧ s.heldChannel 63 = false ∧
      (∀ t ∈ tasks, ¬ (s.get (VEX_CELL t) = 2 * 63 + 1 + 1 ∧ s.get (VEX_NOW t) = Lane.la.code)) ∧ (∀ m ∈ Lane.all, s.lane m = .vote) ∧ s.safe = false) := by decide
theorem witness_AssayAndSeeding :
    (let s := at_ [(LN_STATUS_ST 0, 3), (ASSAY_STEP 0, 5), (FREE, 7500000)]
     s.lane .la = .assay ∧ s.get (ASSAY_STEP 0) = 5 ∧ s.safe = false ∧ s.now ≤ s.get (ASSAY_T0 0) + 7500000) ∧
    (let s := (dev [(LN_STATUS_ST 0, 4), (LN_STATUS_ST 1, 1), (LN_STATUS_ST 2, 1)]).setBal 0 { Balance.empty with voted := some (.image [] 0) }
     s.lane .la = .seeding ∧ s.nextSeed .la = some 0 ∧ (s.bal 0).voted = some (.image [] 0) ∧ s.healthy .la = [.lb, .lc] ∧
      (s.seedRegions 0).all (s.sameIn .lb .lc) = true ∧ s.sameEdges .lb .lc 0 = true) ∧
    (let s := dev [(LN_STATUS_ST 0, 4), (SEED_BUSY 0 0, 1), (NEXT_A 0, 2001)]
     s.lane .la = .seeding ∧ s.on (SEED_BUSY 0 0) = true ∧ s.now + 2000 < s.get (NEXT_A 0)) ∧
    (let s := dev [(LN_STATUS_ST 0, 4), (SEED_BUSY 0 0, 1), (NEXT_A 0, 2000)]
     s.get (NEXT_A 0) ≤ s.now + 2000 ∧ s.get (SEED_TRY 0 0) < 4) ∧
    (let s := dev [(LN_STATUS_ST 0, 2), (PROB_N 0 0, 16)]
     s.lane .la = .probation ∧ ∀ t ∈ s.tripleTasks, s.get (PROB_N 0 t) = 16) := by decide
theorem witness_ModesAndMaintenance :
    (dev [(LN_STATUS_ST 1, 1)]).modeRefusal 0 2 = 0 ∧
    (let s := dev [(MODE_PEND, 1), (FREE, 2000)]
     s.on MODE_PEND = true ∧ s.get MODE_PT = 0 ∧ s.safe = false ∧ s.enabled 0 = true ∧ s.get MODE_AT + 2000 ≤ s.now + (s.instantFrom 0 (s.get (A_FROM 0)) - s.netTime) ∧
      s.isTriple 0 = true) ∧
    (let s := dev [(MODE_PEND, 1), (MODE_COPY, 3), (TSK_STATE_MODE 0, 2), (FREE, 2000)]
     s.isTriple 0 = false ∧ s.get MODE_COPY = 3) ∧
    (let s := dev [(MODE_PEND, 1), (MODE_COPY, 1), (TSK_STATE_MODE 0, 2), (TSK_QSLICE_LEN 0, 16)]
     s.singleLane 0 = some .lb ∧ s.get MODE_COPY = 1 ∧ s.image = none ∧ s.get (TSK_QSLICE_BASE 0) + 4 * s.get (TSK_QSLICE_LEN 0) ≤ 65536 ∧
      s.get (TSK_MWIN_BASE 0) + s.get (TSK_MWIN_LEN 0) ≤ 8192) ∧
    (let s := at_ [(DBG_PSTATE_MAINT, 1), (DBG_PSTATE_UNLOCK, 1), (DBG_PSTATE_SCOPE 3, 1)]
     s.maintPermit = true ∧ s.unlocked 3 = true) := by decide

/-! ### The machine as a whole -/

theorem witness_StepRunsTheFrontCommand : ({ State.reset with pending := [.stopRequest, .autorun] } : State).pending = .stopRequest :: [.autorun] := by decide
theorem witness_IdleStepIsOneGrain : State.reset.pending = [] ∧ State.reset.powered = true ∧ State.reset.get SLEW_N = 0 ∧ State.reset.get SLEW_T = 0 ∧
    State.reset.get TN_RATE_RATE = 0 ∧ State.reset.get RATE_FRAC < 2 ^ 32 ∧ State.reset.get FREE + 1 < 2 ^ FREE.w ∧
    (∀ l : Lane, State.reset.get (TNET l.idx) + 1 < 2 ^ (TNET l.idx).w) ∧ (at_ [(PW_STATE, 3)]).powered = false ∧ (at_ [(PW_STATE, 3)]).pending = [] := by
  refine ⟨?_, ?_, ?_, ?_, ?_, ?_, ?_, fun l => ?_, ?_, ?_⟩ <;> first | decide | (cases l <;> decide)
theorem witness_EveryStepKeepsTheCanonicalForm : State.reset.wf = true ∧ (dev [(FREE, 5)]).wf = true := by decide

/-! ### Program states, snapshots, debugging and the unlock -/

theorem witness_ProgramStateRequests :
    ((at_ []).powered = true ∧ (at_ []).blk 2 = false ∧ (at_ []).psRefusal 0 = 4 ∧ (at_ []).psRefusal 1 = 7 ∧ (at_ []).psRefusal 2 = 4) ∧
    ((runs []).powered = true ∧ (runs []).blk 2 = false ∧ (runs []).psRefusal 0 = 0 ∧ (runs []).psRefusal 2 = 0) ∧
    (runs [(DBG_PSTATE_STATE, 0)]).psRefusal 1 = 0 ∧ (runs [(DBG_PSTATE_STATE, 2)]).psRefusal 1 = 0 ∧
    (let s := runs [(DBG_PSTATE_STATE, 0), (DBG_RCFG_AUTORUN, 1), (AUTO_DUE, 1)]
     s.prog = .stop ∧ s.on DBG_RCFG_AUTORUN = true ∧ s.on AUTO_DUE = true ∧ s.image.isSome = true ∧ s.on CFG_ON = true ∧ s.safe = false ∧
      s.on PS_PEND = false ∧ s.on ACT_STEP = false ∧ s.on FB_PEND = false ∧ s.startBad = false) ∧
    (let s := runs [(TSK_STATE_TRIPPED 0, 1)]
     s.blk 2 = false ∧ s.safe = false ∧ s.prog = .run ∧ s.enabled 0 = true ∧ s.tripped 0 = true ∧ s.standPermit = true) := by decide
theorem witness_SnapshotsOfRetainedWords :
    (let s := runs [(DBG_RCFG_SNAP_PERIOD, 1), (REC_OPTIME_LO_MS, 1000)]
     s.powered = true ∧ s.image.isSome = true ∧ s.snapDue = true ∧ s.on SNAP_BUSY = false) ∧
    (let s := runs [(SNAP_BUSY, 1)]
     s.powered = true ∧ s.on SNAP_BUSY = true ∧ s.on SNAP_AGAIN = false ∧ s.copiesDiffer = false ∧
      (((s.destroy (snapSlot 0) 0x20000).raise DBG_EVT_SNAPFAIL DBG_EVCNT_FAULT_CNT).ev 0x2015 0 0 1).on SNAP_AGAIN = false ∧
      s.on FB_PEND = false ∧ s.on PFAIL_SEQ = false ∧ s.get PW_PHASE = 0 ∧ s.get SNAP_SLOT < 2) := by decide

/-- A device in HOLD whose task 0 has halted on its three lanes. -/
def heldTask (fs : List (Fld × Nat)) : State :=
  (runs ((DBG_PSTATE_STATE, 2) :: (DBG_TSTAT_HALTED 0, 1) :: fs)).each Lane.all fun s l => s.setCtx l 0 { Ctx.start with phase := .halted }

theorem witness_DebugOfAHeldTask : ((runs []).powered = true ∧ (runs []).debugs = false) ∧
    (let s := runs [(DBG_PSTATE_STATE, 2)]
     s.debugs = true ∧ s.halted 0 = false ∧ ((s.lanesOf 0).filter fun l => s.inScan l 0) = []) ∧
    ((heldTask []).debugs = true ∧ (heldTask []).halted 0 = true ∧ (heldTask []).haltedIn .la 0 = true ∧ (heldTask []).on (HALT_REP 0 0) = false ∧
      (heldTask []).safe = false ∧ (heldTask []).on (LATE_AT 0) = false) ∧
    (let s := (heldTask []).each Lane.all fun s l => s.setByte (progBase l + 3) 3
     s.halted 0 = true ∧ ∀ l ∈ (s.lanesOf 0).filter (fun l => s.haltedIn l 0), s.running l = none ∧ decodeScan l (s.fetch l 0) = some (.nop l)) ∧
    (heldTask [(TSK_STATE_MODE 0, 1)]).isTriple 0 = false ∧
    ((heldTask []).isTriple 0 = true ∧ (heldTask inVote3).inVote .la = true ∧ (heldTask []).haltLanes 0 = 0 ∧ 2 ≤ ((heldTask []).voters 0).length ∧
      ∀ m ∈ Lane.all, (heldTask []).on (HALT_REP 0 m.idx) = false) ∧
    (let s := heldTask ((HALT_REP 0 1, 1) :: inVote3)
     Lane.lb ∈ s.voters 0 ∧ s.on (HALT_REP 0 1) = true ∧ s.haltedIn .lb 0 = true ∧ (s.ctx .lb 0).report = (s.ctx .la 0).report ∧
      s.on (HALT_REP 0 0) = false ∧ s.on (HALT_REP 0 2) = false) := by decide +kernel

/-- A ring descriptor at the front of ring 0. -/
def desc (op p0 p1 p2 len : Nat) : Desc :=
  { ring := 0, slot := 0, head := 1, op := op, fence := false, wait := false, cmd := 7, p0 := p0, p1 := p1, p2 := p2, buf := 0x1000, len := len, st := .queued }
/-- A device with a descriptor in ring 0. -/
def ring (d : Desc) (fs : List (Fld × Nat)) : State := { dev fs with descs := [d] }

theorem witness_UnlockAndIdentity :
    (let s := at_ [(DBG_PSTATE_UNLOCK, 1), (UNLOCK_AT, 7), (FREE, 150000000007)]
     s.powered = true ∧ s.on DBG_PSTATE_UNLOCK = true ∧ s.get UNLOCK_AT + 150000000000 ≤ s.now ∧ s.prog ≠ .hold) ∧
    (let s := at_ [(DBG_UNLOCKSTAT_LOCKOUT, 1), (LOCK_AT, 7), (FREE, 15000000007)]
     s.on DBG_UNLOCKSTAT_LOCKOUT = true ∧ s.get LOCK_AT + 15000000000 ≤ s.now) ∧
    ((ring (desc 0x70 0 0 0 32) []).nextDesc 0 = some (desc 0x70 0 0 0 32) ∧ (ring (desc 0x70 0 0 0 32) []).on DBG_UNLOCKSTAT_LOCKOUT = false ∧
      32 ≤ (desc 0x70 0 0 0 32).len) ∧
    (let d := desc 0x71 0 0 0 4631
     let s := ring d [(NONCE_ON, 1), (DBG_PSTATE_MAINT, 1), (FREE, 14999999999)]
     s.nextDesc 0 = some d ∧ (List.replicate 4631 (1 : Byte)).length = d.len ∧ s.on DBG_UNLOCKSTAT_LOCKOUT = false ∧ s.on NONCE_ON = true ∧
      s.now < s.get NONCE_AT + 60000 * grainsMs ∧ s.maintPermit = true) ∧ ofLe (([1, 0, 0, 0, 9] : List Byte).take 4) < 16 ∧
    (ring (desc 0x72 0 0 0 0) []).nextDesc 0 = some (desc 0x72 0 0 0 0) ∧ (ring (desc 0x68 0 0 0 5140) []).nextDesc 0 = some (desc 0x68 0 0 0 5140) ∧
    (ring (desc 0x69 0 0 0 9972) []).nextDesc 0 = some (desc 0x69 0 0 0 9972) ∧ (List.replicate 32 (5 : Byte)).length = 32 := by decide +kernel
/-- The response that some enrolled key verifies: whatever the signature scheme (an uninterpreted function) accepts, the first key with the scope is found. -/
theorem witness_UnlockResponse (h : ∀ a b c, Config.mldsaVerify a b c = true) :
    let d := desc 0x71 0 0 0 4631
    let s := (ring d [(NONCE_ON, 1), (DBG_PSTATE_MAINT, 1), (FREE, 14999999999)]).setByte (keyStore 0 + 1) 8
    let bs : List Byte := [1, 0, 0, 0] ++ List.replicate 4627 9
    s.nextDesc 0 = some d ∧ bs.length = d.len ∧ ofLe (bs.take 4) < 16 ∧ s.on DBG_UNLOCKSTAT_LOCKOUT = false ∧ s.on NONCE_ON = true ∧
      s.now < s.get NONCE_AT + 60000 * grainsMs ∧ s.maintPermit = true ∧ s.unlockKey (bs.take 4) (bs.drop 4) = some 0 := by
  refine ⟨by decide +kernel, by decide +kernel, by decide +kernel, by decide +kernel, by decide +kernel, by decide +kernel, by decide +kernel, ?_⟩
  simp only [State.unlockKey, h, Bool.and_true]; decide +kernel

theorem witness_OnLineChange :
    (let s : State := { runs ((DBG_OLC_STATE, 1) :: inVote3) with olcImage := some { image2 with layoutHash := 2 } }
     s.powered = true ∧ s.get DBG_OLC_STATE = 1 ∧ s.inVote .la = true ∧ s.on (OLC_OK 0) = false ∧ s.olcImage = some { image2 with layoutHash := 2 } ∧
      (let u := (s.loadChanged .la { image2 with layoutHash := 2 }).set (OLC_OK 0) 1; u.inVote .lb = true ∧ u.on (OLC_OK 1) = false)) ∧
    (let s : State := { runs ((DBG_OLC_STATE, 1) :: (OLC_OK 0, 1) :: (OLC_OK 2, 1) :: inVote3) with olcImage := some { image2 with layoutHash := 2 } }
     s.inVote .lb = true ∧ s.on (OLC_OK 1) = false ∧ ∀ m ∈ Lane.all, s.inVote m = true → m = .lb ∨ s.on (OLC_OK m.idx) = true) ∧
    (let s : State := { runs [(DBG_OLC_STATE, 2)] with olcImage := some image2 }
     s.powered = true ∧ s.get DBG_OLC_STATE = 2 ∧ s.image = some image2 ∧ s.olcImage = some image2) := by decide

/-! ### Field channels and brake groups -/

/-- A DUAL_CONTACT channel 63. -/
def contact (fs : List (Fld × Nat)) : State := at_ ((FC_CFG_MODE 63, 1) :: fs)

theorem witness_ContactStateMachine :
    ((contact []).powered = true ∧ (contact []).debounces 63 = true ∧ (contact []).get (FC_CFG_MODE 63) = 1 ∧ (contact []).readbackGroups 63 = [] ∧
      (contact []).demandGroups 63 = [] ∧ (groups.all fun g => decide ((contact []).get (BRK_CFG_OUTCH g) < 64 ∧ (contact []).get (BRK_CFG_TASK g) < 16)) = true) ∧
    (let s := contact [(FC_FILT_DEB 63, 10), (DEB_AT 2 63 0, 500)]
     max s.now (max (s.debounceDue .lc 63 0 true) (s.debounceDue .lc 63 1 true)) = 40500 ∧ s.dc .lc 63 ≠ .fault) ∧
    (let s := contact [(FC_STATUS_DC 63 2, 2), (FC_FILT_DISC 63, 5), (DISC_AT 2 63, 1000), (FREE, 6000001)]
     s.dc .lc 63 = .discWait ∧ s.discEnd .lc 63 < s.now) ∧
    (contact [(FC_STATUS_DC 63 2, 3)]).dc .lc 63 = .fault := by decide
theorem witness_SigmaDeltaWindows :
    (let s := at_ [(FC_CFG_MODE 32, 3), (FC_CFG_OSR 32, 5)]
     s.powered = true ∧ s.get (FC_CFG_MODE 32) = 3 ∧ s.bankFault 32 = false ∧ s.get (FC_CFG_OSR 32) ≤ 5 ∧ s.on (SD_CLKF 1 32) = false ∧ s.get (SD_SKIP 1 32) ≤ 7 + 1 ∧
      s.get (SD_WIN 1 32) ≤ 7 ∧ 2 ^ 27 - 16 ≤ 2 ^ (3 * (s.get (FC_CFG_OSR 32) + 4)) ∧ sdResult 9 (2 ^ 27 - 16) ≤ 8388607 ∧ -8388608 < sdResult 9 8 ∧
      s.on (SD_OVW 32) = false ∧ s.on (SD_CLKEV 32) = false ∧ ∀ m ∈ Lane.all, s.on (SD_CLKF m.idx 32) = false) ∧
    (let s := at_ [(FC_CFG_MODE 0, 3), (SD_CLKF 2 0, 1), (FC_SDCLK_DIV 0, 10)]
     s.on (SD_CLKF 2 0) = true ∧ s.on (SD_CLKF 0 0) = false ∧ s.on (SD_CLKF 1 0) = false ∧ s.on (SD_CLKEV 0) = false ∧
      max s.now (s.sdClearAt .lc 0 7) < s.get SDCLK_T0 + s.sdDiv 0 * (7 * 2 ^ (s.get (FC_CFG_OSR 0) + 4)) + 250) := by decide
theorem witness_SpeedAndSupplies :
    (let s := at_ [(FC_CFG_MODE 3, 4), (FC_SPD_MINPW 3, 100), (SPD_EDGE 0 3 1, 51), (SPD_EDGE 0 3 0, 51)]
     let e : SpeedEdge := { phaseA := false, rising := true, at_ := 149, other := false, both := false }
     s.powered = true ∧ s.get (FC_CFG_MODE 3) = 4 ∧ s.bankFault 3 = false ∧ s.get (FC_CFG_SPMODE 3) < 2 ∧ s.pulseHeld .la 3 e = false ∧
      s.pulseHeld .la 3 { e with at_ := 150 } = true ∧ s.phaseError .la 3 { e with at_ := 150 } = false ∧ s.pulseHeld .la 3 { e with phaseA := true, at_ := 150 } = true) ∧
    (let s := at_ [(FC_CFG_MODE 3, 4), (SPD_LASTPH 0 3, 2), (SPD_LASTDIR 0 3, 1), (SPD_EDGE 0 3 1, 51)]
     ∃ o ∈ [false, true], ∃ r ∈ [false, true], s.phaseError .la 3 { phaseA := false, rising := r, at_ := 150, other := o, both := false } = true) ∧
    (let s := at_ [(FC_CFG_MODE 3, 4), (FC_SPD_STILL 3, 2), (SPD_LAST 0 3, 10), (SPD_STILL 0 3, 0), (FREE, 500009)]
     s.on (SPD_STILL 0 3) = false) ∧
    (let s := at_ []
     s.on (BANKF 1) = false ∧ ((upto 64).all fun c => s.get (FC_CFG_MODE c) == 0) = true ∧ (groups.all fun g => !s.grpOn g) = true) ∧
    (at_ [(BANKF 0, 1)]).on (BANKF 0) = true := by decide
theorem witness_BrakeTests :
    (let s := at_ [(BRK_CFG_EN 15, 1), (BRK_DARK_EN 15, 1), (BRK_BRIGHT_EN 15, 1), (BRK_DARK_PER 15, 60), (BRK_BRIGHT_PER 15, 60), (REC_OPTIME_LO_MS, 60000)]
     s.powered = true ∧ s.grpOn 15 = true ∧ s.on (BRK_DARK_EN 15) = true ∧ s.on (BRK_BRIGHT_EN 15) = true ∧ 1000 * s.get (BRK_DARK_PER 15) ≤ s.testAge 15 true ∧
      1000 * s.get (BRK_BRIGHT_PER 15) ≤ s.testAge 15 false) ∧
    (let s := at_ ((TEST_GO 0, 1) :: inVote3)
     s.get (TEST_GO 0) = 1 ∧ s.blk 4 = false ∧ s.unheld 0 = true ∧ s.safe = false ∧ s.holders 0 = [] ∧ s.get (BRK_CFG_OUTCH 0) < 64) ∧
    ((at_ [(TEST_GO 0, 1), (BRK_HOLD 2 0, 1)]).unheld 0 = false) ∧
    (let s := at_ ((TEST_GO 0, 2) :: inVote3)
     s.get (TEST_GO 0) = 2 ∧ s.on (AGREE (s.get (BRK_CFG_TASK 0))) = false ∧ s.unheld 0 = true ∧ s.holders 0 = []) ∧
    (let s := at_ [(PULSE 0, 1), (BRK_DARK_WIDTH 0, 3)]
     s.on (PULSE 0) = true ∧ s.get (BRK_CFG_OUTCH 0) < 64) ∧
    (let s := at_ [(WIN 0, 1), (SEEN 0 0, 1), (SEEN 1 0, 1), (SEEN 2 0, 1)]
     s.get (WIN 0) = 1 ∧ (Lane.all.all fun l => s.on (SEEN l.idx 0)) = true ∧ s.on (PULSE 0) = false) ∧
    (at_ []).resetRefusal 65535 = 1 ∧
    (at_ [(DBG_PSTATE_MAINT, 1), (BRK_CFG_EN 0, 1), (BRK_STAT_LATCHED 0, 1)]).resetRefusal 1 = 0 := by decide

/-! ### The schedule network -/

/-- A rod entry with a right CRC, from its first three words. -/
def rodWords (w0 w1 w2 : Nat) : List Nat := [w0, w1, w2, 65536 * crc16 ((natWordBytes [w0, w1, w2, 0]).take 14)]
/-- A flow context with a right CRC, from its first seven words. -/
def flowWords (w : List Nat) : List Nat := w ++ [crc32c (natWordBytes w)]
/-- A node with furlongs of 1 ms, channel 0 enabled with its ports used, and one rod (index 5) of the active bank with a flow. -/
def node (kind w2 : Nat) (fs : List (Fld × Nat)) : State :=
  let s := at_ ((TN_CFG_EN 0, 1) :: (TN_FURLONG_LEN_US, 1000) :: (TN_PORT_USED 0, 1) :: (TN_PORT_USED 1, 1) :: (TN_SYNCST_STATE, 4) :: (TN_WIN_GUARD, 100) :: (TN_WIN_ACCEPT, 100) :: fs)
  { s with rodTab := Sparse.set [] (rodKey s.bank 0 5) [] (rodWords (1000 + kind * 2 ^ 25) 40000 w2), flowTab := Sparse.set [] 7 [] (flowWords [1 + 65536 * 4, 0, 0, 0, 0, 0, 0]) }
/-- A frame of this network with a payload of 16 bytes that ends in its CRC. -/
def netFrame (s : State) (kind : Nat) (pl : List Byte) : NetFrame := s.frame (s.header kind 0 0 false false 0 0x3FF 0 16 ++ sealed pl)

theorem witness_ActionInstantGrid : 0 < (node 1 0 []).furlongGrains ∧ (node 1 0 [(TSK_OFFSET_PHASE 3, 4), (TSK_CFG_KPER 3, 4)]).get (TSK_OFFSET_PHASE 3) ≤ 4 ∧
    (node 1 0 [(TSK_OFFSET_PHASE 3, 4), (TSK_CFG_KPER 3, 4)]).instantFrom 3 1 = 1000000 := by decide +kernel
theorem witness_PhyPortsAndMdio :
    (let s := node 1 0 [(PHYRST, 1), (TN_PORT_LINK 0, 1)]
     s.powered = true ∧ s.on PHYRST = true ∧ s.on (TN_CFG_EN 0) = true ∧ s.get TN_MDIOSTAT_OUTCOME ≠ 1 ∧ ((4 : BitVec 16).getLsbD 2 && true) = s.on (TN_PORT_LINK 0)) ∧
    ((node 1 0 [(TN_PORT_SYNC 3, 1)]).on (TN_PORT_SYNC 3) = true ∧ ((node 1 0 [(TN_PORT_SYNC 3, 1)]).on (PHY_LINK 3) && true) = (node 1 0 [(TN_PORT_SYNC 3, 1)]).on (TN_PORT_LINK 3)) ∧
    ((node 1 0 [(TN_MDIOSTAT_OUTCOME, 1)]).get TN_MDIOSTAT_OUTCOME = 1 ∧ (node 1 0 [(TN_MDIOSTAT_OUTCOME, 1), (MDIO_WRITE, 1)]).on MDIO_WRITE = true) := by decide +kernel
theorem witness_DelayMeasurement :
    (let s := node 1 0 [(TN_PORT_LINK 3, 1), (TN_PORT_SYNC 3, 1), (DLY_ON 3, 1), (DLY_REQ 3, 63), (FREE, 4000)]
     s.powered = true ∧ s.portUp 3 = true ∧ s.on (DLY_ON 3) = true ∧ s.get (DLY_AT 3) < 2 ^ 64 ∧ s.get (DLY_REQ 3) = 63 ∧
      s.delayValid (s.delayFrame 3 1 62 0 0) 1 = true ∧ sealOk (frPayload (s.delayFrame 3 1 62 0 0)) = true) ∧
    (let s := node 1 0 [(TN_PORT_LINK 3, 1), (TN_PORT_SYNC 3, 1), (DLY_ON 3, 1), (DLY_REQ 3, 63), (DLY_T1 3, 5001), (DLY_N 3, 14), (TN_SCHEDID_ID, 0xBEEF)]
     let f := s.delayFrame 3 2 62 700 900
     s.portUp 3 = true ∧ s.delayValid f 2 = true ∧ sealOk (frPayload f) = true ∧ s.get (DLY_T1 3) = 5000 + 1 ∧ s.get (DLY_N 3) = 14 ∧ ofBe (slice (frPayload f) 12 2) = s.get TN_SCHEDID_ID ∧
      ((frPayload f).getD 1 0).toNat + 1 = s.get (DLY_REQ 3) ∧ ((frPayload (s.delayFrame 3 2 61 700 900)).getD 1 0).toNat + 1 ≠ s.get (DLY_REQ 3) ∧ 9000 ≤ 5000 + 4000) ∧
    (let s := node 1 0 [(TN_PORT_LINK 3, 1), (TN_PORT_SYNC 3, 1), (DLY_AT 3, 9), (DLY_REQ 3, 64)]
     s.portUp 3 = true ∧ s.on (DLY_ON 3) = false ∧ s.used 3 = false ∧ s.on (DLY_AT 3) = true ∧ s.get (DLY_REQ 3) = 64) := by decide +kernel
/-- A host frame of 60 data bytes. -/
def hostFrame : NetFrame := { dst := 1, src := 2, etype := 0x0800, data := List.replicate 60 3, fcsOk := true }
/-- A node with an OPEN rod of `len` grains that its first channel sends on both ports, with a host frame queued. -/
def openNode (len : Nat) : State :=
  let s := node 5 (3 * 2 ^ 10) [(FREE, 2000), (TNET 0, 2000), (TNET 1, 2000), (TNET 2, 2000)]
  { s with rodTab := Sparse.set [] (rodKey s.bank 0 5) [] (rodWords (1000 + 5 * 2 ^ 25) len (3 * 2 ^ 10)), openTx := [(0, hostFrame)] }
theorem witness_RodsSent :
    (let s := node 1 (7 + 2 ^ 10) inVote3
     let r := s.rod s.bank 0 5
     s.powered = true ∧ s.on (ROD_SKIP (rodKey s.bank 0 5)) = false ∧ r.crcOk = true ∧ r.kind = 1 ∧ s.on (FCTX_SKIP 7) = false ∧
      s.ctxFit 7 = true ∧ s.nextStart 1000 = 1000 ∧ (s.elapseNet 1000).missReason 0 1000 r = some 4) ∧
    (let s := node 1 (7 + 2 ^ 10) ((TN_SYNCST_STATE, 1) :: inVote3)
     (s.elapseNet 1000).missReason 0 1000 (s.rod s.bank 0 5) = some 0) ∧
    (let s := node 1 7 inVote3
     (s.elapseNet 1000).missReason 0 1000 (s.rod s.bank 0 5) = some 2) ∧
    (let s := node 1 (7 + 3 * 2 ^ 10) ((SND_RDY 7, 1) :: inVote3)
     let u := s.elapseNet 1000
     u.missReason 0 1000 (s.rod s.bank 0 5) = none ∧ u.sendPick 7 = some 0 ∧ s.get (SND_LASTF 7) ≠ u.furlong + 1 ∧ (s.flow 7).len ≤ 1984 ∧
      u.txPorts 0 (s.rod s.bank 0 5) = [0, 1]) ∧
    (let s := node 4 (2 ^ 10 + 3 * 2 ^ 26) ((TN_CFG_NODE, 3) :: (TN_SYNCCFG_SYNC_CAP, 1) :: inVote3)
     let r := s.rod s.bank 0 5
     r.crcOk = true ∧ r.kind = 4 ∧ r.sender = s.get TN_CFG_NODE ∧ s.on TN_SYNCCFG_SYNC_CAP = true ∧
      (s.elapseNet 1000).windowOpen 1000 = true ∧ (s.elapseNet 1000).inSync = true ∧ (s.elapseNet 1000).txPorts 0 r = [0]) ∧
    (let s := node 4 (2 ^ 10 + 3 * 2 ^ 26) [(TN_CFG_NODE, 3), (TN_SYNCCFG_SYNC_CAP, 1), (LN_STATUS_ST 0, 1), (LN_STATUS_ST 1, 1), (LN_STATUS_ST 2, 3), (TNET 1, 900)]
     (s.elapseNet (s.nextStart 1000)).windowOpen (s.nextStart 1000) = false) ∧
    (let s := node 6 (2 ^ 10 + 3 * 2 ^ 26) ((TN_CFG_NODE, 3) :: inVote3)
     (s.rod s.bank 0 5).kind = 6 ∧ (s.rod s.bank 0 5).sender = s.get TN_CFG_NODE ∧ (s.elapseNet 1000).windowOpen 1000 = true ∧ (s.elapseNet 1000).inSync = true ∧
      ((s.set TN_SYNCST_STATE 1).elapseNet 1000).inSync = false) ∧
    (let s := openNode 40000
     let r := s.rod s.bank 0 5
     let u := s.elapseNet (s.nextStart r.start)
     r.crcOk = true ∧ r.kind = 5 ∧ s.inSync = true ∧ u.openRodNow 0 = some (5, r) ∧ s.openTx = [(0, hostFrame)] ∧ u.txPorts 0 r = [0, 1] ∧ (∀ p ∈ u.txPorts 0 r, s.get (OPEN_END p) ≤ u.netTime) ∧
      u.netTime + 2 * (38 + max 46 hostFrame.data.length) ≤ u.furlong * s.furlongGrains + r.start + r.len - s.get TN_WIN_ACCEPT) ∧
    (let s := openNode 295
     let r := s.rod s.bank 0 5
     let u := s.elapseNet (s.nextStart r.start)
     u.openRodNow 0 = some (5, r) ∧ (∀ p ∈ u.txPorts 0 r, s.get (OPEN_END p) ≤ u.netTime) ∧
      u.furlong * s.furlongGrains + r.start + r.len - s.get TN_WIN_ACCEPT < u.netTime + 2 * (38 + max 46 hostFrame.data.length)) := by decide +kernel
/-- `node` with flow 7 a RECEIVE flow of 4 bytes, of age limits 1. -/
def rxNode (kind w2 : Nat) (fs : List (Fld × Nat)) : State :=
  { node kind w2 fs with flowTab := Sparse.set [] 7 [] (flowWords [2 + 65536 * 4, 0x101, 0, 0, 0, 0, 0]) }
/-- The fields that put every lane's time at grain `n` with `n` grains run, and the first port's delay at 0. -/
def timeAt (n : Nat) : List (Fld × Nat) := [(TN_DELAY_P 0, 0), (FREE, n), (TNET 0, n), (TNET 1, n), (TNET 2, n)]
theorem witness_FramesReceived :
    (let s := node 1 0 []
     let f := netFrame s 5 (List.replicate 14 0)
     s.used 1 = true ∧ f.etype = s.get TN_CFG_ETYPE ∧ (frHdr f).crcOk = true ∧ (frHdr f).kind = 5 ∧ s.inSync = true ∧
      (s.rodAt 1 (s.arrival 0) (s.get TN_WIN_ACCEPT) fun r => r.kind != 5) = none) ∧
    (let s := rxNode 2 (7 + 2 ^ 12 + 2 ^ 14) (timeAt 1100)
     let f := { netFrame s 5 (List.replicate 14 0) with fcsOk := false }
     let r := s.rod s.bank 0 5
     s.rodAt 0 (s.arrival 1100) (s.get TN_WIN_ACCEPT) (fun r => r.kind != 5) = some (5, r, 100, 0) ∧
      ((s.elapseNet (s.frameEnd r 0 0)).rodFrame 0 1100 5 r 0 f).2 = false) ∧
    (let s := rxNode 2 (7 + 2 ^ 12 + 2 ^ 14) (timeAt 1000)
     let f := s.frame (s.header 0 0 7 false false 0 5 1 4 ++ [1, 2, 3, 4])
     let r := s.rod s.bank 0 5
     (frHdr f).crcOk = true ∧ (frHdr f).kind = 0 ∧ s.rodAt 0 (s.arrival 1000) (s.get TN_WIN_ACCEPT) (fun r => r.kind != 5) = some (5, r, 0, 0) ∧
      r.kind = 2 ∧ r.rx 0 = true ∧ r.crcOk = true ∧ s.ctxFit 7 = true ∧ f.fcsOk = true ∧ s.headerFault (frHdr f) r 0 0 = none ∧ (s.flow 7).safety = false ∧
      (frHdr f).age ≤ (s.flow 7).freshLim ∧ s.get (FL_ACC 7) ≠ 0 + 1 ∧ (s.flow 7).len ≤ 1984) := by decide +kernel
theorem witness_SyncFramesReceived :
    (let s := node 1 0 [(TN_SYNCST_STATE, 0)]
     let f := netFrame s 1 (List.replicate 14 0)
     (frHdr f).crcOk = true ∧ (frHdr f).kind = 1 ∧ (frPayload f).getD 0 0 = 0 ∧ s.get TN_SYNCST_STATE = 0 ∧ f.fcsOk = true ∧ (node 1 0 [(TN_SYNCST_STATE, 5)]).listens = true) ∧
    (let s := node 4 (2 ^ 12 + 2 ^ 14 + 9 * 2 ^ 26) ((TN_SYNCST_STATE, 1) :: (TN_SCHEDID_ID, 0xBEEF) :: timeAt 77)
     let x := s.set TN_CFG_NODE 9
     let f := s.frame (x.header 1 0 0 false false 8 5 0 16 ++ x.syncPayload 1000)
     let h := frHdr f
     h.crcOk = true ∧ h.kind = 1 ∧ (frPayload f).getD 0 0 = 0 ∧ s.listens = true ∧ f.fcsOk = true ∧
      s.syncEntry 0 h.sender (ofBe (slice (frPayload f) 2 4) % 2 ^ 25) = some (s.rod s.bank 0 5) ∧
      h.mismatch (s.rod s.bank 0 5) 1 0 0 (some false) (decide (h.plen = 16)) h.furlong = none ∧ s.syncFault (frPayload f) 1000 ((s.rod s.bank 0 5).hop 0) = none) ∧
    (let s := node 4 (2 ^ 12 + 2 ^ 14 + 9 * 2 ^ 26) ((TN_SYNCCFG_SWIN, 50) :: inVote3 ++ timeAt 1030)
     let x := s.set TN_CFG_NODE 9
     let f := s.frame (x.header 1 0 0 false false 0 5 0 16 ++ x.syncPayload 1000)
     let r := s.rod s.bank 0 5
     s.inSync = true ∧ (frHdr f).crcOk = true ∧ s.rodAt 0 (s.arrival 1030) (s.get TN_SYNCCFG_SWIN) (fun r => r.kind == 4 && r.sender == (frHdr f).sender && r.rx 0) = some (5, r, 30, 0) ∧
      r.crcOk = true ∧ s.headerFault (frHdr f) r 0 0 = none ∧ s.syncFault (frPayload f) r.start (r.hop 0) = none ∧
      (∀ l ∈ Lane.all, (s.offset r 0 (s.arrivalIn l 1030)).1.natAbs ≤ s.get TN_SYNCCFG_SWIN ∧ s.on (MEAS l.idx (frHdr f).sender) = false)) := by decide +kernel
theorem witness_OtherFramesReceived :
    (let s := node 1 0 [(TN_SCHEDID_ID, 9)]
     let f := s.coldstartFrame 0 1
     (frHdr f).crcOk = true ∧ (frHdr f).kind = 2 ∧ f.fcsOk = true ∧ (frHdr f).coldOk = true ∧ s.coldFault (frPayload f) = none ∧ s.get TN_SYNCST_STATE ≠ 2 ∧
      (let v := node 1 0 [(TN_SCHEDID_ID, 9), (TN_SYNCST_STATE, 1), (TN_CFG_NODE, 4)]
       v.coldFault (frPayload f) = none ∧ v.listens = true ∧ (frHdr f).sender ≠ v.get TN_CFG_NODE ∧ v.coldFirst (frHdr f).sender ((frPayload f).getD 0 0).toNat 0 = true)) ∧
    (let s := node 1 0 []
     (frHdr (netFrame s 4 (List.replicate 14 0))).crcOk = true ∧ (frHdr (netFrame s 4 (List.replicate 14 0))).kind = 4 ∧ s.inSync = true) ∧
    (let s := rxNode 3 (7 + 2 ^ 11 + 2 ^ 14) (inVote3 ++ timeAt 1000)
     let f := s.frame (s.header 0 0 7 false false 0 5 1 4 ++ [1, 2, 3, 4])
     let r := s.rod s.bank 0 5
     s.used 1 = true ∧ s.inSync = true ∧ s.rodAt 0 (s.arrival 1000) (s.get TN_WIN_ACCEPT) (fun r => r.tx 1 && r.kind != 5) = some (5, r, 0, 0) ∧ r.crcOk = true ∧ r.kind = 3 ∧
      s.ctxFit 7 = true ∧ s.headerFault (frHdr f) r 0 0 = none ∧ (frHdr f).crcOk = true ∧ (s.elapseNet (1000 + 250)).windowOpen (1000 + 250) = true) ∧
    (let s := node 5 (2 ^ 12) (timeAt 1000)
     (frHdr (netFrame s 3 (List.replicate 14 0))).kind = 3 ∧ s.inSync = true ∧ s.inOpenRod 0 (s.arrival 1000) = some (5, s.rod s.bank 0 5) ∧
      (s.rod s.bank 0 5).crcOk = true ∧ s.inOpenRod 0 (s.arrival 999) = none ∧
      (let f : NetFrame := { dst := s.macOf 0, src := 1, etype := 0x88F7, data := List.replicate 46 0, fcsOk := true }
       f.etype ≠ s.get TN_CFG_ETYPE ∧ f.dst = s.macOf (s.get TN_CFG_NODE) ∧ openBytes f ≤ 1522 ∧ held (s.openRx.map fun q => (q.1 / 2, q.2)) 0 + openBytes f ≤ 32768)) := by decide +kernel
theorem witness_ReceiveAgesAndSync :
    (let s := rxNode 2 (7 + 2 ^ 12 + 2 ^ 14) []
     let fur := s.endFurlong 0 5
     let r := s.rod (s.bankAt fur) 0 5
     s.on (TN_CFG_EN 0) = true ∧ r.kind = 2 ∧ s.rodEnd 0 r = s.lastEnd (s.bankAt fur) r.flow ∧ s.get (FL_ENDF r.flow) ≠ fur + 1 ∧ s.get (FL_ACC r.flow) ≠ fur + 1 ∧
      (s.set (FL_ACC 7) 1).get (FL_ACC 7) = fur + 1 ∧ (s.set (FL_ENDF 7) 1).get (FL_ENDF 7) = (s.set (FL_ENDF 7) 1).endFurlong 0 5 + 1) ∧
    (let s := node 2 0 [(TN_SYNCCFG_MISS_LIM, 2)]
     s.inSync = true ∧ s.get CORR_F ≠ s.furlong + 1 ∧ (∀ l ∈ Lane.all, s.correction l = none) ∧ min (s.get SYNC_MISSED + 1) 255 < s.get TN_SYNCCFG_MISS_LIM) ∧
    (let s := node 2 0 ((MEAS 0 9, 1) :: (MEAS 1 9, 1) :: (MEAS 2 9, 1) :: (MEAS_M 0 9, 20) :: (MEAS_M 1 9, 20) :: (MEAS_M 2 9, 20) :: inVote3)
     ∃ m ∈ [0, 10, 20], ∀ l ∈ Lane.all, s.inVote l = true ∧ (s.correction l).map (·.1) = some m ∧ s.correction l = s.correction .la) ∧
    (let s := node 2 0 inVote3
     s.get TN_SYNCST_STATE = 4 ∧ s.on COLD_ME = false ∧ s.on CORR_ON = false ∧ s.on ROD_RELOAD = false ∧ s.on GRP_CFG_EN = false ∧ s.get TW_STAT_ROLE = 0 ∧
      (∀ l ∈ Lane.all, s.inVote l = true ∧ s.get (TNET l.idx) = s.netTime) ∧ s.on TN_BANK_PENDING = false) ∧
    (let s := node 2 0 ((TN_BANK_PENDING, 1) :: (TN_BANK_TARGET, 1) :: (TN_SWF_F_SW, 1) :: inVote3)
     s.on TN_BANK_PENDING = true ∧ s.get TN_BANK_TARGET < 2 ∧ ((s.elapseNet ((s.get BND_F + 1) * s.furlongGrains)).furlong + 2 ^ 32 - s.get TN_SWF_F_SW) % 2 ^ 32 < 2 ^ 31) ∧
    (let s := node 2 0 [(TN_SYNCST_STATE, 1), (LISTEN_AT, 1)]
     s.powered = true ∧ s.listens = true ∧ s.on LISTEN_AT = true ∧ s.on TN_SYNCCFG_COLD_CAP = false) ∧
    (let s := node 2 0 [(TN_SYNCST_STATE, 1), (LISTEN_AT, 1), (TN_SYNCCFG_COLD_CAP, 1), (TN_SYNCST_ATTEMPTS, 2)]
     s.listens = true ∧ s.on TN_SYNCCFG_COLD_CAP = true ∧ s.get TN_SYNCST_ATTEMPTS = 2 ∧ 0 ∈ s.usedPorts) ∧
    (at_ [(TB_STATUS_PLL_LOCK, 1)]).on TB_STATUS_PLL_LOCK = true := by decide +kernel
theorem witness_WakeBursts :
    (let s := node 1 0 [(PW_STATE, 2), (TN_WAKECFG_MATCH_EN, 1), (TN_WAKECFG_COUNT, 2), (TN_CFG_NODE, 63)]
     let f := netFrame s 3 (beBytes 8 (2 ^ 63) ++ beBytes 1 0 ++ beBytes 1 5 ++ beBytes 2 0 ++ beBytes 2 0)
     let g := netFrame s 3 (beBytes 8 (2 ^ 62) ++ beBytes 6 0)
     s.get PW_STATE = 2 ∧ (frHdr f).kind = 3 ∧ f.etype = s.get TN_CFG_ETYPE ∧ s.matchesWake f = true ∧ s.matchesWake g = false ∧ s.on TN_WAKECFG_MATCH_EN = true ∧
      s.wakeSeen = [] ∧ 1 < s.get TN_WAKECFG_COUNT) ∧
    ((at_ []).powered = true ∧ (at_ []).on TN_WAKESTAT_SENDING = false ∧ (at_ [(TN_WAKESTAT_SENDING, 1)]).on TN_WAKESTAT_SENDING = true) ∧
    (let s := node 1 0 [(TN_SYNCST_STATE, 1), (TN_WAKESTAT_SENDING, 1), (WB_N, 14)]
     s.get WB_N = 14 ∧ s.inSync = false ∧ s.usedPorts = [0, 1]) ∧
    (at_ [(TN_WAKESTAT_SENDING, 1), (WB_N, 15)]).get WB_N = 15 := by decide +kernel

/-! ### CAN -/

/-- A CAN controller 3 that is running, with object 127 configured by its words 0 to 3. -/
def canDev (w : List Nat) (fs : List (Fld × Nat)) : State :=
  let s := at_ ((CN_CTL_MODE 3, 1) :: (CN_STATUS_STATE 3, 1) :: fs)
  let b := natWordBytes (w ++ [0, 0, 0])
  s.setBytes (canMem 3 127) (b ++ leBytes 4 (crc32c b))

theorem witness_CanFrames :
    (let s := canDev [1, 5, 0, 0] [(CN_PEND 3 127, 1)]
     s.powered = true ∧ s.get (CN_STATUS_STATE 3) = 1 ∧ s.get (CN_ERRCNT_TEC 3) < 96 ∧ s.get (CN_ERRCNT_REC 3) < 96 ∧ s.canMaySend 3 = true ∧ s.get (CN_TXOBJ 3) = 0 ∧
      ((s.canPending 3).filter fun k => !s.on (CO_DIS 3 k)) = [127] ∧ (s.canObj 3 127).crcOk = true) ∧
    (let s := canDev [1, 5, 0, 0] [(CN_PEND 3 127, 1), (CN_TXOBJ 3, 128), (CO_AGAIN 3 127, 1), (CO_DROP 3 127, 1)]
     s.get (CN_TXOBJ 3) = 127 + 1 ∧ s.get (CN_CTL_MODE 3) ≠ 4) ∧
    (let s := canDev [2, 5, 0, 0] []
     let f : CanFrame := { ide := false, id := 0x7FF, fdf := true, brs := false, esi := false, data := List.replicate 64 7 }
     let g : CanFrame := { ide := true, id := 0x7FF, fdf := true, brs := false, esi := false, data := [] }
     s.canReceives 3 = true ∧ s.get (CN_CTL_MODE 3) ≠ 3 ∧ f.fdf = true ∧ f.data.length ∈ [12, 16, 20, 24, 32, 48, 64] ∧ g.data.length ≤ 8 ∧
      (s.objects 3 2).find? (fun k => (s.canObj 3 k).takes f) = some 127 ∧ (s.canObj 3 127).crcOk = true ∧
      s.get (CO_CNT 3 127) = 0 ∧ (s.objects 3 2).find? (fun k => (s.canObj 3 k).takes g) = none ∧ s.on (CN_CTL_PEX_OFF 3) = false) ∧
    (let s := canDev [2, 5, 0, 0] [(CN_CTL_PEX_OFF 3, 1), (CN_ERRCNT_REC 3, 94)]
     s.on (CN_CTL_PEX_OFF 3) = true ∧ s.canReceives 3 = true ∧ s.get (CN_ERRCNT_REC 3) < 95) := by decide +kernel
theorem witness_CanErrorsAndRequests :
    (let s := canDev [1, 5, 0, 0] [(CN_ERRCNT_TEC 3, 87), (CN_ERRCNT_REC 3, 87), (CN_TXOBJ 3, 128), (CO_RUN 3 127, 14)]
     s.powered = true ∧ s.get (CN_CTL_MODE 3) = 1 ∧ s.get (CN_STATUS_STATE 3) = 1 ∧ s.get (CN_ERRCNT_TEC 3) < 88 ∧ s.get (CN_ERRCNT_REC 3) < 88 ∧
      s.get (CN_TXOBJ 3) = 127 + 1 ∧ s.get (CO_RUN 3 127) < 15) ∧
    (let s := canDev [1, 5, 0, 0] [(CN_ERRCNT_TEC 3, 248), (CN_STATUS_STATE 3, 2), (CN_TXOBJ 3, 128)]
     s.get (CN_STATUS_STATE 3) ≠ 3 ∧ 248 ≤ s.get (CN_ERRCNT_TEC 3) ∧ s.get (CN_ERRCNT_TEC 3) < 256) ∧
    (let s := canDev [1, 5, 0, 0] [(CN_STATUS_STATE 3, 3), (CN_STATUS_RECOVERING 3, 1), (CN_CTL_RECOV 3, 1)]
     s.get (CN_STATUS_STATE 3) = 3 ∧ s.on (CN_STATUS_RECOVERING 3) = true ∧ s.on (CN_CTL_RECOV 3) = true) ∧
    (canDev [] []).recoverRefusal 3 = 1 ∧ (canDev [] [(CN_STATUS_STATE 3, 3)]).recoverRefusal 3 = 2 ∧
    (canDev [1, 5, 0, 0] [(CN_COLL 3 127, 1)]).clearRefusal 3 127 = 0 ∧ (canDev [1, 5, 0, 0] []).clearRefusal 3 127 = 2 ∧
    (canDev [33, 5, 0, 0] []).clearRefusal 3 127 = 1 := by decide +kernel

/-! ### The host interface -/

/-- The host interface enabled, with rings 15 of 64 entries. -/
def host (fs : List (Fld × Nat)) : State := dev ((HIF_CTL_EN, 1) :: (HIF_SQ_CFG_EN 15, 1) :: (HIF_SQ_CFG_CQ 15, 15) :: (HIF_CQ_CFG_EN 15, 1) :: (HIF_CQ_STAT_PHASE 15, 1) :: fs)

theorem witness_RingInterface :
    (let s := host [(SQ_TAIL 15, 1), (DB_FAILS, 14)]
     s.powered = true ∧ s.get HIF_EVVEC_VEC < 32 ∧ s.hifOn = true ∧ s.sqLive 15 = true ∧ ((([] : List Word).getD 15 0).toNat < s.sqSize 15) ∧
      (([] : List Word).getD 31 0).toNat < s.cqSize 15 ∧ ((upto 15).all fun r => !s.sqLive r && !s.on (HIF_CQ_CFG_EN r)) = true ∧ s.get DB_FAILS < 15 ∧
      s.nextRing = some 15 ∧ 0 < s.sqSize 15 ∧ s.shadowQ = [] ∧ (List.replicate 32 (0 : Byte)).length = 32) ∧
    (let d := { desc 0 0 0 0 0 with ring := 15, slot := 63, st := .done 0 5 }
     let s : State := { host [(HIF_CQ_STAT_TAIL 15, 63), (CQ_HEAD 15, 1)] with descs := [d] }
     s.on PERST = false ∧ s.on D3 = false ∧ s.get (HIF_SQ_CFG_CQ 15) = 15 ∧ s.get (HIF_CQ_CFG_VEC 15) < 32 ∧ s.on (HIF_CQ_CFG_EN 15) = true ∧ s.on (HIF_CQ_STAT_FAULT 15) = false ∧
      0 < s.cqSize 15 ∧ s.cqFull 15 = false ∧ (s.ringDescs 15).find? (fun d => d.slot == 63) = some d ∧ d.st = .done 0 5 ∧ s.get (HIF_CQ_STAT_PHASE 15) ≤ 1) ∧
    (let s := host [(V_CNT 31, 1), (MSIX_MASK 31, 0)]
     s.on (V_CNT 31) = true ∧ s.on (MSIX_MASK 31) = false ∧ s.on (MSIX_PENDING 31) = false) ∧
    ((host [(V_CNT 31, 1), (MSIX_MASK 31, 1)]).on (MSIX_MASK 31) = true ∧ (host [(MSIX_PENDING 31, 1)]).on (MSIX_PENDING 31) = true) ∧
    ((dev []).on HIF_CTL_EN = false ∧ (dev []).on (HIF_SQ_CFG_EN 15) = false ∧ (dev []).on (HIF_CQ_CFG_EN ((dev []).get (HIF_SQ_CFG_CQ 15))) = false ∧
      (dev [(HIF_CQ_CFG_EN ((dev []).get (HIF_SQ_CFG_CQ 15)), 1)]).on (HIF_CQ_CFG_EN ((dev []).get (HIF_SQ_CFG_CQ 15))) = true) ∧
    ((dev []).get HIF_STATUS_SPEED ≠ 3 ∧ (dev []).on PERST = false ∧ (dev []).get UPD_SESSION_HOLDER ≠ 1 ∧ (dev [(PERST, 1)]).on PERST = true) := by decide +kernel
theorem witness_RingCommands :
    (ring (desc 0 0 0 0 0) []).nextDesc 0 = some (desc 0 0 0 0 0) ∧ (desc 0x10 511 0 0 2048).op = 0x10 ∧
    (let s := { ring (desc 0x11 7 0 0 4) [] with flowTab := Sparse.set [] 7 [] (flowWords [1 + 65536 * 4, 0, 0, 0, 0, 0, 0]) }
     s.ctxFit 7 = true ∧ (s.flow 7).dir = 1 ∧ (s.flow 7).safety = false ∧ (s.flow 7).en = false ∧ (s.flow 7).len = 4) ∧
    (let s := ring (desc 0x20 1 0 0 64) []
     (frameOf (List.replicate 64 1)).etype ≠ s.get TN_CFG_ETYPE ∧ openBytes (frameOf (List.replicate 64 1)) ≤ 1522 ∧ s.openRodNow 1 = none ∧ held s.openTx 1 + openBytes (frameOf (List.replicate 64 1)) ≤ 32768) ∧
    (let s := canDev [1 + 512 + 8 * 4096, 5, 0, 0] []
     s.hostFed 3 127 = true ∧ (s.canObj 3 127).len = 8 ∧ (s.safe = false ∨ (s.canObj 3 127).safety = false) ∧ s.on (CO_STOP 3 127) = false ∧ (3 + 4 * 127) % 4 = 3 ∧ (3 + 4 * 127) / 4 = 127) ∧
    (let s := ring (desc 0x73 255 0 0 12) [(DBG_PSTATE_UNLOCK, 1), (DBG_PSTATE_SCOPE 1, 1), (DBG_PSTATE_SCOPE 2, 1), (TSK_QSLICE_LEN 0, 16)]
     let bs := leBytes 4 (60 + 65536) ++ leBytes 4 9 ++ leBytes 4 1
     ofLe (bs.take 4) % 4 = 0 ∧ ofLe (bs.take 4) < 2 ^ 17 ∧ ofLe (bs.drop 8) ≠ 0 ∧ s.unlocked 1 = true ∧ s.unlocked 2 = true ∧ (ofLe (bs.take 4)).testBit 16 = true ∧
      s.sliceOwner .Q 60 = some 0 ∧ s.forceSafety .Q 60 0 = false ∧ s.debugRequest.sliceOwner .Q 60 = some 0) ∧
    (let f : NetFrame := { dst := 1, src := 2, etype := 3, data := [], fcsOk := true }
     let s : State := { ring (desc 0x21 1 0 0 64) [] with openRx := [(3, f)] }
     (s.ringDescs 0).find? (fun x => x.op == 0x21 && x.st == .waiting && s.openRx.any fun q => q.1 / 2 == x.p0) = none ∧
      s.openRx.find? (fun q => q.1 / 2 == 1) = some (3, f) ∧ s.openRx.find? (fun q => q.1 / 2 == 0) = none) ∧
    (canDev [1, 5, 0, 0] [(CN_STATUS_STATE 3, 3), (CN_CTL_RECOV 3, 1)]).recoverRefusal 3 = 0 ∧
    (let s := runs [(STARTED 0, 1)]
     s.on (HIF_SNAP_PENDING 0) = false ∧ s.snappable 0 = true ∧ s.snapSize 0 ≤ 64 ∧ s.blk 2 = false ∧ (desc 0x32 0 0 0 128).len = 128 ∧ (desc 0x51 0 0 0 32).len = 32 ∧ s.psRefusal 2 = 0 ∧ (runs [(LN_STATUS_ST 2, 1)]).modeRefusal 0 3 = 0 ∧ s.on TN_WAKESTAT_SENDING = false) ∧
    ((runs [(UNLOCK_AT, 1)]).unlocked 0 = true ∧ (0x140 + 4 * 3) % 4 = 0 ∧ 0x100 + 64 * 1 + 4 * 3 = 0x14C ∧ (runs [(DBG_PSTATE_SCOPE 1, 1)]).unlocked 1 = true ∧ (runs [(TSK_STATE_TRIPPED 0, 1)]).tripped 0 = true ∧ (runs []).powerRingRefusal 1 = 0 ∧ (runs [(PW_PHASE, 1)]).powerRingRefusal 0 = 0) ∧
    (at_ [(DBG_PSTATE_MAINT, 1), (BRK_CFG_EN 0, 1), (BRK_STAT_LATCHED 0, 1)]).resetRefusal 1 = 0 ∧
    (let s := runs [(HIF_SNAP_PENDING 0, 1), (SNAPW 0, 1), (LN_STATUS_ST 1, 1), (SNAP_TRY 0, 6)]
     s.powered = true ∧ s.on (HIF_SNAP_PENDING 0) = true ∧ s.on (SNAPW 0) = true ∧ s.snapLane 0 = some .lb ∧ s.get (SNAP_TRY 0) < 7 ∧
      (let d := { desc 0x40 0 0 0 4096 with st := .waiting }
       ({ s with descs := [d] } : State).descs.find? (fun d => d.op == 0x40 && d.p0 == 0 && d.st == .waiting) = some d ∧
        (s.snapBytes 0 .lb (s.get (SNAP_TRY 0) + 1)).length ≤ d.len)) := by decide +kernel

/-! ### The bridge and the companion links -/

/-- A device whose four companion links are up: CL0 to a partner, CL1 to CL3 as the role says. -/
def linked (role : Nat) (fs : List (Fld × Nat)) : State :=
  at_ ((upto 4).map (fun k => (CL_STAT_STATE k, 4)) ++ (upto 4).map (fun k => (CL_CFG_ROLE k, role)) ++ fs)
/-- An operation of the bridge. -/
def far (kind ini far tag len : Nat) (st : FarSt) : FarOp :=
  { kind := kind, ini := ini, sharers := [ini], far := far, tag := tag, addr := 0x1000, len := len, data := [], st := st, began := 0, arrived := 0 }
/-- Operations of the bridge in a state. -/
def ops (s : State) (os : List FarOp) : State := { s with farOps := os }

theorem witness_SemaphoreTimeout :
    ((at_ [(BR_SEM_OWNER 63, 0)]).get (BR_SEM_OWNER 63) = 0 ∧ 1 ≤ (at_ [(BR_CFG_SEMTO, 1)]).get BR_CFG_SEMTO ∧ (at_ [(BR_CFG_SEMTO, 1000)]).get BR_CFG_SEMTO ≤ 1000) := by decide
theorem witness_BridgeOperations :
    ((at_ []).powered = true ∧ (at_ []).reaches 5 0 = true ∧ readFits 0xE00 512 = true ∧ (linked 1 []).reaches 0 4 = true ∧ (linked 2 []).reaches 3 1 = true) ∧
    (let find := fun (s : State) => s.farOps.find? fun o => o.kind == 0 && o.ini == 5 && o.far == 0 && o.addr == 0x1000 && o.len == 64
     find (ops (at_ []) [far 0 5 0 3 64 .buffered]) = some (far 0 5 0 3 64 .buffered) ∧ find (ops (at_ []) [far 0 5 0 3 64 .failed]) = some (far 0 5 0 3 64 .failed) ∧
      find (ops (at_ []) [far 0 5 0 3 64 .flying]) = some (far 0 5 0 3 64 .flying) ∧ find (at_ []) = none) ∧
    (let u := (at_ []).set (BR_ANS 5) 1
     u.opFree (far 0 5 0 0 64 .waiting) = true ∧ u.linesFree (far 0 5 0 0 64 .waiting) = true ∧ ((at_ []).farOps.filter fun x => x.kind == 0 && x.ini == 5).length < 8) ∧
    ((linked 1 []).holding 0 = false ∧ (linked 1 []).linkUp 3 = true ∧ (at_ [(CL_CFG_ROLE 3, 1)]).linkUp 3 = false ∧
      (ops (linked 1 []) [far 1 1 4 2 64 .flying]).farOps.find? (fun o => o.kind == 1 && decide (o.ini < 3) && o.far == 4 && o.addr == 0x1000 && o.len == 64 &&
        (o.st == .waiting || o.st == .flying || (o.st == .buffered && decide ((at_ []).now ≤ o.arrived + 500)))) = some (far 1 1 4 2 64 .flying)) ∧
    ((ops (at_ []) [far 0 5 0 3 64 .flying]).tagged 0 3 = some (far 0 5 0 3 64 .flying) ∧ (List.replicate 64 (0 : Byte)).length = 64) ∧
    (let s := ops (at_ []) [far 0 5 0 3 64 .buffered]
     s.farOps.find? (fun o => o.kind == 0 && o.ini == 5 && o.addr == 0x1000 && o.len == 64 && o.st == .buffered) = some (far 0 5 0 3 64 .buffered)) ∧
    (let s := ops (linked 2 []) [far 1 3 1 2 64 .flying]
     s.farOps.find? (fun o => o.kind == 1 && o.sharers.contains 3 && (o.st == .waiting || o.st == .flying)) = some (far 1 3 1 2 64 .flying) ∧ (far 1 3 1 2 64 .flying).sharers = [3]) ∧
    ((linked 2 []).reaches 8 1 = true ∧ (linked 2 []).writing 8 = false ∧ (at_ []).reaches 7 0 = true) ∧
    ((ops (at_ []) [far 2 8 0 127 256 .flying]).tagged 0 127 = some (far 2 8 0 127 256 .flying) ∧ (far 2 8 0 127 256 .flying).ini < 9) ∧
    ((ops (linked 2 []) [far 2 8 4 15 256 .flying]).tagged 4 15 = some (far 2 8 4 15 256 .flying)) ∧
    ((linked 2 [(PAL_FAIL 3, 1)]).get (PAL_FAIL 3) < 2 ∧ (linked 2 []).get (BR_PALERT_WORD 3) % 256 ≠ (7 : Word).toNat % 256) ∧
    ((linked 2 []).get (CL_CFG_ROLE 3) = 2 ∧ (at_ []).on TW_CFG_EN = false) ∧
    ((at_ []).get (BR_SEM_OWNER 63) = 0xFF ∧ (at_ [(BR_SEM_OWNER 63, 9)]).get (BR_SEM_OWNER 63) = 9) ∧
    (let s : State := { at_ [(GRP_CFG_EN, 1), (AGREE 0, 1), (GRP_CFG_DL, 1), (FREE, 250)] with cfg := { State.reset.cfg with imports := [(11, [2 ^ 20, 1])] } }
     s.impOn 11 = true ∧ s.on GRP_CFG_EN = true ∧ s.get (AGREE (s.impTask 11)) = 1 ∧ s.importing = none ∧ s.on (IMP_DONE 11) = false ∧ s.farOps = [] ∧
      (upto 3).find? (fun k => s.memberOf k == s.ictx 11 1 % 4) = some 0 ∧ s.linkUp 0 = false ∧ (s.set (CL_STAT_STATE 0) 4).linkUp 0 = true) ∧
    (let s : State := { at_ [(GRP_CFG_EN, 1), (AGREE 0, 1)] with cfg := { State.reset.cfg with imports := [(11, [2 ^ 20, 0])] } }
     s.impOn 11 = true ∧ s.get (AGREE (s.impTask 11)) = 1 ∧ (upto 3).find? (fun k => s.memberOf k == s.ictx 11 1 % 4) = none) := by decide +kernel

/-- A packet of a companion link. -/
def packet (kind tag addr len spec : Nat) (d : List Byte) : ClPacket :=
  { kind := kind, tag := tag, seq := 3, ack := 9, addr := addr, len := len, spec := spec, data := d }
/-- What a right partner says of itself to CL3 of a member 0. -/
def partner : ClIdent := { devid := 0, role := 1, side := 0, setid := 0, furlong := 1000, size := 0 }

theorem witness_CompanionLinks :
    (let s := linked 1 []
     s.powered = true ∧ s.linkUp 3 = true ∧ ((s.recvCl 3 (packet 0 1 0x3E00 512 0 [])).inboundRead 3 0x3E00 512).isSome = true ∧
      (s.recvCl 3 (packet 0 1 0x4000 4 0 [])).inboundRead 3 0x4000 4 = none ∧
      (let p := packet 2 1 0x10100 4 0 (leBytes 4 (63 + 64 + 256 * 9)); p.kind = 2 ∧ p.data.length = p.len ∧ p.addr = 0x10100 ∧ ofLe p.data = 63 + 64 + 256 * 9 ∧
        s.get (BR_SEM_OWNER 63) = 0xFF) ∧ s.farOps = [] ∧ s.twinOut = []) ∧
    (let d := List.replicate 512 (1 : Byte)
     d.length = 512 ∧ (linked 2 []).get (CL_CFG_ROLE 0) = 2 ∧ twinArea 0x110000 512 = true ∧ twinArea 0x10100 4 = false ∧ twinArea 0x1FFFFF 2 = false) ∧
    (let s := (ops (linked 2 []) [far 0 8 1 5 4 .flying]).recvCl 0 (packet 1 5 0 4 2 [1, 2, 3, 4])
     s.tagged 1 5 = some (far 0 8 1 5 4 .flying)) ∧
    (let s := (ops (linked 2 []) [far 2 8 1 6 4 .flying]).recvCl 0 (packet 3 6 0 0 0 [])
     s.tagged 1 6 = some (far 2 8 1 6 4 .flying)) ∧
    (let s := linked 1 [(GRP_CFG_EN, 1), (GRP_CFG_TSRC, 1), (GRP_STAT_DEVID, 1)]
     s.takesTime 2 = true ∧ s.get GRP_STAT_TSTATE ≠ 2 ∧ s.get GRP_STAT_TSTATE ≠ 3 ∧ 8 ≤ (leBytes 8 77).length) ∧
    (let s := linked 1 [(GRP_CFG_EN, 1), (GRP_CFG_TSRC, 1), (GRP_STAT_DEVID, 1), (GRP_STAT_TSTATE, 2), (CL_DELAY_DELAY 2, 3), (TNET 0, 80), (TNET 1, 80), (TNET 2, 80)]
     s.linkUp 2 = true ∧ s.takesTime 2 = true ∧ s.get GRP_STAT_TSTATE = 2 ∧ s.netTime = ofLe ((leBytes 8 77).take 8) + s.get (CL_DELAY_DELAY 2)) ∧
    ((linked 1 [(CL_RPL 3, 2)]).get (CL_RPL 3) < 3) ∧
    (let s := at_ [(CL_STAT_STATE 3, 1), (CL_CFG_ROLE 3, 1), (CL_ALIGN 3, 31), (TN_FURLONG_LEN_US, 1000)]
     s.get (CL_STAT_STATE 3) = 1 ∧ s.get (CL_ALIGN 3) = 31 ∧ partner.devid < 4 ∧ partner.side < 2 ∧ partner.role < 4 ∧ s.identCause 3 partner = none) ∧
    (let s := at_ [(CL_STAT_STATE 3, 3), (CL_DT1 3, 101), (CL_DREQ 3, 6), (CL_DN 3, 14)]
     s.get (CL_STAT_STATE 3) = 3 ∧ s.get (CL_DT1 3) = 100 + 1 ∧ 5 + 1 = s.get (CL_DREQ 3) ∧ 4100 ≤ 100 + 4000 ∧ s.get (CL_DN 3) < 15 ∧ s.get (CL_DREQ 3) < 64) ∧
    ((at_ [(CL_STAT_STATE 0, 3)]).get (CL_STAT_STATE 0) ≤ 3 ∧ (at_ [(CL_STAT_STATE 0, 6)]).get (CL_STAT_STATE 0) = 6 ∧ (linked 1 []).get (CL_STAT_STATE 0) = 4 ∧
      (at_ [(CL_CFG_ROLE 0, 2)]).get (CL_STAT_STATE 0) = 0 ∧ (at_ [(CL_CFG_ROLE 0, 2)]).wanted 0 = true ∧ (at_ []).blk 9 = false) := by decide +kernel

/-! ### The twin, the recorder, updates, power and reset -/

/-- A twin unit of role `r` (1 INIT, 2 LEAD, 3 STANDBY) with task 0 among its tasks. -/
def twin (r : Nat) (fs : List (Fld × Nat)) : State := dev ((TW_CFG_EN, 1) :: (TW_TASKS_TASKS 0, 1) :: (TW_STAT_ROLE, r) :: fs)
/-- A record with its code. -/
def coded (b : List Byte) : List Byte := b ++ leBytes 4 (crc32cFrom 0 b)
/-- A lease message of the other side, number 5. -/
def leaseBytes : List Byte := coded (leBytes 4 0x54574C31 ++ leBytes 1 1 ++ leBytes 1 0 ++ leBytes 1 1 ++ leBytes 1 0 ++ leBytes 8 0 ++ leBytes 8 0 ++ leBytes 4 5)
/-- The head of a mirror record of task 0 at furlong 0, number 5. -/
def mirrorHead (marker n : Nat) : List Byte := coded (leBytes 4 marker ++ leBytes 4 0 ++ leBytes 8 0 ++ leBytes 4 5 ++ List.replicate n 0)

theorem witness_TwinMessages :
    (let s := (twin 2 [(TW_CFG_LEASE, 0)]).setBytes (twinWin 0) leaseBytes
     s.powered = true ∧ s.twinOn = true ∧ s.receivers = [.la, .lb, .lc] ∧ s.receivers.any (s.leaseAgain false) = false ∧
      (s.receivers.all fun l => s.leaseCheck false l == none && s.leaseIn false l == s.leaseIn false .la) = true) ∧
    (let s := (twin 2 [(TW_ASEQ, 6)]).setBytes (twinWin 0) leaseBytes
     s.receivers.any (s.leaseAgain false) = true) ∧
    ((twin 2 []).receivers.all fun l => (twin 2 []).leaseCheck false l != none) = true ∧
    (twin 1 [(DBG_PSTATE_MAINT, 1)]).soloRefusal = 0 ∧ (twin 1 []).soloRefusal = 1 ∧
    (let s := (twin 3 []).setBytes (twinWin ((twin 3 []).slotOff 0)) (mirrorHead 0x54574D41 44)
     s.ledElsewhere 0 = true ∧ s.sizeA 0 = 68 ∧ twoAccept (s.recordIn 0 0x54574D41 (s.bytes (twinWin (s.slotOff 0)) (s.sizeA 0))).2 = true ∧ s.shadows 0 = false) ∧
    (let s := (twin 3 []).setBytes (twinWin ((twin 3 []).slotOff 0 + 68)) (mirrorHead 0x54574D42 12)
     twoAccept (s.recordIn 0 0x54574D42 (s.recordBIn 0)).2 = true) ∧
    twoAccept ((twin 3 []).recordIn 0 0x54574D41 ((twin 3 []).bytes (twinWin ((twin 3 []).slotOff 0)) 68)).2 = false ∧
    twoAccept ((twin 3 []).recordIn 0 0x54574D42 ((twin 3 []).recordBIn 0)).2 = false ∧
    (let s := (twin 2 []).setBytes (twinWin 0x40) (coded (leBytes 4 0x54575251 ++ leBytes 4 1 ++ leBytes 4 9))
     twoAccept (s.receivers.map fun l => (l, s.requestCheck l (s.bytes (twinWin 0x40) 16))) = true ∧ s.role = .lead) ∧
    twoAccept ((twin 2 []).receivers.map fun l => (l, (twin 2 []).requestCheck l ((twin 2 []).bytes (twinWin 0x40) 16))) = false ∧
    (let s := (twin 3 [(TW_RXON 0, 1)]).setBytes (twinWin 0x60000) (mirrorHead 0x54575343 12)
     let p := s.recordIn 0 0x54575343 s.chunkIn
     s.role = .standby ∧ twoAccept p.2 = true ∧ p.1.ledElsewhere 0 = true ∧ p.1.on (TW_RXON 0) = true ∧ ofLe (slice s.chunkIn 20 4) = p.1.get (TW_RXOFF 0) ∧
      (p.1.set (TW_RXOFF 0) 4).get (TW_RXOFF 0) ≠ ofLe (slice s.chunkIn 20 4) ∧ (p.1.set (TW_RXON 0) 0).on (TW_RXON 0) = false) ∧
    twoAccept ((twin 3 []).recordIn 0 0x54575343 (twin 3 []).chunkIn).2 = false ∧ (twin 3 [(TW_RXON 0, 1)]).on (TW_RXON 0) = true := by decide +kernel

/-- A record with a SEQ. -/
def recd (seq : Nat) : Rec := { id := 1, seq := some seq, code := 0x2015, src := 0, flags := 0, time := 5, pcyc := 0, p32 := 0, a := 0, b := 0, c := 0, written := 5 }

theorem witness_Recorder :
    (let s : State := { at_ [(REC_STAT_READY, 1)] with recQ := [recd 4294967294, recd 3] }
     s.powered = true ∧ s.on REC_STAT_READY = true ∧ s.on REC_STAT_EXHAUST = false ∧ s.finalDue = false ∧ s.blk 10 = false ∧ s.pfailHolds = false ∧
      s.recQ = recd 4294967294 :: [recd 3] ∧ (recd 4294967294).seq = some 4294967294 ∧ s.on PFAIL_SEQ = false ∧ s.get REC_LOST = 0) ∧
    (let s : State := { at_ [(REC_OPTIME_LO_MS, 104)] with recRew := [recd 8193] }
     s.recRew.find? (fun x => x.seq == some 8193) = some (recd 8193) ∧ s.on GLB_SUPPLY_PFAIL = false ∧ s.opTime < (recd 8193).written + 100 ∧ s.opTime < (recd 8193).time + 1000) ∧
    (let s : State := { at_ [(REC_OPTIME_LO_MS, 105)] with recRew := [recd 8192] }
     s.recRew.find? (fun x => x.seq == some 8192) = some (recd 8192) ∧ s.blk 10 = false ∧ s.on PFAIL_SEQ = false ∧ (recd 8192).written + 100 ≤ s.opTime ∧
      s.on REC_STAT_FCLOSED = false) ∧
    (let s := at_ [(START_STEP, 1)]
     s.on START_STEP = true ∧ s.on REC_STAT_READY = false ∧ s.on REC_NEWSLOT_AREA = false ∧ s.opTime + 1 < 2 ^ 48) ∧
    (let s := at_ [(OPT_IDX, 15), (REC_OPTIME_LO_MS, 10000)]
     s.get OPT_IDX = 15 ∧ s.on IN_RESET = false ∧ s.get OPT_OP + 10000 ≤ s.opTime ∧ s.opTime < 2 ^ 48) := by decide +kernel

/-- The first 128 bytes of a settings container that key 0 signs. -/
def settingsHeader : List Byte := leBytes 4 0x4C5A4331 ++ leBytes 1 1 ++ leBytes 1 3 ++ leBytes 2 0x3C64 ++ List.replicate 120 0
/-- Ring 0 holds a descriptor, and the host holds the session with kind `k` open. -/
def session (d : Desc) (k : Nat) (fs : List (Fld × Nat)) : State := ring d ((UPD_SESSION_HOLDER, 1) :: (UPD_SESSION_OPEN k, 1) :: (SES_KIND, k + 1) :: fs)

theorem witness_UpdateSessions :
    (let s := ring (desc 0x60 4 0 0 0) []
     s.nextDesc 0 = some (desc 0x60 4 0 0 0) ∧ s.on REL_ON = false ∧ s.get UPD_SESSION_HOLDER = 0 ∧ s.on (UPD_SESSION_OPEN 4) = false ∧ s.blk 1 = false ∧ s.probation = false ∧ s.olcBusy = false ∧ s.safe = false) ∧
    (let s := (session (desc 0x61 0 0 0 128) 3 []).setByte (keyStore 0 + 1) 4
     s.get SES_KIND = 3 + 1 ∧ s.on (UPD_SESSION_OPEN 3) = true ∧ s.on (UPD_SESSION_VERIFIED 3) = false ∧ s.get (SES_N 3) = 0 ∧ settingsHeader.length = 128 ∧
      (s.headerReasons 3 settingsHeader).all (fun p => !p.1) = true ∧ 0 + 128 ≤ (imgHdr settingsHeader).total) ∧
    (let s := session (desc 0x62 0 0 0 0) 3 [(UPD_SESSION_VERIFIED 3, 1)]
     (maskKinds 5 s.openMask).isEmpty = false ∧ ((maskKinds 5 s.openMask).filter fun k => !s.on (UPD_SESSION_VERIFIED k)) = []) ∧
    (let s := session (desc 0x63 0 0 0 0) 3 [(UPD_SESSION_VERIFIED 3, 1), (DBG_PSTATE_STAND, 1), (CFG_ON, 0)]
     s.openMask ≠ 0 ∧ s.verifiedMask = s.openMask ∧ s.checksPass s.openMask = true ∧ s.prog = .stop ∧ s.standPermit = true ∧ s.laneAway = false ∧ s.safe = false ∧ s.probation = false ∧ s.olcBusy = false) ∧
    ((at_ [(UPD_SESSION_HOLDER, 1)]).on UPD_SESSION_HOLDER = true) ∧
    (let m := leBytes 4 0x54575550 ++ leBytes 1 0x65 ++ leBytes 1 0 ++ leBytes 2 7 ++ List.replicate 12 0
     let s := (at_ [(UPD_NET_NETEN, 1), (UPD_SESSION_HOLDER, 2)]).setBytes (flowBuf 0) (m ++ leBytes 4 (crc32c m))
     let b := s.bytes (flowBuf (s.get UPD_NET_RXFLOW)) 1464
     s.on UPD_NET_NETEN = true ∧ ofLe (slice b 16 2) = 0 ∧ ofLe (slice b 20 4) = crc32c (b.take 20) ∧ ofLe (slice b 0 4) = 0x54575550 ∧ ofLe (slice b 18 2) = 0 ∧
      ofLe (slice b 4 1) = 0x65 ∧ ofLe (slice b 5 1) = 0 ∧ s.get UPD_SESSION_HOLDER = 2 ∧ s.get (UPD_ID 2) ≠ ofLe (slice b 6 2) + 1) ∧
    (let s := (at_ [(UPD_NET_NETEN, 1)]).setBytes (flowBuf 0 + 16) (leBytes 2 1441)
     1440 < ofLe (slice (s.bytes (flowBuf (s.get UPD_NET_RXFLOW)) 1464) 16 2)) ∧
    (let s := at_ [(UPD_NET_NETEN, 1)]
     let b := s.bytes (flowBuf (s.get UPD_NET_RXFLOW)) 1464
     ofLe (slice b 20 4) ≠ crc32c (b.take 20)) ∧
    ((at_ [(ACT_STEP, 1), (NV_JKINDS, 1)]).get ACT_STEP = 1 ∧ (at_ [(ACT_STEP, 1), (NV_JKINDS, 1)]).actKinds.testBit 0 = true ∧ (at_ [(ACT_STEP, 4)]).get ACT_STEP = 4 ∧ (at_ [(ACT_STEP, 4), (NV_JKINDS, 3)]).actKinds.testBit 1 = true ∧
      (at_ [(ACT_STEP, 1)]).prog = .stop ∧ (at_ [(ACT_STEP, 1)]).on FB_PEND = false ∧ (at_ [(ACT_STEP, 1)]).on SNAP_BUSY = false) ∧
    (let s := at_ [(UPD_STAT_PROB, 1), (UPD_CFG_CWIN, 60), (REC_OPTIME_LO_MS, 60000)]
     s.on UPD_STAT_PROB = true ∧ s.on FB_PEND = false ∧ s.prog = .stop ∧ s.on SNAP_BUSY = false ∧ s.get PROB_FROM + 1000 * s.get UPD_CFG_CWIN ≤ s.opTime) := by decide +kernel
/-- Whatever the payload format is (an uninterpreted function), a program it reads can be applied on line. -/
theorem witness_UpdateOnline (h : ∀ b, Config.decodeLogic b = some image2) :
    let s : State := { session (desc 0x64 0 0 0 0) 1 [(UPD_SESSION_VERIFIED 1, 1), (DBG_PSTATE_STATE, 1), (DBG_PSTATE_MAINT, 1), (OLC_DONE, 1), (LN_STATUS_ST 0, 1), (LN_STATUS_ST 1, 1), (LN_STATUS_ST 2, 1)]
      with image := some { image2 with layoutHash := 0 } }
    s.openMask = 2 ∧ s.verifiedMask = 2 ∧ (∃ im, logicOf (s.sesImage 1) = some im) ∧
      s.olcRefusal { image2 with layoutHash := 0, baseHash := 0 } true = 0 := by
  refine ⟨by decide +kernel, by decide +kernel, ?_, by decide +kernel⟩
  simp [logicOf, h]

theorem witness_PowerStates :
    ((runs []).powered = true ∧ (runs []).powerRefusal 4 = 0 ∧ (runs []).olcBusy = false ∧ (at_ []).powerRefusal 1 = 1) ∧
    ((at_ [(PW_PHASE, 1)]).on PW_PHASE = true ∧ (at_ [(PW_STATE, 1)]).powered = true ∧ (at_ [(PW_STATE, 1)]).get PW_PHASE = 0 ∧ (at_ [(PW_STATE, 1)]).on WK_STEP = false) ∧
    ((at_ [(PW_PHASE, 3), (PWR_STATUS_STEP, 1)]).blockAnswer 1 false = some true ∧ (at_ [(PW_PHASE, 3), (UPD_SESSION_HOLDER, 1)]).blockAnswer 1 false = some false ∧
      (dev [(PW_PHASE, 3), (WIN 3, 1)]).blockAnswer 4 false = none ∧ (at_ [(PW_PHASE, 3), (PWR_STATUS_STEP, 13)]).get PWR_STATUS_STEP = 13 ∧
      nextStep ((at_ [(PW_TGT, 1)]).get PW_TGT) 1 ≠ none ∧ (upto 14).any (fun n => nextStep 1 n == none) = true) ∧
    (let s := at_ [(PW_STATE, 2), (PWR_WCFG_WAKEN_EN, 1), (PWR_WCFG_LW_EN 3, 1), (PWR_WCFG_PCIE_EN, 1)]
     s.get PW_PHASE ≠ 3 ∧ s.on PW_STATE = true ∧ s.on WK_STEP = false ∧ s.on WK_DOWN = false ∧ s.on PWR_WCFG_WAKEN_EN = true ∧ s.on (PWR_WCFG_LW_EN 3) = true ∧ s.on WF_FINAL = false ∧
      s.on PWR_WCFG_PCIE_EN = true ∧ s.get PW_STATE = 2 ∧ s.get PW_STATE ≤ 4) ∧
    ((at_ [(PW_PHASE, 3), (PWR_WCFG_WAKEN_EN, 1)]).get PW_PHASE = 3) ∧
    ((at_ [(WK_STEP, 3), (WK_FROM, 4)]).get WK_STEP = 3 ∧ (at_ [(WK_STEP, 3), (WK_FROM, 4)]).get WK_FROM ≠ 1 ∧ 2000 ≤ stepLimit 3 ∧
      2 ≤ ((at_ [(WK_STEP, 4), (WK_FROM, 4)]).passing [.lb]).length ∧ (at_ [(WK_STEP, 4), (WK_FROM, 4), (PW_STATE, 4)]).get PW_STATE = 4 ∧
      2 ≤ ((at_ [(WK_STEP, 4), (WK_FROM, 1), (PW_STATE, 1)]).passing []).length ∧ (at_ [(WK_STEP, 4), (WK_FROM, 1), (PW_STATE, 1)]).get WK_FROM = 1 ∧ (at_ [(WK_DOWN, 1)]).on WK_DOWN = true) ∧
    ((at_ []).on GLB_SUPPLY_PFAIL = false ∧ (at_ [(PW_STATE, 3)]).powered = false ∧
      (let s := runs []
       ((((s.set GLB_SUPPLY_PFAIL 1).set PFAIL_AT s.now).raise PWR_EVT_PFAIL PWR_EVCNT_OTHER_CNT).ev 0x0002 0 s.recQ.length).image.isSome = true) ∧
      (at_ [(GLB_SUPPLY_PFAIL, 1)]).on GLB_SUPPLY_PFAIL = true) := by decide +kernel

theorem witness_ResetsAndStart :
    ((at_ []).get PW_STATE ≤ 3 ∧ (at_ [(PW_STATE, 3)]).get PW_STATE = 3 ∧ (at_ [(IN_RESET, 1)]).on IN_RESET = true) ∧
    ((at_ []).on (LANE_RESET 2) = false ∧ (at_ []).powered = true ∧ (at_ [(LANE_RESET 2, 1)]).on (LANE_RESET 2) = true ∧ (at_ [(PW_STATE, 3)]).powered = false) ∧
    ((at_ []).on TEST_EN = false ∧ (at_ [(TEST_EN, 1)]).on TEST_EN = true ∧ (at_ []).on PORST_LOW = false ∧ (at_ []).on GLB_SUPPLY_PFAIL = false) ∧
    (let s := at_ [(GLB_SUPPLY_PFAIL, 1), (PFAIL_SEQ, 1)]
     s.powered = true ∧ s.on PORST_LOW = false ∧ s.on GLB_SUPPLY_PFAIL = true ∧ s.on PFAIL_SEQ = true) ∧
    ((at_ [(PORST_LOW, 1)]).on PORST_LOW = true) ∧
    (let s := at_ [(GLB_SUPPLY_PG_CORE, 1), (GLB_SUPPLY_PG_IO, 1), (GLB_SUPPLY_MRAM_OK, 1), (GLB_SUPPLY_GP_OK, 1)]
     s.mayStart = true) ∧
    (let s := at_ [(RELEASED, 1)]
     let u := (((s.set UPD_ACTSET_ACTIVE (s.get NV_SETACT)).set UPD_FUSE_USED (s.get NV_FUSE)).set START_STEP 1).set UPD_STAT_JSTATE 0
     s.on RELEASED = true ∧ s.get START_STEP = 0 ∧ s.get NV_JSTATE = 0 ∧ ((upto 4).all fun k => u.kindEmpty k) = true ∧ (s.setByte imageArea 1).kindEmpty 0 = false) ∧
    ((at_ [(START_STEP, 1)]).get START_STEP = 1 ∧ (at_ [(ACT_STEP, 2), (START_STEP, 3)]).get ACT_STEP = 2 ∧ (at_ [(START_STEP, 2)]).get START_STEP = 2 ∧
      (at_ [(ACT_STEP, 3), (START_STEP, 3)]).get START_STEP ≠ 2 ∧ (at_ [(START_STEP, 1), (KIND_OK 1, 1)]).on (KIND_OK 1) = true) := by decide +kernel

theorem witness_RegisterWritesAndTap :
    ((at_ []).powered = true ∧ (at_ []).barOpen = true ∧ (at_ [(PERST, 1)]).barOpen = false ∧ (at_ [(D3, 1)]).barOpen = false ∧ w1cBits 0x4018 = [0, 1, 2] ∧ w1cBits 0x47F0 = [0, 1, 2, 3, 4, 5, 6, 7]) ∧
    ((at_ [(DBG_PSTATE_UNLOCK, 1), (DBG_PSTATE_SCOPE 0, 1)]).unlocked 0 = true ∧ 0x5100 + 64 * 15 + 4 * 7 < 0x5500 ∧ (2 : Nat) ^ 32 - 1 < 2 ^ 32) ∧
    ((at_ []).get PW_STATE ≤ 2 ∧ (at_ [(TEST_EN, 1)]).on TEST_EN = true ∧ (at_ []).on TEST_EN = false ∧ (at_ [(TAP_IR, 2), (TEST_EN, 1)]).get TAP_IR = 2) := by decide +kernel

/-! ### Check values (R210) -/

theorem test_crc32c_check : crc32c [0x31, 0x32, 0x33, 0x34, 0x35, 0x36, 0x37, 0x38, 0x39] = 0xE3069283 := by decide +kernel

end Sys2Proof.Tests
end

