-- ==== Sys2Proof/Proofs/CanonicalForm.lean ====
section
/-! PROOF. The canonical form: every command answers a next state and keeps the queue, the tables and memory in order, so every
step does; and the state after reset is in canonical form. -/

namespace Sys2Proof.Machine

/-! ### One command -/

/-- Every command of the table answers a next state, by what its own meaning keeps: one case for each constructor. -/
theorem exec_keeps (i : Instr) (s : State) : ∃ u, exec i s = .next u ∧ s.Keeps u := by
  cases i with
  | nop l => exact execNop_keeps l s
  | ld l o => exact execLd_keeps l o s
  | ldn l o => exact execLdn_keeps l o s
  | andBit l o => exact execAndBit_keeps l o s
  | andn l o => exact execAndn_keeps l o s
  | orBit l o => exact execOrBit_keeps l o s
  | orn l o => exact execOrn_keeps l o s
  | xorBit l o => exact execXorBit_keeps l o s
  | notBit l => exact execNotBit_keeps l s
  | st l r => exact execSt_keeps l r s
  | stn l r => exact execStn_keeps l r s
  | set l r => exact execSet_keeps l r s
  | rst l r => exact execRst_keeps l r s
  | andOpen l o => exact execAndOpen_keeps l o s
  | orOpen l o => exact execOrOpen_keeps l o s
  | xorOpen l o => exact execXorOpen_keeps l o s
  | close l => exact execClose_keeps l s
  | edgr l e => exact execEdgr_keeps l e s
  | edgf l e => exact execEdgf_keeps l e s
  | ldw l o => exact execLdw_keeps l o s
  | stw l r => exact execStw_keeps l r s
  | ldwb l o => exact execLdwb_keeps l o s
  | add l o => exact execAdd_keeps l o s
  | sub l o => exact execSub_keeps l o s
  | mul l o => exact execMul_keeps l o s
  | div l o => exact execDiv_keeps l o s
  | wopAnd l => exact execWopAnd_keeps l s
  | wopOr l => exact execWopOr_keeps l s
  | wopXor l => exact execWopXor_keeps l s
  | inv l => exact execInv_keeps l s
  | neg l => exact execNeg_keeps l s
  | abs l => exact execAbs_keeps l s
  | mod l => exact execMod_keeps l s
  | swap l => exact execSwap_keeps l s
  | tob l => exact execTob_keeps l s
  | fromb l => exact execFromb_keeps l s
  | btst l => exact execBtst_keeps l s
  | btow l => exact execBtow_keeps l s
  | ceq l o => exact execCeq_keeps l o s
  | cne l o => exact execCne_keeps l o s
  | cgt l o => exact execCgt_keeps l o s
  | cge l o => exact execCge_keeps l o s
  | clt l o => exact execClt_keeps l o s
  | cle l o => exact execCle_keeps l o s
  | shl l o => exact execShl_keeps l o s
  | shr l o => exact execShr_keeps l o s
  | sar l o => exact execSar_keeps l o s
  | rol l o => exact execRol_keeps l o s
  | min l o => exact execMin_keeps l o s
  | max l o => exact execMax_keeps l o s
  | limit l o => exact execLimit_keeps l o s
  | sel l o => exact execSel_keeps l o s
  | ldx l r => exact execLdx_keeps l r s
  | stx l r => exact execStx_keeps l r s
  | ldf l f clear => exact execLdf_keeps l f clear s
  | jmp l target => exact execJmp_keeps l target s
  | jmpc l target => exact execJmpc_keeps l target s
  | jmpcn l target => exact execJmpcn_keeps l target s
  | call l pou => exact execCall_keeps l pou s
  | callc l pou => exact execCallc_keeps l pou s
  | callcn l pou => exact execCallcn_keeps l pou s
  | ret l => exact execRet_keeps l s
  | retc l => exact execRetc_keeps l s
  | ton l n => exact execTon_keeps l n s
  | tof l n => exact execTof_keeps l n s
  | tp l n => exact execTp_keeps l n s
  | cu l k n => exact execCu_keeps l k n s
  | cd l k n => exact execCd_keeps l k n s
  | counterR l k n => exact execCounterR_keeps l k n s
  | counterLd l k n => exact execCounterLd_keeps l k n s
  | qd l k n => exact execQd_keeps l k n s
  | eval l k n => exact execEval_keeps l k n s
  | receiveAge l f => exact execReceiveAge_keeps l f s
  | senderAge l f => exact execSenderAge_keeps l f s
  | stale l f => exact execStale_keeps l f s
  | repeatFlag l f => exact execRepeatFlag_keeps l f s
  | lanes l => exact execLanes_keeps l s
  | sync l => exact execSync_keeps l s
  | lease l => exact execLease_keeps l s
  | lane l => exact execLane_keeps l s
  | period l => exact execPeriod_keeps l s
  | first l => exact execFirst_keeps l s
  | power l => exact execPower_keeps l s
  | furlong l => exact execFurlong_keeps l s
  | ldh l v => exact execLdh_keeps l v s
  | endScan l => exact execEndScan_keeps l s
  | illegalWord l w => exact execIllegalWord_keeps l w s
  | actionInstant t padDiff padMiss crcBad => exact execActionInstant_keeps t padDiff padMiss crcBad s
  | staging t => exact execStaging_keeps t s
  | inputAgreement t flips bad missing odd => exact execInputAgreement_keeps t flips bad missing odd s
  | preemption l => exact execPreemption_keeps l s
  | presentation t l missing => exact execPresentation_keeps t l missing s
  | lateWindowClose t => exact execLateWindowClose_keeps t s
  | verdict t l v => exact execVerdict_keeps t l v s
  | laneEnableMinority l c side grains atLaunch => exact execLaneEnableMinority_keeps l c side grains atLaunch s
  | exchangeHandshakeTimeout link blamed => exact execExchangeHandshakeTimeout_keeps link blamed s
  | wrongLengthTransfer link blamed => exact execWrongLengthTransfer_keeps link blamed s
  | exchangeKeepalive l m => exact execExchangeKeepalive_keeps l m s
  | safeokToggle l => exact execSafeokToggle_keeps l s
  | timeCheckWindow l count => exact execTimeCheckWindow_keeps l count s
  | paceComparison busyA busyB busyC => exact execPaceComparison_keeps busyA busyB busyC s
  | assayStepEnd l pass => exact execAssayStepEnd_keeps l pass s
  | assayTimeout l => exact execAssayTimeout_keeps l s
  | seedCopy l t => exact execSeedCopy_keeps l t s
  | seedCopyDone l t => exact execSeedCopyDone_keeps l t s
  | probationComplete l => exact execProbationComplete_keeps l s
  | modeRequest t mode => exact execModeRequest_keeps t mode s
  | modeHandOver t => exact execModeHandOver_keeps t s
  | stateCopyComplete t => exact execStateCopyComplete_keeps t s
  | unRetire a b c => exact execUnRetire_keeps a b c s
  | padCellFaultClear => exact execPadCellFaultClear_keeps s
  | tskMaxclr t => exact execTskMaxclr_keeps t s
  | stopRequest => exact execStopRequest_keeps s
  | runRequest cold => exact execRunRequest_keeps cold s
  | holdRequest => exact execHoldRequest_keeps s
  | autorun => exact execAutorun_keeps s
  | taskRestartRequest t cold => exact execTaskRestartRequest_keeps t cold s
  | periodicSnapshot => exact execPeriodicSnapshot_keeps s
  | snapshotWriteDone mramError => exact execSnapshotWriteDone_keeps mramError s
  | step t => exact execStep_keeps t s
  | cont t => exact execCont_keeps t s
  | haltreq t => exact execHaltreq_keeps t s
  | haltReport t l => exact execHaltReport_keeps t l s
  | unlockLapse => exact execUnlockLapse_keeps s
  | unlockLockoutEnd => exact execUnlockLockoutEnd_keeps s
  | olcCopyConfirmed l ok => exact execOlcCopyConfirmed_keeps l ok s
  | olcSwitch => exact execOlcSwitch_keeps s
  | debounceEnd l c a b => exact execDebounceEnd_keeps l c a b s
  | discrepancyTimeout l c => exact execDiscrepancyTimeout_keeps l c s
  | sdWindowComplete l c j sum edge loop => exact execSdWindowComplete_keeps l c j sum edge loop s
  | sdClockFault l c cause => exact execSdClockFault_keeps l c cause s
  | sdClockRestored l c j => exact execSdClockRestored_keeps l c j s
  | speedEdgeAccepted l c e => exact execSpeedEdgeAccepted_keeps l c e s
  | standstill l c => exact execStandstill_keeps l c s
  | bankSupplyFault b => exact execBankSupplyFault_keeps b s
  | bankSupplyRestored b => exact execBankSupplyRestored_keeps b s
  | testDue g dark => exact execTestDue_keeps g dark s
  | darkTest g => exact execDarkTest_keeps g s
  | brightTest g => exact execBrightTest_keeps g s
  | pulseEnd g => exact execPulseEnd_keeps g s
  | testWindowEnd g => exact execTestWindowEnd_keeps g s
  | maintenanceReset mask => exact execMaintenanceReset_keeps mask s
  | phyPoll p answer full1000 => exact execPhyPoll_keeps p answer full1000 s
  | mdioRead phy reg => exact execMdioRead_keeps phy reg s
  | mdioWrite phy reg v => exact execMdioWrite_keeps phy reg v s
  | mdioAccessDone answer => exact execMdioAccessDone_keeps answer s
  | sendDelayRequest p => exact execSendDelayRequest_keeps p s
  | delayRequest p fr sfd => exact execDelayRequest_keeps p fr sfd s
  | delayResponse p fr sfd => exact execDelayResponse_keeps p fr sfd s
  | delayMeasurementRetry p => exact execDelayMeasurementRetry_keeps p s
  | sendRod ch idx => exact execSendRod_keeps ch idx s
  | forward p fr sfd => exact execForward_keeps p fr sfd s
  | dataFrame p fr sfd => exact execDataFrame_keeps p fr sfd s
  | syncFrame p fr sfd => exact execSyncFrame_keeps p fr sfd s
  | coldstartFrame p fr sfd => exact execColdstartFrame_keeps p fr sfd s
  | statusFrame p fr sfd => exact execStatusFrame_keeps p fr sfd s
  | wakeFrame p fr sfd => exact execWakeFrame_keeps p fr sfd s
  | openFrame p fr sfd => exact execOpenFrame_keeps p fr sfd s
  | openRod ch idx => exact execOpenRod_keeps ch idx s
  | rodEnd ch idx => exact execRodEnd_keeps ch idx s
  | syncCorrection => exact execSyncCorrection_keeps s
  | furlongBoundary => exact execFurlongBoundary_keeps s
  | listenTimeout => exact execListenTimeout_keeps s
  | tbCapture => exact execTbCapture_keeps s
  | wakeBurstRequest reason => exact execWakeBurstRequest_keeps reason s
  | wakeFrameSend => exact execWakeFrameSend_keeps s
  | transmitSelection n => exact execTransmitSelection_keeps n s
  | canTxComplete n sof loop => exact execCanTxComplete_keeps n sof loop s
  | arbitrationLost n => exact execArbitrationLost_keeps n s
  | canError n e => exact execCanError_keeps n e s
  | canFrameReceived n f sof => exact execCanFrameReceived_keeps n f sof s
  | remoteFrame n => exact execRemoteFrame_keeps n s
  | protocolException n id => exact execProtocolException_keeps n id s
  | busOffRecovered n => exact execBusOffRecovered_keeps n s
  | recover n => exact execRecover_keeps n s
  | objectClear n k => exact execObjectClear_keeps n k s
  | doorbellPoll page => exact execDoorbellPoll_keeps page s
  | descriptorAccepted r bytes shOk => exact execDescriptorAccepted_keeps r bytes shOk s
  | ringNop r => exact execRingNop_keeps r s
  | flowRead r memOk => exact execFlowRead_keeps r memOk s
  | flowWrite r data => exact execFlowWrite_keeps r data s
  | openSend r data => exact execOpenSend_keeps r data s
  | openRecv r memOk => exact execOpenRecv_keeps r memOk s
  | canSend r data => exact execCanSend_keeps r data s
  | canWithdraw r => exact execCanWithdraw_keeps r s
  | canRead r memOk => exact execCanRead_keeps r memOk s
  | canRecover r => exact execCanRecover_keeps r s
  | canObjclr r => exact execCanObjclr_keeps r s
  | snapshot r => exact execSnapshot_keeps r s
  | snapshotCapture t consistent memOk => exact execSnapshotCapture_keeps t consistent memOk s
  | recRead r memOk => exact execRecRead_keeps r memOk s
  | recInfo r memOk => exact execRecInfo_keeps r memOk s
  | updOpen r => exact execUpdOpen_keeps r s
  | updWrite r data => exact execUpdWrite_keeps r data s
  | updVerify r => exact execUpdVerify_keeps r s
  | updActivate r => exact execUpdActivate_keeps r s
  | updApplyOnline r => exact execUpdApplyOnline_keeps r s
  | updClose r => exact execUpdClose_keeps r s
  | attest r nonce memOk => exact execAttest_keeps r nonce memOk s
  | identity r memOk => exact execIdentity_keeps r memOk s
  | unlockChallenge r memOk => exact execUnlockChallenge_keeps r memOk s
  | unlockResponse r data => exact execUnlockResponse_keeps r data s
  | unlockRelease r => exact execUnlockRelease_keeps r s
  | forceSet r data => exact execForceSet_keeps r data s
  | forceRemove r => exact execForceRemove_keeps r s
  | forceRead r memOk => exact execForceRead_keeps r memOk s
  | dbgWrite r => exact execDbgWrite_keeps r s
  | pstateReq r => exact execPstateReq_keeps r s
  | taskRestart r => exact execTaskRestart_keeps r s
  | modeReq r => exact execModeReq_keeps r s
  | brakeMrst r => exact execBrakeMrst_keeps r s
  | powerReq r => exact execPowerReq_keeps r s
  | wakeBurst r => exact execWakeBurst_keeps r s
  | completionPost r slot ok shOk => exact execCompletionPost_keeps r slot ok shOk s
  | msixModerationTimeout v => exact execMsixModerationTimeout_keeps v s
  | msixUnmask v => exact execMsixUnmask_keeps v s
  | shadowHeartbeat ok => exact execShadowHeartbeat_keeps ok s
  | hostInterfaceEnable en => exact execHostInterfaceEnable_keeps en s
  | submissionRingEnable r en => exact execSubmissionRingEnable_keeps r en s
  | completionRingEnable c en => exact execCompletionRingEnable_keeps c en s
  | perstNAssertion => exact execPerstNAssertion_keeps s
  | pcieLinkChange speed width => exact execPcieLinkChange_keeps speed width s
  | retryRead idx far addr len => exact execRetryRead_keeps idx far addr len s
  | heldRead idx far addr len => exact execHeldRead_keeps idx far addr len s
  | farSideData far tag data => exact execFarSideData_keeps far tag data s
  | unclaimedDataTimeout idx addr len => exact execUnclaimedDataTimeout_keeps idx addr len s
  | holdTimeout idx => exact execHoldTimeout_keeps idx s
  | nearSideWrite idx far addr data => exact execNearSideWrite_keeps idx far addr data s
  | flushReadCompletion tag ok => exact execFlushReadCompletion_keeps tag ok s
  | completionTimeout tag => exact execCompletionTimeout_keeps tag s
  | writeTimeout k tag => exact execWriteTimeout_keeps k tag s
  | alertPoll k word => exact execAlertPoll_keeps k word s
  | alertHeartbeat => exact execAlertHeartbeat_keeps s
  | semaphoreTake n tag => exact execSemaphoreTake_keeps n tag s
  | semaphoreRelease n tag => exact execSemaphoreRelease_keeps n tag s
  | semaphoreTimeout n => exact execSemaphoreTimeout_keeps n s
  | brMaxclr => exact execBrMaxclr_keeps s
  | read k p => exact execRead_keeps k p s
  | readData k p => exact execReadData_keeps k p s
  | write k p => exact execWrite_keeps k p s
  | writeAck k p => exact execWriteAck_keeps k p s
  | errorRsp k p => exact execErrorRsp_keeps k p s
  | time k p sfd => exact execTime_keeps k p sfd s
  | delayReq k p sfd => exact execDelayReq_keeps k p sfd s
  | delayRsp k p sfd => exact execDelayRsp_keeps k p sfd s
  | credit k p => exact execCredit_keeps k p s
  | train k p who => exact execTrain_keeps k p who s
  | badPacket k ours => exact execBadPacket_keeps k ours s
  | alignmentLost k => exact execAlignmentLost_keeps k s
  | linkWaitEnd k => exact execLinkWaitEnd_keeps k s
  | importRead idx => exact execImportRead_keeps idx s
  | leaseMessage net => exact execLeaseMessage_keeps net s
  | soloRequest => exact execSoloRequest_keeps s
  | recordA t => exact execRecordA_keeps t s
  | recordB t => exact execRecordB_keeps t s
  | snapshotRequest => exact execSnapshotRequest_keeps s
  | stateChunk => exact execStateChunk_keeps s
  | resyncTimeout t => exact execResyncTimeout_keeps t s
  | recordCommit ok => exact execRecordCommit_keeps ok s
  | recordRewrite seq => exact execRecordRewrite_keeps seq s
  | recorderStartSearch => exact execRecorderStartSearch_keeps s
  | operatingTimeTick => exact execOperatingTimeTick_keeps s
  | operatingTimeSave => exact execOperatingTimeSave_keeps s
  | mramRefresh => exact execMramRefresh_keeps s
  | sessionLapse => exact execSessionLapse_keeps s
  | updateSessionMessage net => exact execUpdateSessionMessage_keeps net s
  | activationPauseEnd ok => exact execActivationPauseEnd_keeps ok s
  | firmwareSelfTest ok => exact execFirmwareSelfTest_keeps ok s
  | confirmWindowExpiry => exact execConfirmWindowExpiry_keeps s
  | powerRequest target => exact execPowerRequest_keeps target s
  | powerWithdraw => exact execPowerWithdraw_keeps s
  | blockAnswer fails => exact execBlockAnswer_keeps fails s
  | blockAnswerTimeout => exact execBlockAnswerTimeout_keeps s
  | wakePin src => exact execWakePin_keeps src s
  | pcieActivityWake => exact execPcieActivityWake_keeps s
  | wakeStepReady us fail lost => exact execWakeStepReady_keeps us fail lost s
  | wakeStepTimeout => exact execWakeStepTimeout_keeps s
  | wakeRetry => exact execWakeRetry_keeps s
  | pfailAssert => exact execPfailAssert_keeps s
  | pfailRelease => exact execPfailRelease_keeps s
  | supplyLoss which => exact execSupplyLoss_keeps which s
  | laneRailLow l => exact execLaneRailLow_keeps l s
  | testEnRise => exact execTestEnRise_keeps s
  | aonPowerOn => exact execAonPowerOn_keeps s
  | porstN => exact execPorstN_keeps s
  | internalResetRelease devid side us fail => exact execInternalResetRelease_keeps devid side us fail s
  | mramReady => exact execMramReady_keeps s
  | logicImageLoaded ok => exact execLogicImageLoaded_keeps ok s
  | configurationSetApplied ok => exact execConfigurationSetApplied_keeps ok s
  | bypass => exact execBypass_keeps s
  | idcode => exact execIdcode_keeps s
  | samplePreload => exact execSamplePreload_keeps s
  | extest => exact execExtest_keeps s
  | w1cClear a ones sets => exact execW1cClear_keeps a ones sets s
  | registerWrite a v => exact execRegisterWrite_keeps a v s
  | pgValid => exact execPgValid_keeps s
  | laneRailRestored l => exact execLaneRailRestored_keeps l s
  | perstNRelease => exact execPerstNRelease_keeps s
  | porstNRelease => exact execPorstNRelease_keeps s
  | testEnFall => exact execTestEnFall_keeps s
  | commaDetection k => exact execCommaDetection_keeps k s
  | codeGroupSynchronisation p sync gig => exact execCodeGroupSynchronisation_keeps p sync gig s
  | pllLostLock => exact execPllLostLock_keeps s
  | d3hot d3 => exact execD3hot_keeps d3 s
  | syncRodSend ch idx => exact execSyncRodSend_keeps ch idx s
  | statusRodSend ch idx => exact execStatusRodSend_keeps ch idx s

/-! ### One step -/

theorem State.Keeps.wf {s t : State} (h : s.Keeps t) (hs : s.wf = true) : t.wf = true := by
  rw [State.wf, Bool.and_eq_true] at hs ⊢
  obtain ⟨htables, hmemory⟩ := hs
  exact ⟨h.tables htables, h.memory hmemory⟩

/-- The canonical form does not look at the queue. -/
theorem State.wf_withPending (s : State) (q : List Instr) : ({ s with pending := q } : State).wf = s.wf := rfl

theorem step_of_empty {s : State} (h : s.pending = []) : step s = .next s.tick := by
  unfold step; rw [h]

theorem step_of_cons {s : State} {c : Instr} {rest : List Instr} (h : s.pending = c :: rest) :
    step s = exec c { s with pending := rest } := by
  unfold step; rw [h]

/-- Settles O3: an idle step is a tick of the timebase, every other step is a command on the queue's rest, and both keep the
canonical form and the queue they are given. -/
theorem everyStepKeepsTheCanonicalForm : Obligations.EveryStepKeepsTheCanonicalForm := by
  unfold Obligations.EveryStepKeepsTheCanonicalForm
  intro s hs
  cases hq : s.pending with
  | nil =>
    have hk : s.Keeps s.tick := State.tick_keeps (Keeps.refl s)
    exact ⟨s.tick, step_of_empty hq, hk.wf hs, hk.queue.trans hq⟩
  | cons c rest =>
    obtain ⟨u, hu, hk⟩ := exec_keeps c { s with pending := rest }
    exact ⟨u, (step_of_cons hq).trans hu, hk.wf ((State.wf_withPending s rest).trans hs), hk.queue⟩

/-! ### Reset -/

/-- Reset leaves every table empty, so each field reads its reset value. -/
theorem State.get_reset (f : Fld) : State.reset.get f = f.reset := rfl

theorem State.wf_reset : State.reset.wf = true := by
  rw [State.wf, State.reset_memory]; rfl

theorem State.ctx_reset (l : Lane) (t : Nat) : State.reset.ctx l t = Ctx.start := rfl

theorem State.running_reset (l : Lane) : State.reset.running l = none :=
  List.find?_eq_none.2 fun t _ => by rw [State.ctx_reset]; decide

theorem State.lane_reset (l : Lane) : State.reset.lane l = .start := by
  rw [State.lane, State.get_reset]; rfl

/-- Settles O4: the tables of the state after reset are empty, and its fields read their reset values. -/
theorem resetIsCanonical : Obligations.ResetIsCanonical := by
  unfold Obligations.ResetIsCanonical
  exact ⟨State.wf_reset, rfl, rfl, State.get_reset _, State.get_reset _, fun l => ⟨State.running_reset l, State.lane_reset l⟩⟩

end Sys2Proof.Machine
end

