-- ==== Sys2Proof/Proofs/RegisterWrites.lean ====
section
/-! PROOF. Writes of BAR0, W1C flags and the TAP: what storing a word puts into a register's read-write fields, which words have
no further effect, how often a W1C flag is reached and what a clear leaves, and what each TAP instruction sets. -/

namespace Sys2Proof.Machine
open Reg Hid

/-! ### Commands that happen -/

theorem occurs_of_powered {s : State} {b : Bool} {f : State → State} (hp : s.powered = true) (hb : b = true) :
    occurs b s f = .next (f s) := by
  simp [occurs, happens, hp, hb]

theorem occurs_of_not {s : State} {b : Bool} {f : State → State} (hb : b = false) : occurs b s f = .next s := by
  simp [occurs, happens, hb]

theorem happens_of {s : State} {b : Bool} {f : State → State} (hb : b = true) : happens b s f = .next (f s) := by
  simp [happens, hb]

/-! ### Storing into a list of fields -/

/-- Putting a value into each field of a list changes the fields of the list alone. -/
theorem State.each_set_only (s : State) (fs : List Fld) (val : Fld → Nat) :
    s.only (s.each fs fun s f => s.set f (val f)) fs := by
  suffices h : ∀ (gs : List Fld) (b : State), (∀ g ∈ gs, g ∈ fs) → s.only b fs → s.only (b.each gs fun s f => s.set f (val f)) fs from
    h fs s (fun _ hg => hg) (s.only_refl fs)
  intro gs
  induction gs with
  | nil => exact fun b _ hb => hb
  | cons g gs ih =>
    intro b hgs hb
    exact ih (b.set g (val g)) (fun x hx => hgs x (List.mem_cons_of_mem _ hx)) (hb.set _ (hgs g List.mem_cons_self))

/-- Where the fields of the list lie apart, each then reads its own value. -/
theorem State.get_each_set {s : State} {fs : List Fld} {f : Fld} (val : Fld → Nat)
    (hd : fs.Pairwise fun f g => f.key ≠ g.key) (hf : f ∈ fs) :
    (s.each fs fun s f => s.set f (val f)).get f = val f % 2 ^ f.w := by
  induction fs generalizing s with
  | nil => cases hf
  | cons g gs ih =>
    obtain ⟨hg, hgs⟩ := List.pairwise_cons.1 hd
    rcases List.mem_cons.1 hf with rfl | hf
    · exact ((State.each_set_only _ gs val).2 f hg).trans (State.get_set_same s f _)
    · exact ih hgs hf

/-- The fields at a word address that a plain write stores (R14). -/
def storedFields (a : Nat) : List Fld := ((regFields a).filter fun p => p.2 = .rw).map Prod.fst

theorem State.regStore_eq_each (s : State) (a v : Nat) :
    s.regStore a v = s.each (storedFields a) fun s f => s.set f (v / 2 ^ f.lo) := by
  simp [State.regStore, State.each, storedFields, List.foldl_map, List.foldl_filter]

theorem State.regStore_only (s : State) (a v : Nat) : s.only (s.regStore a v) (storedFields a) := by
  rw [State.regStore_eq_each]
  exact s.each_set_only _ fun f => v / 2 ^ f.lo

theorem State.get_regStore {s : State} {a : Nat} {f : Fld} (v : Nat)
    (hd : (storedFields a).Pairwise fun f g => f.key ≠ g.key) (hf : f ∈ storedFields a) :
    (s.regStore a v).get f = v / 2 ^ f.lo % 2 ^ f.w := by
  rw [State.regStore_eq_each]
  exact State.get_each_set (fun f => v / 2 ^ f.lo) hd hf

theorem State.regStore_of_none {s : State} {a : Nat} (v : Nat) (h : storedFields a = []) : s.regStore a v = s := by
  rw [State.regStore_eq_each, h]; rfl

/-! ### The register map at the addresses of the statement -/

theorem storedFields_id : storedFields 0 = [] := by decide +kernel

theorem storedFields_rodsel : storedFields 0x8034 = [TN_RODSEL_INDEX, TN_RODSEL_CHAN, TN_RODSEL_BANK] := by decide +kernel

theorem storedFields_flowsel : storedFields 0x8048 = [TN_FLOWSEL_FLOW] := by decide +kernel

theorem storedFields_wakemask0 : storedFields 0x905C = [TN_WAKEMASK0_NODES] := by decide +kernel

theorem storedFields_breakpoint : ∀ t < 16, ∀ i < 8,
    storedFields (0x5100 + 64 * t + 4 * i) = [DBG_BP_INDEX t i, DBG_BP_COUNT t i, DBG_BP_EN t i] := by decide +kernel

/-! ### What a write of BAR0 does -/

theorem exec_registerWrite (a v : Nat) (s : State) : exec (.registerWrite a v) s =
    occurs (s.barOpen && decide (a % 4 = 0) && decide (v < 2 ^ 32)) s fun s => s.barWrite a v := rfl

theorem exec_w1cClear (a ones sets : Nat) (s : State) : exec (.w1cClear a ones sets) s =
    occurs (s.barOpen && decide (a % 4 = 0)) s fun s => s.writeOnes a ones sets := rfl

theorem exec_registerWrite_of_closed {s : State} (a v : Nat) (ho : s.barOpen = false) : exec (.registerWrite a v) s = .next s := by
  rw [exec_registerWrite]
  exact occurs_of_not (by simp [ho])

theorem exec_w1cClear_of_closed {s : State} (a ones sets : Nat) (ho : s.barOpen = false) :
    exec (.w1cClear a ones sets) s = .next s := by
  rw [exec_w1cClear]
  exact occurs_of_not (by simp [ho])

theorem exec_registerWrite_of_open {s : State} {a v : Nat} (hp : s.powered = true) (ho : s.barOpen = true) (ha : a % 4 = 0)
    (hv : v < 2 ^ 32) : exec (.registerWrite a v) s = .next (s.barWrite a v) := by
  rw [exec_registerWrite]
  exact occurs_of_powered hp (by simp only [ho, ha, hv, decide_true, Bool.and_self])

theorem exec_w1cClear_of_open {s : State} {a : Nat} (ones sets : Nat) (hp : s.powered = true) (ho : s.barOpen = true)
    (ha : a % 4 = 0) : exec (.w1cClear a ones sets) s = .next (s.writeOnes a ones sets) := by
  rw [exec_w1cClear]
  exact occurs_of_powered hp (by simp only [ho, ha, decide_true, Bool.and_self])

/-- Outside the host interface, the per-task debug registers and TN_MDIOCMD a write stores, submits and clears (R14). -/
theorem State.barWrite_of_ordinary (s : State) {a : Nat} (v : Nat) (hhif : ¬ (0xD000 ≤ a ∧ a < 0xE000))
    (hdbg : ¬ (0x5100 ≤ a ∧ a < 0x5500)) (hmdio : a ≠ 0x8020) :
    s.barWrite a v = (((s.regStore a v).coreAction a v).busAction a v).writeOnes a v 0 := by
  rw [State.barWrite, if_neg hhif, if_neg hdbg, if_neg hmdio]

theorem State.coreAction_of_none (s : State) {a : Nat} (v : Nat) (h : a = 0 ∨ 0x8000 ≤ a) : s.coreAction a v = s := by
  unfold State.coreAction
  dsimp only
  iterate 10 rw [if_neg (by omega)]

theorem State.busAction_of_none (s : State) {a : Nat} (v : Nat) (h : a < 0x9064) : s.busAction a v = s := by
  unfold State.busAction
  dsimp only
  iterate 5 rw [if_neg (by omega)]

theorem State.writeOnes_of_none (s : State) {a : Nat} (ones sets : Nat) (h : w1cBits a = []) : s.writeOnes a ones sets = s := by
  rw [State.writeOnes, h]; rfl

/-- An address between TN_MDIOCMD and TN_WAKEGO, or the identity's, with no W1C field: a write stores and does no more. -/
theorem exec_registerWrite_of_plain {s : State} {a v : Nat} (hp : s.powered = true) (ho : s.barOpen = true) (ha : a % 4 = 0)
    (hv : v < 2 ^ 32) (hplain : a = 0 ∨ 0x8020 < a ∧ a < 0x9064) (hbits : w1cBits a = []) :
    exec (.registerWrite a v) s = .next (s.regStore a v) := by
  rw [exec_registerWrite_of_open hp ho ha hv, State.barWrite_of_ordinary s v (by omega) (by omega) (by omega),
    State.coreAction_of_none _ v (by omega), State.busAction_of_none _ v (by omega), State.writeOnes_of_none _ v 0 hbits]

theorem exec_registerWrite_rodsel {s : State} {v : Nat} (hp : s.powered = true) (ho : s.barOpen = true) (hv : v < 2 ^ 32) :
    ∃ u, exec (.registerWrite 0x8034 v) s = .next u ∧ u.get TN_RODSEL_INDEX = v % 1024 ∧ u.get TN_RODSEL_CHAN = v / 1024 % 2 ∧
      u.get TN_RODSEL_BANK = v / 2048 % 2 ∧ s.only u [TN_RODSEL_INDEX, TN_RODSEL_CHAN, TN_RODSEL_BANK] := by
  have hd : (storedFields 0x8034).Pairwise fun f g => f.key ≠ g.key := by rw [storedFields_rodsel]; decide
  have hget := fun f hf => State.get_regStore (s := s) (f := f) v hd hf
  have honly := s.regStore_only 0x8034 v
  rw [storedFields_rodsel] at hget honly
  exact ⟨_, exec_registerWrite_of_plain hp ho rfl hv (by decide) (by decide +kernel),
    by simpa [TN_RODSEL_INDEX] using hget TN_RODSEL_INDEX (by simp), hget TN_RODSEL_CHAN (by simp), hget TN_RODSEL_BANK (by simp), honly⟩

theorem exec_registerWrite_flowsel {s : State} {v : Nat} (hp : s.powered = true) (ho : s.barOpen = true) (hv : v < 2 ^ 32) :
    ∃ u, exec (.registerWrite 0x8048 v) s = .next u ∧ u.get TN_FLOWSEL_FLOW = v % 512 ∧ s.only u [TN_FLOWSEL_FLOW] := by
  have hget := State.get_regStore (s := s) (a := 0x8048) (f := TN_FLOWSEL_FLOW) v (by rw [storedFields_flowsel]; decide)
    (by simp [storedFields_flowsel])
  have honly := s.regStore_only 0x8048 v
  rw [storedFields_flowsel] at honly
  exact ⟨_, exec_registerWrite_of_plain hp ho rfl hv (by decide) (by decide +kernel), by simpa [TN_FLOWSEL_FLOW] using hget, honly⟩

theorem exec_registerWrite_wakemask0 {s : State} {v : Nat} (hp : s.powered = true) (ho : s.barOpen = true) (hv : v < 2 ^ 32) :
    ∃ u, exec (.registerWrite 0x905C v) s = .next u ∧ u.get TN_WAKEMASK0_NODES = v ∧ s.only u [TN_WAKEMASK0_NODES] := by
  have hget := State.get_regStore (s := s) (a := 0x905C) (f := TN_WAKEMASK0_NODES) v (by rw [storedFields_wakemask0]; decide)
    (by simp [storedFields_wakemask0])
  have honly := s.regStore_only 0x905C v
  rw [storedFields_wakemask0] at honly
  refine ⟨_, exec_registerWrite_of_plain hp ho rfl hv (by decide) (by decide +kernel), ?_, honly⟩
  rw [hget, show TN_WAKEMASK0_NODES.lo = 0 from rfl, Nat.pow_zero, Nat.div_one]
  exact Nat.mod_eq_of_lt hv

theorem exec_registerWrite_id {s : State} {v : Nat} (hp : s.powered = true) (ho : s.barOpen = true) (hv : v < 2 ^ 32) :
    exec (.registerWrite 0 v) s = .next s := by
  rw [exec_registerWrite_of_plain hp ho rfl hv (.inl rfl) (by decide +kernel), State.regStore_of_none v storedFields_id]

/-! ### Breakpoints (R145) -/

theorem State.barWrite_breakpoint {s : State} {t i : Nat} (v : Nat) (ht : t < 16) (hi : i < 8) (hu : s.unlocked 0 = true) :
    s.barWrite (0x5100 + 64 * t + 4 * i) v = (s.regStore (0x5100 + 64 * t + 4 * i) v).debugRequest := by
  have hoff : (0x5100 + 64 * t + 4 * i - 0x5000 - 0x100) % 0x40 < 0x20 := by omega
  rw [State.barWrite, if_neg (by omega), if_pos (by omega), State.dbgTaskWrite]
  dsimp only
  rw [if_pos hoff, if_pos hu, show 0x5000 + (0x5100 + 64 * t + 4 * i - 0x5000) = 0x5100 + 64 * t + 4 * i by omega]

theorem State.get_debugRequest (s : State) {f : Fld} (h : f.key ≠ UNLOCK_AT.key) : s.debugRequest.get f = s.get f :=
  State.get_set_other s _ h

theorem exec_registerWrite_breakpoint {s : State} {v t i : Nat} (hp : s.powered = true) (ho : s.barOpen = true) (hv : v < 2 ^ 32)
    (ht : t < 16) (hi : i < 8) (hu : s.unlocked 0 = true) :
    ∃ u, exec (.registerWrite (0x5100 + 64 * t + 4 * i) v) s = .next u ∧ u.get (DBG_BP_INDEX t i) = v % 2 ^ 18 ∧
      u.get (DBG_BP_COUNT t i) = v / 2 ^ 18 % 256 ∧ u.get (DBG_BP_EN t i) = v / 2 ^ 31 := by
  have hfs := storedFields_breakpoint t ht i hi
  have hd : (storedFields (0x5100 + 64 * t + 4 * i)).Pairwise fun f g => f.key ≠ g.key := by
    rw [hfs]; simp [Fld.key, DBG_BP_INDEX, DBG_BP_COUNT, DBG_BP_EN]
  have hget : ∀ f ∈ [DBG_BP_INDEX t i, DBG_BP_COUNT t i, DBG_BP_EN t i], f.key ≠ UNLOCK_AT.key →
      ((s.regStore (0x5100 + 64 * t + 4 * i) v).debugRequest).get f = v / 2 ^ f.lo % 2 ^ f.w := fun f hf hk =>
    (State.get_debugRequest _ hk).trans (State.get_regStore v hd (hfs ▸ hf))
  have hx : exec (.registerWrite (0x5100 + 64 * t + 4 * i) v) s = .next (s.regStore (0x5100 + 64 * t + 4 * i) v).debugRequest := by
    rw [exec_registerWrite_of_open hp ho (by omega) hv, State.barWrite_breakpoint v ht hi hu]
  refine ⟨_, hx, ?_, ?_, ?_⟩
  · simpa [DBG_BP_INDEX] using hget (DBG_BP_INDEX t i) (by simp) (by simp only [Fld.key, DBG_BP_INDEX, UNLOCK_AT]; omega)
  · exact hget (DBG_BP_COUNT t i) (by simp) (by simp only [Fld.key, DBG_BP_COUNT, UNLOCK_AT]; omega)
  · refine (hget (DBG_BP_EN t i) (by simp) (by simp only [Fld.key, DBG_BP_EN, UNLOCK_AT]; omega)).trans (Nat.mod_eq_of_lt ?_)
    simp only [DBG_BP_EN]; omega

/-! ### W1C flags and their companion counters (R14) -/

/-- In the tables of companion counters no counter lies at its flags' own address, and every bit is one of a word. -/
theorem companions_apart : ∀ b ∈ laneCompanions ++ fieldCompanions ++ hostCompanions, ∀ r ∈ b.rows,
    r.off ≠ r.evt ∧ r.lo < 32 ∧ ∀ i ∈ r.bits, i < 32 := by decide +kernel

theorem key_companionOf_ne {a i : Nat} {c : Fld} (h : companionOf a i = some c) : c.key ≠ (⟨a, i, 1, 0⟩ : Fld).key := by
  obtain ⟨b, hb, hc⟩ := List.exists_of_findSome?_eq_some h
  split at hc
  case isFalse => cases hc
  case isTrue hin =>
    obtain ⟨r, hr, rfl⟩ := Option.map_eq_some_iff.1 hc
    obtain ⟨hoff, hlo, hbits⟩ := companions_apart b hb r (List.mem_of_find?_eq_some hr)
    have hp := List.find?_some hr
    simp only [Bool.and_eq_true, beq_iff_eq, List.contains_iff_mem] at hp
    obtain ⟨hevt, hi⟩ := hp
    have hi32 := hbits i hi
    have hle : (a - b.base) % b.stride ≤ a - b.base := Nat.mod_le _ _
    simp only [Fld.key]
    omega

/-- A clear that meets no hardware set leaves the flag 0 and everything else as it was. -/
theorem State.clearFlag_cleared {s u : State} {a i : Nat} (h : s.only u [⟨a, i, 1, 0⟩]) :
    (u.clearFlag a i false).get ⟨a, i, 1, 0⟩ = 0 ∧ s.only (u.clearFlag a i false) [⟨a, i, 1, 0⟩] :=
  ⟨State.get_set_same u ⟨a, i, 1, 0⟩ 0, h.set 0 List.mem_cons_self⟩

theorem State.get_clearFlag_met (s : State) (a i : Nat) : (s.clearFlag a i true).get ⟨a, i, 1, 0⟩ = 1 := by
  rw [State.clearFlag, if_pos rfl]
  split
  next c hc => exact State.get_raise_flag s (key_companionOf_ne hc).symm Nat.one_pos
  next => exact State.get_set_same s ⟨a, i, 1, 0⟩ 1

theorem State.get_clearFlag_met_other (s : State) {a i : Nat} {f : Fld} (hf : f.key ≠ (⟨a, i, 1, 0⟩ : Fld).key)
    (hc : ∀ c, companionOf a i = some c → f.key ≠ c.key) : (s.clearFlag a i true).get f = s.get f := by
  rw [State.clearFlag, if_pos rfl]
  split
  next c h => exact State.get_raise_other s hf (hc c h)
  next => exact State.get_set_other s 1 hf

/-- A word whose one bit is a W1C bit of the register reaches that flag and no other, once or more: what one clear brings about
and a further one keeps holds after the write. -/
theorem State.writeOnes_two_pow {s : State} {a i : Nat} {sets : Nat} {P : State → Prop} (hi : i ∈ w1cBits a)
    (first : P (s.clearFlag a i (sets.testBit i))) (again : ∀ u, P u → P (u.clearFlag a i (sets.testBit i))) :
    P (s.writeOnes a (2 ^ i) sets) := by
  have hfilter : ((w1cBits a).filter fun j => (2 ^ i).testBit j) = List.replicate ((w1cBits a).count i) i := by
    rw [← List.filter_beq]
    exact List.filter_congr fun j _ => by rw [Nat.testBit_two_pow]; grind
  have hrest : ∀ (n : Nat) (u : State), P u →
      P (u.each (List.replicate n i) fun s j => s.clearFlag a j (sets.testBit j)) := by
    intro n
    induction n with
    | zero => exact fun u hu => hu
    | succ n ih => exact fun u hu => ih _ (again u hu)
  obtain ⟨n, hn⟩ := Nat.exists_eq_succ_of_ne_zero (Nat.ne_of_gt (List.count_pos_iff.2 hi))
  rw [State.writeOnes, hfilter, hn]
  exact hrest n _ first

theorem exec_w1cClear_clears {s : State} {a i : Nat} (hp : s.powered = true) (ho : s.barOpen = true) (ha : a % 4 = 0)
    (hi : i ∈ w1cBits a) :
    ∃ u, exec (.w1cClear a (2 ^ i) 0) s = .next u ∧ u.get ⟨a, i, 1, 0⟩ = 0 ∧ s.only u [⟨a, i, 1, 0⟩] := by
  refine ⟨_, exec_w1cClear_of_open _ _ hp ho ha,
    State.writeOnes_two_pow (P := fun u => u.get ⟨a, i, 1, 0⟩ = 0 ∧ s.only u [⟨a, i, 1, 0⟩]) hi ?_ ?_⟩
  · rw [Nat.zero_testBit]
    exact State.clearFlag_cleared (s.only_refl _)
  · rintro u ⟨-, hu⟩
    rw [Nat.zero_testBit]
    exact State.clearFlag_cleared hu

/-- No field but a W1C flag and its companion counter differs. -/
def State.sameButFlag (s u : State) (a i : Nat) : Prop :=
  ∀ f : Fld, f.key ≠ (⟨a, i, 1, 0⟩ : Fld).key → (∀ c, companionOf a i = some c → f.key ≠ c.key) → u.get f = s.get f

theorem exec_w1cClear_met {s : State} {a i : Nat} (hp : s.powered = true) (ho : s.barOpen = true) (ha : a % 4 = 0)
    (hi : i ∈ w1cBits a) :
    ∃ u, exec (.w1cClear a (2 ^ i) (2 ^ i)) s = .next u ∧ u.get ⟨a, i, 1, 0⟩ = 1 ∧ s.sameButFlag u a i := by
  have hbit : (2 ^ i).testBit i = true := Nat.testBit_two_pow_self
  refine ⟨_, exec_w1cClear_of_open _ _ hp ho ha,
    State.writeOnes_two_pow (P := fun u => u.get ⟨a, i, 1, 0⟩ = 1 ∧ s.sameButFlag u a i) hi ?_ ?_⟩
  · rw [hbit]
    exact ⟨s.get_clearFlag_met a i, fun f hf hc => s.get_clearFlag_met_other hf hc⟩
  · rintro u ⟨-, hu⟩
    rw [hbit]
    exact ⟨u.get_clearFlag_met a i, fun f hf hc => (u.get_clearFlag_met_other hf hc).trans (hu f hf hc)⟩

/-! ### The TAP (R5, R9, R438) -/

theorem State.tapOn_of_le {s : State} (h : s.get PW_STATE ≤ 2) : s.tapOn = true := decide_eq_true h

theorem exec_bypass {s : State} (h : s.get PW_STATE ≤ 2) : exec .bypass s = .next s.bypass :=
  happens_of (State.tapOn_of_le h)

theorem exec_idcode {s : State} (h : s.get PW_STATE ≤ 2) :
    exec .idcode s = .next ((s.set TAP_IR 1).set TAP_DR 0x13C64E7B) :=
  happens_of (f := fun s => (s.set TAP_IR 1).set TAP_DR 0x13C64E7B) (State.tapOn_of_le h)

theorem exec_samplePreload {s : State} (h : s.get PW_STATE ≤ 2) :
    exec .samplePreload s = .next (if s.on TEST_EN then s.preload.set TAP_IR 2 else s.bypass) :=
  happens_of (f := fun s => if s.on TEST_EN then s.preload.set TAP_IR 2 else s.bypass) (State.tapOn_of_le h)

theorem exec_extest {s : State} (h : s.get PW_STATE ≤ 2) :
    exec .extest s =
      .next (if s.on TEST_EN then (if s.get TAP_IR = 2 then s else s.preload).set TAP_IR 3 else s.bypass) :=
  happens_of (f := fun s => if s.on TEST_EN then (if s.get TAP_IR = 2 then s else s.preload).set TAP_IR 3 else s.bypass)
    (State.tapOn_of_le h)

/-- An instruction and what the data register then holds: both read back, and nothing else changes. -/
theorem State.tapShows (s : State) {ir dr : Nat} (hir : ir < 2 ^ TAP_IR.w) (hdr : dr < 2 ^ TAP_DR.w) :
    ((s.set TAP_IR ir).set TAP_DR dr).get TAP_IR = ir ∧ ((s.set TAP_IR ir).set TAP_DR dr).get TAP_DR = dr ∧
      s.only ((s.set TAP_IR ir).set TAP_DR dr) [TAP_IR, TAP_DR] := by
  refine ⟨?_, ?_, ((s.only_refl _).set ir (by simp)).set dr (by simp)⟩
  · rw [State.get_set_other _ dr (by decide), State.get_set_same, Nat.mod_eq_of_lt hir]
  · rw [State.get_set_same, Nat.mod_eq_of_lt hdr]

/-- A preload draws a free value for the boundary register and changes nothing else. -/
theorem State.preload_only (s : State) : s.only { s.preload with freeCount := s.freeCount } [TAP_IR, TAP_BSR] :=
  (s.only_refl _).set (f := TAP_BSR) _ (by simp)

theorem exec_samplePreload_of_testEn {s : State} (h : s.get PW_STATE ≤ 2) (hen : s.on TEST_EN = true) :
    ∃ u, exec .samplePreload s = .next u ∧ u.get TAP_IR = 2 ∧ s.only { u with freeCount := s.freeCount } [TAP_IR, TAP_BSR] := by
  rw [exec_samplePreload h, if_pos hen]
  exact ⟨_, rfl, State.get_set_same _ _ _, s.preload_only.set (f := TAP_IR) 2 (by simp)⟩

theorem exec_extest_of_testEn {s : State} (h : s.get PW_STATE ≤ 2) (hen : s.on TEST_EN = true) :
    ∃ u, exec .extest s = .next u ∧ u.get TAP_IR = 3 ∧ s.only { u with freeCount := s.freeCount } [TAP_IR, TAP_BSR] ∧
      (s.get TAP_IR = 2 → u.get TAP_BSR = s.get TAP_BSR) := by
  rw [exec_extest h, if_pos hen]
  refine ⟨_, rfl, State.get_set_same _ _ _, ?_, fun hir => ?_⟩
  · split
    · exact (s.only_refl _).set (f := TAP_IR) 3 (by simp)
    · exact s.preload_only.set (f := TAP_IR) 3 (by simp)
  · rw [if_pos hir]
    exact State.get_set_other s 3 (by decide)

theorem exec_boundaryScan_of_testEn_low {s : State} (h : s.get PW_STATE ≤ 2) (hen : s.on TEST_EN = false) :
    exec .samplePreload s = exec .bypass s ∧ exec .extest s = exec .bypass s := by
  rw [exec_samplePreload h, exec_extest h, exec_bypass h, hen]
  exact ⟨rfl, rfl⟩

/-- Settles O60, clause by clause: the closed and the open BAR0, each named register, the W1C flags, and the TAP. -/
theorem registerWritesAndTap : Obligations.RegisterWritesAndTap := by
  unfold Obligations.RegisterWritesAndTap
  refine ⟨fun s a v hp ha hv => ⟨fun ho => ?closed, fun ho => ⟨fun hhif hdbg hmdio => ?ordinary, ?rodsel, ?flowsel, ?wakemask, ?breakpoint,
    fun i hi => ⟨exec_w1cClear_clears hp ho ha hi, exec_w1cClear_met hp ho ha hi⟩⟩⟩, fun s v hp ho hv => exec_registerWrite_id hp ho hv,
    fun s h => ⟨⟨_, exec_bypass h, s.tapShows (by decide) (by decide)⟩, ⟨_, exec_idcode h, s.tapShows (by decide) (by decide)⟩,
      fun hen => ⟨exec_samplePreload_of_testEn h hen, exec_extest_of_testEn h hen⟩,
      exec_boundaryScan_of_testEn_low h⟩⟩
  case closed => exact ⟨exec_registerWrite_of_closed a v ho, exec_w1cClear_of_closed a v 0 ho⟩
  case ordinary => rw [exec_registerWrite_of_open hp ho ha hv, State.barWrite_of_ordinary s v hhif hdbg hmdio]
  case rodsel => rintro rfl; exact exec_registerWrite_rodsel hp ho hv
  case flowsel => rintro rfl; exact exec_registerWrite_flowsel hp ho hv
  case wakemask => rintro rfl; exact exec_registerWrite_wakemask0 hp ho hv
  case breakpoint => rintro t i ht hi rfl hu; exact exec_registerWrite_breakpoint hp ho hv ht hi hu

end Sys2Proof.Machine
end
